-- ==== Sys2Proof/Word.lean ====
section
/-! DEFINITION. The word types of the device, and the sparse tables that hold large state as plain data. -/
namespace Sys2Proof

/-- A register: 32 bits, little-endian (R11, Table 14.3). -/
abbrev Word := BitVec 32

/-- A byte, the smallest addressable unit (R11). -/
abbrev Byte := BitVec 8

/-- A table from keys to values: a list with rising keys, in which a key that is absent holds the
table's unlisted value. Plain data, so that two tables with the same content are equal. -/
abbrev Sparse (α : Type) := List (Nat × α)

/-- Who makes an access or a request (R442, Table 12.10): PCIe function 0, an MCTP endpoint, an I3C dynamic
address, the Cupola, or a unit of the device by its index. -/
inductive Src where
  | pcie
  | mctp (eid : Nat)
  | i3c (address : Nat)
  | cupola
  | unit (index : Nat)
deriving DecidableEq, Repr

/-- Lost data that an item meets, as the physical world presents it: the unit code of Table 10.1 (11 to 13 are
verify-mode mismatches), the scratchpad line where the table names one, and the run of destination elements (bytes
for a copy) that the erroneous data feed (R364, R380). -/
structure DataErr where
  code  : Nat
  line  : Nat
  first : Nat
  count : Nat
deriving DecidableEq, Repr

/-- A packet's header (R267): destination and source address, class, slice tag, phase bank, escape layer while it is on
the escape channel, collective group, and its number of flits. The specification lists these fields and gives them no
bit positions, so they are presented decoded (log entry 40). -/
structure PktHdr where
  dest  : Nat
  src   : Nat
  cls   : Nat
  slice : Nat
  bank  : Nat
  layer : Option Nat
  group : Nat
  flits : Nat
deriving DecidableEq, Repr

/-- A flit (Table 7.2): its link sequence number, kind, last and stomp bits, the returned credits with the reservation
that they name, the header of the packet that it belongs to, bytes 4 to 251, and its CRC. -/
structure Flit where
  seq     : Nat
  kind    : Nat
  last    : Bool
  stomp   : Bool
  crClass : Nat
  crCount : Nat
  crKey   : Nat
  hdr     : PktHdr
  data    : List Byte
  crc     : Nat
deriving DecidableEq, Repr

/-- What a bring-up attempt of a link meets, as the physical world and the partner present it (R259 to R264): the lanes
that the DC test isolates, each with the lane it is shorted to or 16 for ground; the receive lanes, and by the partner's
report the transmit lanes, that do not train; the inverted lanes; whether the lane order is reversed, and whether it is
another order; the partner's identity record; and the stage that fails for a reason of its own, or 0. -/
structure Bringup where
  isolated : List (Nat × Nat)
  rxFail   : Nat
  txFail   : Nat
  inverted : Nat
  reversed : Bool
  misorder : Bool
  system   : Nat
  crossed  : Bool
  flask    : Nat
  addr     : Nat
  spare    : Bool
  sprue    : Nat
  half     : Nat
  dim      : Nat
  seed     : Nat
  failing  : Nat
deriving DecidableEq, Repr

/-- What a cold start meets, as the physical world presents it (R434 to R436, R370, R482, R488): the levels of the straps
and the straps that are open, in the bit positions of CUP_MOD_STRAPS; the result of the NVM probe, 0 octal, 1 single lane,
2 fault, with the failing section or probe; the bytes that are read otherwise than the NVM holds them; the routes that fail
the check of R278, as bank, destination and code; the physical crucibles that fail their test, each with its phase and
signature; the restarts by monitor conditions, as tick and cause; the profiles lost in the image cache, by bit; whether the
partner of cope/drag agrees; and the ticks that the cold start takes. -/
structure ColdStart where
  straps    : Nat
  opens     : Nat
  probe     : Nat
  failing   : Nat
  misread   : List (Nat × Byte)
  routes    : List (Nat × Nat × Nat)
  crucibles : List (Nat × Nat × Nat)
  restarts  : List (Nat × Nat)
  lost      : Nat
  partner   : Bool
  took      : Nat
deriving DecidableEq, Repr

end Sys2Proof
end

