-- ==== Sys2Proof/Syntax.lean ====
section
/-! DEFINITION. The commands of the block: one constructor for each row of the operation table. -/
namespace Sys2Proof

/-- The commands and events that change the device. Each constructor is one row of the operation table, and its
operands are what the host, the management path, the link partner or the physical world presents with it. -/
inductive Instr where
  /-- A 32-bit write to a crucible doorbell advances PUB of the queue by COUNT, or is discarded and logged. (R96) -/
  | doorbell (src : Src) (off : Nat) (width : Nat) (value : Nat)
  /-- The gate accepts the next whole item of a queue once all its words are published, and checks it. (R101) -/
  | itemAccept (c : Nat) (x : Nat) (q : Nat) (itemParity : Bool)
  /-- An item completes: its signal is applied, then its completion record is written if enabled. (R113) -/
  | itemComplete (c : Nat) (x : Nat) (q : Nat) (idx : Nat)
  /-- NOP completes at issue. (R104) -/
  | nop (c : Nat) (x : Nat) (q : Nat)
  /-- STEP sets the step number of its queue when accepted. (R105) -/
  | step (c : Nat) (x : Nat) (q : Nat)
  /-- MMA runs an array command of tiles and passes on the named array. (R110) -/
  | mma (c : Nat) (x : Nat) (q : Nat)
  /-- TURN transposes a matrix of 32 x 32 blocks through the turn port. (R130) -/
  | turn (c : Nat) (x : Nat) (q : Nat) (err : Option DataErr)
  /-- SEM_SIGNAL applies its signal word at issue. (R113) -/
  | semSignal (c : Nat) (x : Nat) (q : Nat)
  /-- SEM_SET writes a value into a crucible semaphore. (R116) -/
  | semSet (c : Nat) (x : Nat) (q : Nat)
  /-- SEM_WAIT waits on a crucible semaphore in GE or DEC mode. (R117) -/
  | semWait (c : Nat) (x : Nat) (q : Nat)
  /-- A waiting SEM_WAIT becomes satisfied, and in DEC mode subtracts its target. (R120) -/
  | semWaitSatisfied (c : Nat) (x : Nat) (q : Nat)
  /-- SEM_WAIT_SHARED waits on a Tundish shared semaphore. (R245) -/
  | semWaitShared (c : Nat) (x : Nat) (q : Nat)
  /-- A shared-semaphore wait becomes satisfiable and is evaluated oldest first. (R245) -/
  | ssemWaitSatisfied (c : Nat) (x : Nat) (q : Nat)
  /-- After the waiter is satisfied, the holder's pre-emptible boundary switches the lent crucible back. (R247) -/
  | lendReturn (c : Nat)
  /-- Vector unit computes a + b. (R127) -/
  | add (c : Nat) (x : Nat) (q : Nat) (err : Option DataErr)
  /-- Vector unit computes a x b. (R127) -/
  | mul (c : Nat) (x : Nat) (q : Nat) (err : Option DataErr)
  /-- Vector unit computes a x b + c with one rounding. (R127) -/
  | fma (c : Nat) (x : Nat) (q : Nat) (err : Option DataErr)
  /-- Vector unit computes alpha x a + beta with one rounding. (R127) -/
  | axpb (c : Nat) (x : Nat) (q : Nat) (err : Option DataErr)
  /-- Vector unit computes alpha x a + beta x b with two roundings. (R127) -/
  | axpby (c : Nat) (x : Nat) (q : Nat) (err : Option DataErr)
  /-- Vector unit computes the elementwise maximum. (R127) -/
  | max (c : Nat) (x : Nat) (q : Nat) (err : Option DataErr)
  /-- Vector unit computes the elementwise minimum. (R127) -/
  | min (c : Nat) (x : Nat) (q : Nat) (err : Option DataErr)
  /-- Vector unit computes e to the a. (R127) -/
  | exp (c : Nat) (x : Nat) (q : Nat) (err : Option DataErr)
  /-- Vector unit computes ln a. (R127) -/
  | log (c : Nat) (x : Nat) (q : Nat) (err : Option DataErr)
  /-- Vector unit computes 1 / a, correctly rounded. (R127) -/
  | recip (c : Nat) (x : Nat) (q : Nat) (err : Option DataErr)
  /-- Vector unit computes 1 / sqrt(a). (R127) -/
  | rsqrt (c : Nat) (x : Nat) (q : Nat) (err : Option DataErr)
  /-- Vector unit sums the stream in the fixed lane-and-tree order. (R128) -/
  | sum (c : Nat) (x : Nat) (q : Nat) (err : Option DataErr)
  /-- Vector unit sums squares in the fixed order. (R128) -/
  | sumsq (c : Nat) (x : Nat) (q : Nat) (err : Option DataErr)
  /-- Vector unit returns the largest magnitude exactly. (R127) -/
  | amax (c : Nat) (x : Nat) (q : Nat) (err : Option DataErr)
  /-- Vector unit converts a stream from A_FMT to D_FMT. (R127) -/
  | cvt (c : Nat) (x : Nat) (q : Nat) (err : Option DataErr)
  /-- The first vector of a pass enters row 0 once the plane is staged and the runners hold entries. (R66) -/
  | passStart (p : Nat) (a : Nat) (stalls : List (Nat × Nat)) (waits : Nat) (err : Option DataErr)
  /-- The fill port stages and decodes the next plane image into the shadow plane. (R63) -/
  | planeFill (p : Nat) (a : Nat) (err : Option DataErr)
  /-- A runner requests a refill unit when its free space allows. (R68) -/
  | runnerRefillRequest (p : Nat) (a : Nat) (n : Nat)
  /-- A granted runner refill returns its entries 8 ACLK cycles after the grant. (R68) -/
  | runnerRefillReturn (p : Nat) (a : Nat) (n : Nat)
  /-- After the last write of a tile, its accumulator bank drains to the scratchpad with conversion. (R81) -/
  | tileDrain (p : Nat) (a : Nat) (err : Option DataErr)
  /-- A write of CRU_Q_FLUSH discards held and unpublished words and sets PUB and CRU_Q_RESTART. (R134) -/
  | cruQFlush (src : Src) (c : Nat) (x : Nat) (q : Nat) (wr : Word)
  /-- Setting ENABLE returns a queue from DISABLED to its former state after checks. (R518) -/
  | cruQEnable (src : Src) (c : Nat) (x : Nat) (q : Nat) (size : Nat)
  /-- Clearing ENABLE puts the queue in DISABLED and stops acceptance. (R518) -/
  | cruQDisable (src : Src) (c : Nat) (x : Nat) (q : Nat)
  /-- A write of RESET resets the queue at once or sets RESET_PEND. (R517) -/
  | cruQReset (src : Src) (c : Nat) (x : Nat) (q : Nat)
  /-- A pending queue reset acts in the cycle after the last in-flight item completes. (R517) -/
  | cruQResetAct (c : Nat) (x : Nat) (q : Nat)
  /-- RESUME ends HALTED and starts the discard of the rest of the refused command. (R140) -/
  | cruQResume (src : Src) (c : Nat) (x : Nat) (q : Nat)
  /-- Advancing CRU_Q_CQ_HEAD frees ring space and releases a held completion record. (R139) -/
  | cruQCqHeadWrite (src : Src) (c : Nat) (x : Nat) (q : Nat) (v : Word)
  /-- A write to CRU_SEM acts as SEM_SET on the semaphore. (R119) -/
  | cruSemWrite (src : Src) (c : Nat) (x : Nat) (sem : Nat) (value : Word)
  /-- Ladle COPY moves COUNT bytes. (R155) -/
  | copy (c : Nat) (x : Nat) (q : Nat) (err : Option DataErr)
  /-- Ladle COPY2D moves rows with pitches. (R155) -/
  | copy2d (c : Nat) (x : Nat) (q : Nat) (err : Option DataErr)
  /-- Ladle FILL writes a repeated 32-bit pattern. (R155) -/
  | fill (c : Nat) (x : Nat) (q : Nat) (err : Option DataErr)
  /-- Ladle CONVERT decompresses, decodes, transposes, encodes and lays out elements. (R159) -/
  | convert (c : Nat) (x : Nat) (q : Nat) (err : Option DataErr)
  /-- KV GATHER copies lines of listed pages to DATA. (R174) -/
  | gather (c : Nat) (x : Nat) (q : Nat) (err : Option DataErr)
  /-- KV SCATTER writes lines of listed pages from DATA. (R174) -/
  | scatter (c : Nat) (x : Nat) (q : Nat) (err : Option DataErr)
  /-- KV SPILL moves NEAR pages to the far pool. (R174) -/
  | spill (c : Nat) (x : Nat) (q : Nat) (err : Option DataErr)
  /-- KV FETCH moves FAR pages to the near pool. (R174) -/
  | fetch (c : Nat) (x : Nat) (q : Nat) (err : Option DataErr)
  /-- KV FREE returns pages' slots and makes them FREE. (R174) -/
  | free (c : Nat) (x : Nat) (q : Nat) (err : Option DataErr)
  /-- KV PIN sets PIN on listed pages. (R174) -/
  | pin (c : Nat) (x : Nat) (q : Nat) (err : Option DataErr)
  /-- KV UNPIN clears PIN on listed pages. (R174) -/
  | unpin (c : Nat) (x : Nat) (q : Nat) (err : Option DataErr)
  /-- A spill sweep starts when the near pool's free count falls below SPILL_LO and runs to SPILL_HI. (R175) -/
  | kvSpillSweep (x : Nat)
  /-- A page move's copy completes and the entry is updated in one write, then the old slot is freed. (R177) -/
  | pageMoveEnd (x : Nat) (pg : Nat)
  /-- RUNAHEAD ARM arms a run-ahead stream of the slice. (R179) -/
  | arm (c : Nat) (x : Nat) (q : Nat)
  /-- RUNAHEAD CANCEL ends a run-ahead stream. (R180) -/
  | runaheadCancel (c : Nat) (x : Nat) (q : Nat)
  /-- The fetcher issues reads of chunks ahead of the stream position up to distance D. (R180) -/
  | runaheadFetch (n : Nat)
  /-- A prefetched line arrives and is buffered, buffered as poisoned, or dropped for a cancelled stream. (R183) -/
  | runaheadLineArrive (n : Nat) (addr : Nat)
  /-- A peeked line held longer than 1 ms is dropped without a CHECK. (R349) -/
  | peekAgeLimit (n : Nat) (addr : Nat)
  /-- A Ladle request is issued once its response slots are reserved. (R188) -/
  | ladleRequestIssue (id : Nat)
  /-- Data or an acknowledgement arrives and releases its response slots. (R188) -/
  | ladleResponse (id : Nat) (code : Nat) (detail : Nat) (data : List Byte)
  /-- A tier controller serves a read or write of a 64-byte unit with ECC decode or encode. (R184) -/
  | memoryRequest (write : Bool) (addr : Nat) (symbols : Nat) (data : List Byte)
  /-- The background scrub reads and writes back a unit corrected, spread over PERIOD. (R186) -/
  | scrubUnit (addr : Nat) (symbols : Nat) (last : Bool)
  /-- SWEEP reads GLOBAL and commits or skips the update of every table entry. (R212) -/
  | sweep (c : Nat) (x : Nat) (q : Nat) (err : Option DataErr)
  /-- The Cupola applies the loss-scale loop to the sweep outcome, then the step record is written and SWEEP completes. (R224) -/
  | lossScaleLoop
  /-- STAGE computes updates of early entries into staging space. (R220) -/
  | stage (c : Nat) (x : Nat) (q : Nat) (err : Option DataErr)
  /-- SWCHECK computes norms and writes this device's verdict LOCAL. (R210) -/
  | swcheck (c : Nat) (x : Nat) (q : Nat) (err : Option DataErr)
  /-- Ladle ATOMIC performs one read-modify-write on a local, window or remote word. (R354) -/
  | atomic (c : Nat) (x : Nat) (q : Nat) (err : Option DataErr)
  /-- Ladle TRIGGER sends a remote procedure trigger to a slot of another device. (R360) -/
  | trigger (c : Nat) (x : Nat) (q : Nat)
  /-- ASSAYCHK compares the reduced MAX and MIN of the assay record. (R383) -/
  | assaychk (c : Nat) (x : Nat) (q : Nat) (err : Option DataErr)
  /-- PROV forms a SHA-384 provenance digest over listed regions. (R392) -/
  | prov (c : Nat) (x : Nat) (q : Nat) (err : Option DataErr)
  /-- A write of the scale ceiling may lower S to the new ceiling and reset CLEAN. (R224) -/
  | ldlSwpScaleMaxWrite (src : Src) (v : Word)
  /-- A write of 1 clears a context's non-finite sticky bit. (R206) -/
  | ldlSlagNfClear (src : Src) (x : Nat)
  /-- BARRIER synchronises every member of a group on the scalar tree. (R309) -/
  | barrier (c : Nat) (x : Nat) (q : Nat)
  /-- PHASE is a barrier that changes the routing bank of the owner context. (R310) -/
  | phase (c : Nat) (x : Nat) (q : Nat)
  /-- SCALAR combines up to 8 values exactly across the group. (R308) -/
  | scalar (c : Nat) (x : Nat) (q : Nat) (err : Option DataErr)
  /-- REDUCE runs an all-reduce, reduce-scatter or all-gather over the group's butterfly. (R312) -/
  | reduce (c : Nat) (x : Nat) (q : Nat) (err : Option DataErr)
  /-- BCAST copies bytes from the root to every member by relay or tree. (R332) -/
  | bcast (c : Nat) (x : Nat) (q : Nat) (err : Option DataErr)
  /-- ALY CANCEL cancels the collectives already queued in a group. (R329) -/
  | cancel (c : Nat) (x : Nat) (q : Nat)
  /-- A child's up packet arrives and is combined; once all have arrived the member sends up or the root sends down. (R307) -/
  | upPacket (g : Nat) (seq : Nat) (sender : Nat) (sig : Nat) (aop : Nat) (crit : Nat) (dim : Nat) (fault : Option Nat) (residue : Nat) (vals : List (Int × Nat))
  /-- A down packet arrives; the member writes the result, forwards it and completes. (R307) -/
  | downPacket (g : Nat) (seq : Nat) (sender : Nat) (sig : Nat) (aop : Nat) (crit : Nat) (dim : Nat) (fault : Option Nat) (vals : List (Int × Nat))
  /-- READY for a pour and stage arrives; the member writes its data to the partner. (R314) -/
  | readyNotice (g : Nat) (seq : Nat) (sender : Nat) (sig : Nat) (aop : Nat) (pour : Nat) (stage : Nat) (addr : Nat) (fault : Option Nat)
  /-- DONE for a pour and stage arrives; the member adds the staged data and frees the slot. (R314) -/
  | doneNotice (g : Nat) (seq : Nat) (sender : Nat) (sig : Nat) (pour : Nat) (stage : Nat) (crit : Nat) (dim : Nat) (fault : Option Nat) (residue : Nat)
  /-- A partner's flag and lane partials arrive in the lane phase and are added exactly. (R324) -/
  | lanePartials (g : Nat) (seq : Nat) (sender : Nat) (sig : Nat) (stage : Nat) (crit : Nat) (dim : Nat) (flag : Bool) (fault : Option Nat) (residue : Nat) (lanes : List (Nat × Nat × Bool))
  /-- A broadcast chunk arrives, is written to BUF and forwarded. (R332) -/
  | bcastChunk (g : Nat) (seq : Nat) (sender : Nat) (sig : Nat) (chunk : Nat) (dim : Nat) (data : List Byte)
  /-- VOID arrives and completes the collective VOIDED, forwarded to neighbours. (R330) -/
  | void (g : Nat) (seq : Nat) (sender : Nat) (sig : Nat)
  /-- Writing ENABLE checks a group's configuration and makes it IDLE or refuses it. (R301) -/
  | alyGrpEnable (src : Src) (g : Nat) (v : Word)
  /-- Clearing ENABLE disables an IDLE group. (R301) -/
  | alyGrpDisable (src : Src) (g : Nat)
  /-- Writing ABORT ends every collective of the group and resets SEQ. (R331) -/
  | alyGrpAbort (src : Src) (g : Nat)
  /-- Writing CANCEL cancels the group's queued collectives as a CANCEL item does. (R329) -/
  | alyGrpCancel (src : Src) (g : Nat)
  /-- After an adder fault the Cupola starts an Alloy engine test when all groups are idle. (R379) -/
  | alloyTest
  /-- The Alloy engine test ends after 0.5 ms, setting device-failed on failure. (R379) -/
  | alloyTestEnd (pass : Bool)
  /-- Enabling a context reserves its slice's credit pools or leaves it DISABLED. (R233) -/
  | tndCtxEnable (src : Src) (x : Nat)
  /-- Disabling a STOPPED context releases its reservation. (R233) -/
  | tndCtxDisable (src : Src) (x : Nat)
  /-- STOP = 1 makes a RUNNABLE context STOPPING. (R232) -/
  | tndCtxStop (src : Src) (x : Nat)
  /-- STOP = 0 returns a STOPPING or STOPPED context to RUNNABLE. (R232) -/
  | tndCtxUnstop (src : Src) (x : Nat)
  /-- APPLY_CSET applies the staged crucible set in one cycle or refuses it. (R235) -/
  | applyCset (src : Src) (x : Nat)
  /-- At a pre-emptible boundary or a new candidate, the Tundish chooses the resident context and begins any switch. (R242) -/
  | arbitration (c : Nat)
  /-- A switch ends after N_sw cycles and the incoming context's items are accepted. (R243) -/
  | contextSwitchEnd (c : Nat)
  /-- A resident context reaches QUANTUM and becomes displaceable by an equal-priority candidate. (R242) -/
  | quantumExpiry (c : Nat)
  /-- GUARD before an exclusive slot, other contexts stop issuing new commands on its crucibles. (R239) -/
  | slotGuardOpen (slot : Nat)
  /-- An exclusive slot starts and its crucibles switch to the owner at their boundaries. (R239) -/
  | slotStart (slot : Nat) (ecc : Nat)
  /-- A slot ends and its crucibles return to arbitration. (R239) -/
  | slotEnd (slot : Nat)
  /-- Writing SWAP orders the inactive schedule bank to become active at the next cycle. (R241) -/
  | tndSchedSwap (src : Src)
  /-- At the next cycle start the inactive bank is checked and made active or refused. (R241) -/
  | schedSwapApply
  /-- Writing GO orders a move of a logical crucible to a spare. (R244) -/
  | tndMoveReq (src : Src) (c : Nat)
  /-- A move to a spare ends after N_mv cycles and TND_PHYS names the new crucible. (R244) -/
  | moveEnd (c : Nat)
  /-- A write sets a shared semaphore's value. (R245) -/
  | tndSsemValWrite (src : Src) (sem : Nat) (v : Word)
  /-- A write makes a batch-table flip pending and sets the apply step. (R250) -/
  | tndCtxBtFlip (src : Src) (x : Nat) (b : Nat)
  /-- When every participant holds its STEP item, the header is checked, the anchor written and the items released. (R250) -/
  | btFlipApply (x : Nat)
  /-- A sprue runs DC test, training, lane identity, identity exchange, lock and credit exchange. (R258) -/
  | sprueBringup (h : Nat) (b : Bringup)
  /-- 100 ms after a failed attempt, bring-up starts again. (R258) -/
  | bringupRetry (h : Nat) (b : Bringup)
  /-- A flit arrives, is checked and delivered in sequence to routing, or discarded with a NAK. (R268) -/
  | flitReceive (h : Nat) (ucw : Bool) (csym : Nat) (f : Flit) (ecc : Nat)
  /-- A NAK arrives and the sender replays from the named flit. (R268) -/
  | nak (h : Nat) (seq : Nat)
  /-- An acknowledgement arrives and frees retry-buffer flits. (R268) -/
  | linkAck (h : Nat) (seq : Nat)
  /-- 2 us after an unacknowledged arrival an acknowledgement is sent. (R268) -/
  | ackSendTimer (h : Nat)
  /-- No acknowledgement within 10 us of a flit sent enters a retrain. (R269) -/
  | ackTimeout (h : Nat)
  /-- A retrain reruns training, identity and lock with the kept seed. (R269) -/
  | retrain (h : Nat) (cause : Nat) (lane : Nat)
  /-- A retrain ends with its new width and replay resumes. (R269) -/
  | retrainEnd (h : Nat) (ok : Bool) (rxFail : Nat) (txFail : Nat)
  /-- A link goes DOWN; packets take alternates and the retry buffer is re-injected. (R270) -/
  | linkDown (h : Nat)
  /-- The partner's answer with the last whole packet received arrives over an alternate route. (R270) -/
  | linkSeqQuery (h : Nat) (ask : Bool) (last : Nat)
  /-- No answer within 20 us: the partner is taken dead and its packets dropped. (R270) -/
  | partnerAnswerTimeout (h : Nat)
  /-- A request waiting 64 LCLK cycles without credit moves to the escape channel. (R280) -/
  | escapeWait (h : Nat)
  /-- A credit reservation agreement message arrives and both partners apply the pools. (R288) -/
  | creditReserve (h : Nat) (slice : Nat) (req : Nat) (rsp : Nat) (kind : Nat) (cls : Nat)
  /-- After LP_IDLE of idle, a side sends LP_PROPOSE. (R292) -/
  | lpIdleTimer (h : Nat)
  /-- LP_PROPOSE arrives and is answered ACCEPT or DECLINE. (R292) -/
  | lpPropose (h : Nat)
  /-- LP_ACCEPT arrives and the proposer starts its countdown. (R292) -/
  | lpAccept (h : Nat)
  /-- LP_DECLINE arrives and the link stays active. (R292) -/
  | lpDecline (h : Nat)
  /-- LP_ABORT arrives and the receiver leaves its countdown. (R293) -/
  | lpAbort (h : Nat)
  /-- 64 LCLK cycles after ACCEPT a side enters electrical idle. (R292) -/
  | electricalIdleEntry (h : Nat)
  /-- A flit to send arrives and aborts entry or starts exit. (R293) -/
  | lpWake (h : Nat)
  /-- The partner detects the signal leaving electrical idle and resumes lock. (R294) -/
  | lpExitDetect (h : Nat)
  /-- Writing ENABLE starts bring-up of a DOWN sprue. (R258) -/
  | sprEnable (src : Src) (h : Nat) (on_ : Bool)
  /-- Writing RETRAIN orders a retrain. (R269) -/
  | sprRetrain (src : Src) (h : Nat)
  /-- A change of fence or slice mask reserves or releases slice pools on the link. (R289) -/
  | sprFenceChange (src : Src) (link : Option Nat) (v : Word)
  /-- Writing CHECK verifies every route of a bank and marks it valid or invalid. (R278) -/
  | sprRtCheck (src : Src) (beyond : List (Nat × Nat))
  /-- A read or write of SPR_RT_DATA accesses a routing entry and advances RT_INDEX. (R296) -/
  | sprRtDataAccess (src : Src) (write : Bool) (v : Word)
  /-- Writing TAKEOVER makes the spare and carriers serve the failed device's address. (R283) -/
  | sprTakeover (src : Src) (v : Word)
  /-- The home serves a shared read of a window line. (R342) -/
  | rdS (pos : Nat) (off : Nat) (tag : Nat) (slice : Nat) (bank : Nat) (cut : Option Nat)
  /-- The home serves an exclusive read of a window line. (R342) -/
  | rdX (pos : Nat) (off : Nat) (tag : Nat) (slice : Nat) (bank : Nat) (cut : Option Nat)
  /-- The home serves a non-allocating read. (R342) -/
  | rdOnce (pos : Nat) (off : Nat) (tag : Nat) (slice : Nat) (bank : Nat) (cut : Option Nat)
  /-- The home performs a write to a window line. (R342) -/
  | wr (pos : Nat) (off : Nat) (tag : Nat) (slice : Nat) (bank : Nat) (cut : Option Nat) (data : List Byte)
  /-- The home performs an atomic on a window line. (R354) -/
  | atCmd (pos : Nat) (off : Nat) (tag : Nat) (slice : Nat) (bank : Nat) (cut : Option Nat) (aop : Nat) (operand : Nat) (compare : Nat)
  /-- The home takes a write-back from the owner or discards a stale one. (R342) -/
  | wb (pos : Nat) (off : Nat) (tag : Nat) (slice : Nat) (bank : Nat) (cut : Option Nat) (data : List Byte)
  /-- The home returns a line and its VERSION, or PEEK_MISS, without change. (R348) -/
  | peek (pos : Nat) (off : Nat) (tag : Nat) (slice : Nat) (bank : Nat) (cut : Option Nat)
  /-- The home answers CHECK_OK or CHECK_FAIL against the peeked VERSION. (R349) -/
  | check (pos : Nat) (off : Nat) (tag : Nat) (slice : Nat) (bank : Nat) (cut : Option Nat) (version : Nat)
  /-- A cache answers an invalidating snoop with ACK. (R345) -/
  | snpInv (f : Nat) (line : Nat) (slice : Nat) (bank : Nat)
  /-- A cache answers a sharing snoop, with data from M. (R345) -/
  | snpShr (f : Nat) (line : Nat) (slice : Nat) (bank : Nat)
  /-- A cache answers a recall snoop and invalidates the line. (R345) -/
  | snpRcl (f : Nat) (line : Nat) (slice : Nat) (bank : Nat)
  /-- A DATA answer arrives, is installed, and DONE is sent. (R346) -/
  | data (tag : Nat) (version : Nat) (mask : Nat) (data : List Byte)
  /-- An ACK arrives at the requester or home and advances the transaction. (R346) -/
  | ack (reply : Bool) (pos : Nat) (line : Nat) (tag : Nat) (mask : Nat) (data : List Byte)
  /-- A snoop reply with data arrives at the home. (R342) -/
  | ackData (pos : Nat) (line : Nat) (data : List Byte)
  /-- PEEK_MISS arrives and the fetcher buffers nothing. (R348) -/
  | peekMiss (tag : Nat)
  /-- CHECK_OK arrives and the read is served from the buffered line. (R349) -/
  | checkOk (tag : Nat)
  /-- CHECK_FAIL arrives; the buffered line is dropped and the read made as a miss. (R349) -/
  | checkFail (tag : Nat)
  /-- A REFUSED answer arrives and the item completes REMOTE_REFUSED or RANGE_FAULT. (R351) -/
  | refused (tag : Nat) (reason : Nat)
  /-- DONE arrives at the home and closes the line's transaction. (R346) -/
  | done (pos : Nat) (line : Nat)
  /-- A remote load, store or atomic arrives and is checked against export ranges and served. (R351) -/
  | remoteAccessArrive (src : Nat) (slice : Nat) (bank : Nat) (tag : Nat) (kind : Nat) (a : Nat) (n : Nat) (data : List Byte) (fmt : Option Nat) (cut : Option Nat)
  /-- A trigger arrives; its list is copied into the ring and a doorbell written, or it is refused. (R360) -/
  | triggerPacket (src : Nat) (slice : Nat) (bank : Nat) (tag : Nat) (t : Nat) (arg : Nat) (cut : Option Nat)
  /-- A request unanswered for 20 us is treated as answered with poison. (R357) -/
  | remoteRequestTimeout (id : Nat)
  /-- An unanswered snoop marks its position dead and completes as ACK. (R358) -/
  | snoopTimeout (pos : Nat) (line : Nat)
  /-- Writing VALID checks and registers a trigger slot. (R359) -/
  | flkTrigValid (src : Src) (t : Nat) (v : Word)
  /-- CLR_DEAD clears the dead positions. (R358) -/
  | flkClrDead (src : Src)
  /-- Setting WIN_EN exports the coherent window. (R341) -/
  | flkWinEn (src : Src) (v : Word)
  /-- A crucible falls due and the Cupola orders a move to a free spare or a spare's test. (R373) -/
  | fettleDue (p : Nat)
  /-- The resident command reaching 200 ms withdraws the move order. (R373) -/
  | fettleDefer (p : Nat)
  /-- RETRY seconds after a deferral the move is ordered again. (R373) -/
  | fettleRetry (p : Nat)
  /-- At the deadline the crucible is moved without withdrawal or tested in place. (R376) -/
  | fettleDeadline (p : Nat)
  /-- A 1.5 ms fettle test ends with pass or failure. (R369) -/
  | fettleTestEnd (p : Nat) (pass : Bool) (phase : Nat) (signature : Nat)
  /-- A write of VERIFY turns verify mode on or off. (R380) -/
  | cupIntCtrlVerify (src : Src) (on_ : Bool)
  /-- CLR_CHOICE clears the choice counters and DET_BROKEN. (R390) -/
  | clrChoice (src : Src)
  /-- A W1C write clears taint bits. (R368) -/
  | cupIntTaintClear (src : Src) (v : Word)
  /-- A partner's tile-digest record arrives and is matched by key, stopping both on mismatch. (R389) -/
  | digestRecord (key : Nat) (digest : Nat)
  /-- A record unmatched for 1 s stops the pair. (R389) -/
  | copeUnmatchedTimeout
  /-- Writing ENABLE checks the ingot configuration. (R398) -/
  | cupIngEnable (src : Src) (v : Word)
  /-- Writing CUT requests a migration cut. (R403) -/
  | cut (src : Src)
  /-- Writing ABANDON withdraws a pending cut. (R403) -/
  | abandon (src : Src)
  /-- When its conditions hold the cut increments the epoch, captures the image and starts the drain. (R405) -/
  | cutTake (peers : List Nat)
  /-- A flask peer's cut announcement arrives. (R406) -/
  | chillAnnounce (pos : Nat)
  /-- A ward's drain packet arrives at the buddy store. (R411) -/
  | drainPacket (src : Nat) (epoch : Nat) (n : Nat) (addr : Nat) (data : List Byte)
  /-- A seal record arrives and the buddy seals or refuses the half. (R411) -/
  | sealRecord (src : Nat) (epoch : Nat) (step : Nat) (pages : Nat) (digest : Nat)
  /-- SEALED arrives and the drainer sets CUP_ING_SEALED. (R411) -/
  | sealed (src : Nat) (epoch : Nat) (result : Nat)
  /-- 1 s after a failed drain it starts again. (R411) -/
  | drainRetry
  /-- Writing RESTORE returns the device to epoch T. (R413) -/
  | restore (src : Src)
  /-- A restore completes. (R413) -/
  | restoreComplete
  /-- Writing LOAD fills the spare with epoch T. (R414) -/
  | load (src : Src)
  /-- A load completes or fails. (R414) -/
  | loadComplete (fail : Option (Nat × Nat)) (image : List (Nat × Nat)) (pages : List (Nat × List Byte)) (lines : List (Nat × Bool × List Byte))
  /-- Writing ARM sets profile, cause, SHAKE and nonce. (R417) -/
  | cupQuenchArm (src : Src) (v : Word)
  /-- Writing GO with the nonce starts the quench, beginning with a shakeout if required. (R417) -/
  | cupQuenchGo (src : Src) (v : Word)
  /-- The shakeout ends and the quench phases begin. (R421) -/
  | shakeoutEnd (absent : Nat)
  /-- The quench completes after stop, reset, profile and ready phases. (R418) -/
  | quenchComplete (lost : Nat) (partner : Bool)
  /-- Release of MOD_RST_N runs the cold start to READY or cold-shut mode. (R434) -/
  | coldStart (c : ColdStart)
  /-- Every 100 us the Cupola runs the VF loop, table compare, run-ahead loop and heartbeat. (R426) -/
  | supervisionPass (p10 : Nat) (tj : Nat) (temps : List (Nat × Bool)) (inlet : Nat) (outlet : Nat) (lost : List Nat)
  /-- A change of root point ends and the divider chain is released. (R448) -/
  | rootPointChangeEnd
  /-- The fast comparator finds input above 2,700 W and asserts a hold. (R449) -/
  | inputOverLimit
  /-- Once per second the Cupola updates risk scores and runs the lane loop. (R452) -/
  | riskUpdate (lanes : List (Nat × Nat × Nat × Nat))
  /-- Once per hour each risk accumulator decays by 15/16. (R453) -/
  | riskDecay
  /-- A write of VF_FLOOR or VF_CEIL takes effect at the next pass. (R447) -/
  | cupVfLimitWrite (src : Src) (ceil : Bool) (v : Word)
  /-- The fault manager writes a risk accumulator. (R453) -/
  | cupRiskAccWrite (src : Src) (u : Nat) (v : Word)
  /-- Management READ returns a register or memory value. (R441) -/
  | read (src : Src) (ok : Bool) (tag : Nat) (space : Nat) (width : Nat) (addr : Nat)
  /-- Management WRITE writes a register or memory. (R441) -/
  | write (src : Src) (ok : Bool) (tag : Nat) (space : Nat) (width : Nat) (addr : Nat) (v : Nat)
  /-- Management UNIT_READ returns a unit table entry. (R457) -/
  | unitRead (src : Src) (ok : Bool) (tag : Nat) (u : Nat)
  /-- ORDER STOP to a context. (R458) -/
  | orderStop (src : Src) (ok : Bool) (tag : Nat) (u : Nat)
  /-- ORDER RESUME to a context. (R458) -/
  | orderResume (src : Src) (ok : Bool) (tag : Nat) (u : Nat)
  /-- ORDER DISABLE to a context, waiting for STOPPED. (R458) -/
  | orderDisableContext (src : Src) (ok : Bool) (tag : Nat) (u : Nat)
  /-- ORDER MOVE of a logical crucible. (R458) -/
  | orderMove (src : Src) (ok : Bool) (tag : Nat) (u : Nat)
  /-- ORDER DISABLE to a collective group. (R458) -/
  | orderDisableGroup (src : Src) (ok : Bool) (tag : Nat) (u : Nat)
  /-- ORDER RETRAIN to a sprue half. (R458) -/
  | orderRetrain (src : Src) (ok : Bool) (tag : Nat) (u : Nat)
  /-- ORDER DOWN to a sprue half. (R458) -/
  | orderDown (src : Src) (ok : Bool) (tag : Nat) (u : Nat)
  /-- ORDER UP to a sprue half. (R458) -/
  | orderUp (src : Src) (ok : Bool) (tag : Nat) (u : Nat)
  /-- ORDER CUT to the ingot. (R458) -/
  | orderCut (src : Src) (ok : Bool) (tag : Nat) (u : Nat)
  /-- A pending order acts, or is discarded, at its unit's boundary. (R458) -/
  | orderApply (u : Nat)
  /-- IMAGE_BEGIN starts delivery of an image over management. (R438) -/
  | imageBegin (src : Src) (ok : Bool) (tag : Nat) (len : Nat) (program : Bool)
  /-- IMAGE_DATA stages image bytes. (R438) -/
  | imageData (src : Src) (ok : Bool) (tag : Nat) (off : Nat) (data : List Byte)
  /-- IMAGE_END checks the image and returns the verdict. (R438) -/
  | imageEnd (src : Src) (ok : Bool) (tag : Nat) (c : ColdStart)
  /-- IMAGE_STATUS returns delivery progress. (R441) -/
  | imageStatus (src : Src) (ok : Bool) (tag : Nat)
  /-- FUSE_KEY programs the key fuses once. (R431) -/
  | fuseKey (src : Src) (ok : Bool) (tag : Nat) (hash : List Byte) (require : Bool)
  /-- HLOG_READ returns up to 16 Heat Log entries. (R441) -/
  | hlogRead (src : Src) (ok : Bool) (tag : Nat) (first : Nat) (count : Nat)
  /-- Background NVM programming ends with read-back compare. (R438) -/
  | nvmProgramDone (diffs : List (Nat × Byte))
  /-- Every 6,250 REFCLK ticks one token is added to each non-full bucket. (R467) -/
  | hlogTokenRefill
  /-- Writing CLEAR starts a Heat Log clear. (R468) -/
  | hlgClear (src : Src)
  /-- The clear ends and event 0x0806 is written at index 0. (R468) -/
  | hlogClearEnd
  /-- MTR_MAP_GO applies the tick-to-wall mapping. (R461) -/
  | mtrMapGo (src : Src)
  /-- MTR_CLOSE_GO computes B and refuses, closes or arms a boundary. (R462) -/
  | mtrCloseGo (src : Src)
  /-- An armed boundary passes and the interval record is written. (R463) -/
  | mtrIntervalClose
  /-- MTR_ACK records consumed interval records. (R463) -/
  | mtrAckWrite (src : Src) (v : Word)
  /-- Every 100,000 REFCLK ticks meter 4 adds each enabled context's range size. (R471) -/
  | mtrRangeTick
  /-- The input voltage crosses a threshold of Table 13.2. (R475) -/
  | inputVoltageChange (mV : Int) (amps : Nat)
  /-- After 100 ms below 58 V the disconnected input reconnects. (R475) -/
  | overVoltageReconnect
  /-- PWR_EN asserted raises the main rails in order. (R484) -/
  | pwrEnAssert (cool : Bool)
  /-- PWR_EN deasserted turns the main rails off. (R485) -/
  | pwrEnDeassert
  /-- MOD_RST_N asserted resets and holds the main domain. (R486) -/
  | modRstNAssert
  /-- PERST_N resets the PCIe controller only. (R487) -/
  | perstN
  /-- A rail outside its window for 1 us forces a monitor quench. (R480) -/
  | railFault (rail : Nat) (measured : Nat)
  /-- Loss of lock of the root or a PHY PLL forces a monitor quench. (R480) -/
  | pllLockLoss (pll : Nat)
  /-- REFCLK missing or out of tolerance switches to holdover. (R480) -/
  | refclkFault (cause : Nat)
  /-- After 1 ms of valid REFCLK the root PLL returns from holdover. (R480) -/
  | refclkRestored
  /-- A junction or stack over limit for 10 us turns the main rails off. (R480) -/
  | thermalTrip (sensor : Nat) (temp : Nat)
  /-- Every millisecond released status pins are read back for shorts. (R490) -/
  | statusPinReadback (low : Nat)
  /-- An I3C line low for 10 ms isolates the pads. (R494) -/
  | i3cLineHeldLow (line : Nat)
  /-- Both I3C lines high for 1 ms re-enables the pads. (R494) -/
  | i3cLinesReleased
  /-- A test access port instruction acts, or is taken as BYPASS and logged. (R493) -/
  | jtagInstruction (kind : Nat)
  /-- A 4-byte read of a counter _LO returns the low half and latches the high half. (R503) -/
  | counterLoRead (src : Src) (off : Nat)
  /-- A 4-byte read of a counter _HI returns the latched or current high half and clears the latch. (R502) -/
  | counterHiRead (src : Src) (off : Nat)
  /-- An 8-byte read of a counter pair returns both halves from one cycle, clearing an RC pair. (R502) -/
  | counterPairRead (src : Src) (off : Nat)
  /-- A read of an RC register returns and clears it. (R505) -/
  | rcRead (src : Src) (off : Nat)
  /-- A write to a register without its own row is applied or discarded under the access rules. (R502) -/
  | registerWrite (src : Src) (bar4 : Bool) (off : Nat) (width : Nat) (v : Nat)
  /-- A BAR2 read reaches device memory through the window. (R512) -/
  | bar2Read (off : Nat) (n : Nat)
  /-- A BAR2 write reaches device memory, following GLB_BAR2_TAG for scratchpad lines. (R512) -/
  | bar2Write (off : Nat) (data : List (Option Byte))
  /-- A write moves the BAR2 window after earlier requests. (R513) -/
  | glbBar2BaseWrite (src : Src) (v : Word)
  /-- With the input between 44 V and 46 V, the main rails are held for at most 1 ms and then turned off. (R475) -/
  | mainRailHoldExpiry
  /-- PCIe link training ends, configuration space is answered, host writes and MSI-X are delivered again, and event 0x0829 records the link coming up. (R487) -/
  | pcieLinkUp (width : Nat) (rate : Nat)
deriving DecidableEq, Repr

end Sys2Proof
end

