-- ==== Sys2Proof/Decode.lean ====
section
/-! DEFINITION. Words that spell a command. The operation table gives its rows no bits: the device takes register accesses,
bus frames, packets and events, and none of them is a word of a fixed encoding. -/
namespace Sys2Proof

/-- The command that a word of the operation table spells: none, since no row of the table has bits. -/
def decodeTableWord (_nbits _w : Nat) : Option Instr := none

end Sys2Proof
end

