-- ==== Sys2Proof/Config.lean ====
section
/-! DEFINITION. The values that the specification leaves open: constants without a body, so that nothing
can be proved of the number they give. Each is named in the assumption log. -/
namespace Sys2Proof.Config

/-- A 32-bit value that the specification does not state, drawn by count (log entry 3). -/
opaque freeWord : Nat → BitVec 32

/-- A natural number that the specification does not state, drawn by count (log entry 3). -/
opaque freeNat : Nat → Nat

/-- What the vector unit answers for the operations whose result the specification bounds and does not fix: by VOP
0x08 EXP, 0x09 LOG, 0x0B RSQRT, and the operand (log entry 21). -/
opaque vecApprox : Nat → BitVec 32 → BitVec 32

/-- The core-rail voltage in mV that is fused for a root point, other than point 48 (R446, log entry 45). -/
opaque coreRail : Nat → Nat

/-- The module serial number, which is fused (R508, log entry 46). -/
opaque serial : Nat

/-- The rate that event 0x0809 records, as one word, for the corrected symbols and all symbols of a lane in 60 s (R452,
log entry 47). -/
opaque laneRate : Nat → Nat → Nat

/-- The 64 KiB pages that a register image takes in the store, less one, and the bytes of an image, by their place, as
functions of the registers that it holds (R399, log entry 57). -/
opaque imageSize : List (Nat × Nat) → Nat
/-- See `imageSize`. -/
opaque imageByte : List (Nat × Nat) → Nat → BitVec 8

end Sys2Proof.Config
end

