-- ==== Sys2Proof/Machine/Fp.lean ====
section
/-! DEFINITION. Exact floating-point values and the one rounding that every conversion and every
accumulation performs (chapter 1). -/
namespace Sys2Proof.Machine

/-- An exact value: a signed dyadic number `(-1)^neg * m * 2^e`, an infinity, or a NaN. A zero keeps its
sign (R18). No payload is kept: the device never propagates one (R17). -/
inductive Fp where
  | fin (neg : Bool) (m : Nat) (e : Int)
  | inf (neg : Bool)
  | nan
deriving DecidableEq, Repr

/-- A floating-point layout of Table 1.2. `infs`: the all-ones exponent holds infinities and NaNs;
`topNan`: only the all-ones code is a NaN (E4M3); neither: every code is finite (E2M1). -/
structure FpFormat where
  expBits : Nat
  manBits : Nat
  bias    : Nat
  infs    : Bool
  topNan  : Bool
deriving DecidableEq, Repr

/-- FP32 of Table 1.2. -/
def fmtFp32 : FpFormat := ⟨8, 23, 127, true, false⟩
/-- BF16 of Table 1.2. -/
def fmtBf16 : FpFormat := ⟨8, 7, 127, true, false⟩
/-- FP8-E4M3 of Table 1.2: no infinity, one NaN magnitude. -/
def fmtE4m3 : FpFormat := ⟨4, 3, 7, false, true⟩
/-- FP8-E5M2 of Table 1.2. -/
def fmtE5m2 : FpFormat := ⟨5, 2, 15, true, false⟩
/-- The E2M1 element of Table 1.2 and Table 1.5. -/
def fmtE2m1 : FpFormat := ⟨2, 1, 1, false, false⟩

/-- The significand bits of a layout, the hidden bit included. -/
def FpFormat.prec (f : FpFormat) : Nat := f.manBits + 1

/-- The exponent of the least significand bit of a subnormal. -/
def FpFormat.minExp (f : FpFormat) : Int := 1 - (f.bias : Int) - (f.manBits : Int)

/-- The mark of the sign bit of a layout. -/
def FpFormat.signBit (f : FpFormat) : Nat := 2 ^ (f.expBits + f.manBits)

/-- The magnitude code of the largest finite value. -/
def FpFormat.maxCode (f : FpFormat) : Nat :=
  if f.infs then f.signBit - 2 ^ f.manBits - 1
  else if f.topNan then f.signBit - 2 else f.signBit - 1

/-- The magnitude code of the positive canonical NaN (R17). -/
def FpFormat.nanCode (f : FpFormat) : Nat :=
  if f.manBits = 2 then f.signBit - 1          -- E5M2: 0x7F
  else if f.infs then f.signBit - 2 ^ (f.manBits - 1)
  else f.signBit - 1

/-- The value of a code (R15). A NaN of any sign and payload is the one NaN (R17); the E2M1 code 1000
reads as +0 (R18). -/
def fpDecode (f : FpFormat) (code : Nat) : Fp :=
  let neg := decide (f.signBit ≤ code % (2 * f.signBit))
  let mag := code % f.signBit
  let ex := mag / 2 ^ f.manBits
  let man := mag % 2 ^ f.manBits
  if f.infs && ex == 2 ^ f.expBits - 1 then (if man = 0 then .inf neg else .nan)
  else if f.topNan && mag == f.signBit - 1 then .nan
  else if mag = 0 && f.expBits == 2 then .fin false 0 0
  else if ex = 0 then .fin neg man f.minExp
  else .fin neg (man + 2 ^ f.manBits) ((ex : Int) - 1 + f.minExp)

/-- The magnitude code of the representable value `n * 2^q`, with `n` at most `2^prec` and `q` the exponent
that the rounding chose. A significand that has carried into the next binade moves to it. -/
def magCode (f : FpFormat) (n : Nat) (q : Int) : Nat :=
  let k := (q - f.minExp).toNat
  if n < 2 ^ f.manBits then n
  else (k + 1) * 2 ^ f.manBits + (n - 2 ^ f.manBits)

/-- How a narrowing conversion rounds (R34): to nearest even, or stochastically by the 16-bit draw. -/
inductive Rounding where
  | rne
  | stochastic (r : Nat)
deriving DecidableEq, Repr

/-- One plus the floor of the base-2 logarithm of `num / den`, for positive arguments. -/
def ratTop (num den : Nat) : Int :=
  let k : Int := (Nat.log2 num : Int) - (Nat.log2 den : Int)
  let small := if k < 0 then decide (num * 2 ^ k.natAbs < den) else decide (num < den * 2 ^ k.natAbs)
  if small then k else k + 1

/-- Rounds the quotient `num / den * 2^e` to a whole number of units `2^q` (R35, R36). Under
stochastic rounding `T` is the scaled position between the neighbours, and the farther one is taken when
the draw lies below it. -/
def roundUnits (md : Rounding) (num den : Nat) (e q : Int) : Nat :=
  let n := num * 2 ^ (e - q).toNat
  let d := den * 2 ^ (q - e).toNat
  let lo := n / d
  let rem := n % d
  match md with
  | .rne => if 2 * rem > d || (2 * rem == d && lo % 2 == 1) then lo + 1 else lo
  | .stochastic r => if r < 65536 * rem / d then lo + 1 else lo

/-- The unit to which a magnitude is rounded: `prec` bits below its leading bit, never finer than `minExp`
(R16: subnormals are kept). -/
def roundExp (prec : Nat) (minExp : Int) (num den : Nat) (e : Int) : Int :=
  max minExp (ratTop num den + e - prec)

/-- Whether `a * 2^ea` exceeds `b * 2^eb`, exactly. -/
def dyLt (b : Nat) (eb : Int) (a : Nat) (ea : Int) : Bool :=
  let m := min ea eb
  decide (b * 2 ^ (eb - m).toNat < a * 2 ^ (ea - m).toNat)

/-- A magnitude that overflows its format, or the magnitude code of its rounded value. -/
inductive Mag where
  | code (c : Nat)
  | over
deriving DecidableEq, Repr

/-- Rounds a magnitude into a layout. It overflows when it rounds beyond the largest finite value (Table 1.8),
or, under stochastic rounding, when it lies beyond it at all (R40). -/
def roundMag (f : FpFormat) (md : Rounding) (num den : Nat) (e : Int) : Mag :=
  if num = 0 then .code 0 else
  let q := roundExp f.prec f.minExp num den e
  let n := roundUnits md num den e q
  let c := magCode f n q
  match md with
  | .rne => if c > f.maxCode then .over else .code c
  | .stochastic _ =>
    match fpDecode f f.maxCode with
    | .fin _ mm em => if dyLt (mm * den) em num e then .over else .code c
    | _ => .over

/-- FP32 rounding of arithmetic (R19, R45): to nearest even, an overflow gives an infinity, a NaN is canonical. -/
def fpToFp32 (x : Fp) : Word :=
  match x with
  | .nan => 0x7FC00000#32
  | .inf neg => if neg then 0xFF800000#32 else 0x7F800000#32
  | .fin neg m e =>
    let mag := match roundMag fmtFp32 .rne m 1 e with
      | .code c => c
      | .over => 0x7F800000
    BitVec.ofNat 32 (if neg then mag + 0x80000000 else mag)

/-- The value of an FP32 register. -/
def fp32 (w : Word) : Fp := fpDecode fmtFp32 w.toNat

/-- The opposite value. -/
def fpNeg : Fp → Fp
  | .fin n m e => .fin (!n) m e
  | .inf n => .inf (!n)
  | .nan => .nan

/-- The magnitude. -/
def fpAbs : Fp → Fp
  | .fin _ m e => .fin false m e
  | .inf _ => .inf false
  | .nan => .nan

/-- Whether a value is neither infinite nor NaN. -/
def fpFinite : Fp → Bool
  | .fin .. => true
  | _ => false

/-- The exact product; infinity times zero is NaN, and the sign of a zero is the product of the signs. -/
def fpMul : Fp → Fp → Fp
  | .fin s a e, .fin t b d => .fin (s != t) (a * b) (e + d)
  | .fin s a _, .inf t => if a = 0 then .nan else .inf (s != t)
  | .inf s, .fin t b _ => if b = 0 then .nan else .inf (s != t)
  | .inf s, .inf t => .inf (s != t)
  | .nan, _ => .nan
  | _, .nan => .nan

/-- A signed dyadic number from an integer; an exact zero is +0. -/
def fpOfInt (i : Int) (e : Int) : Fp := .fin (decide (i < 0)) i.natAbs e

/-- The integer that a finite value holds in units of `2^u`, for `u` at most its exponent. -/
def fpUnits (neg : Bool) (m : Nat) (e u : Int) : Int :=
  let k : Int := m * 2 ^ (e - u).toNat
  if neg then -k else k

/-- The exact sum. Two zeros of one sign keep it; any other exact zero is +0, as rounding to nearest gives it;
opposite infinities give NaN (R45). -/
def fpAdd : Fp → Fp → Fp
  | .fin s a e, .fin t b d =>
    if a = 0 && b = 0 then .fin (s && t) 0 0 else
    let u := min e d
    fpOfInt (fpUnits s a e u + fpUnits t b d u) u
  | .fin .., .inf t => .inf t
  | .inf s, .fin .. => .inf s
  | .inf s, .inf t => if s = t then .inf s else .nan
  | .nan, _ => .nan
  | _, .nan => .nan

/-- The exact comparison of two values that are not NaN. -/
def fpLt : Fp → Fp → Bool
  | .fin s a e, .fin t b d =>
    let u := min e d
    decide (fpUnits s a e u < fpUnits t b d u)
  | .fin .., .inf t => !t
  | .inf s, .fin .. => s
  | .inf s, .inf t => s && !t
  | _, _ => false

/-- Whether two values that are not NaN are equal as numbers. -/
def fpEq (a b : Fp) : Bool := a != .nan && b != .nan && !fpLt a b && !fpLt b a

/-- Whether a value is a NaN. -/
def fpIsNan (a : Fp) : Bool := a == .nan

/-- The quotient rounded once to FP32 (IEEE 754 division). -/
def fp32Div (a b : Word) : Word :=
  match fp32 a, fp32 b with
  | .nan, _ => 0x7FC00000#32
  | _, .nan => 0x7FC00000#32
  | .inf _, .inf _ => 0x7FC00000#32
  | .inf s, .fin t _ _ => fpToFp32 (.inf (s != t))
  | .fin s _ _, .inf t => if s != t then 0x80000000#32 else 0#32
  | .fin s m e, .fin t n d =>
    if n = 0 then (if m = 0 then 0x7FC00000#32 else fpToFp32 (.inf (s != t))) else
    let mag := match roundMag fmtFp32 .rne m n (e - d) with
      | .code c => c
      | .over => 0x7F800000
    BitVec.ofNat 32 (if s != t then mag + 0x80000000 else mag)

/-- The floor of the square root by Newton's descent, with as many rounds as given. -/
def isqrtGo (n : Nat) : Nat → Nat → Nat
  | 0, x => x
  | k + 1, x => if x * x ≤ n then x else isqrtGo n k ((x + n / x) / 2)

/-- The floor of the square root. -/
def isqrt (n : Nat) : Nat := isqrtGo n (Nat.log2 n + 2) (2 ^ (Nat.log2 n / 2 + 1))

/-- The square root of `m * 2^e`, exact but for a sticky bit far below the last place that a rounding reads. -/
def sqrtDyadic (m : Nat) (e : Int) : Nat × Int :=
  let sh : Nat := 64 + (if (e % 2) = 0 then 0 else 1)
  let n := m * 2 ^ (sh + 64)
  let e' : Int := e - sh - 64
  let r := isqrt n
  ((if r * r = n then 2 * r else 2 * r + 1), e' / 2 - 1)

/-- The square root rounded once to FP32. -/
def fp32Sqrt (a : Word) : Word :=
  match fp32 a with
  | .nan => 0x7FC00000#32
  | .inf s => if s then 0x7FC00000#32 else 0x7F800000#32
  | .fin s m e =>
    if m = 0 then a else if s then 0x7FC00000#32 else
    let r := sqrtDyadic m e
    fpToFp32 (.fin false r.1 r.2)

/-- FP32 addition (R19). -/
def fp32Add (a b : Word) : Word := fpToFp32 (fpAdd (fp32 a) (fp32 b))
/-- FP32 subtraction. -/
def fp32Sub (a b : Word) : Word := fpToFp32 (fpAdd (fp32 a) (fpNeg (fp32 b)))
/-- FP32 multiplication. -/
def fp32Mul (a b : Word) : Word := fpToFp32 (fpMul (fp32 a) (fp32 b))
/-- FP32 fused multiply-add: one rounding (R19). -/
def fp32Fma (a b c : Word) : Word := fpToFp32 (fpAdd (fpMul (fp32 a) (fp32 b)) (fp32 c))
/-- Whether an FP32 register is neither infinite nor NaN. -/
def fp32Finite (a : Word) : Bool := fpFinite (fp32 a)
/-- The FP32 comparison, false where either is NaN. -/
def fp32Lt (a b : Word) : Bool := fpLt (fp32 a) (fp32 b)
/-- FP32 at most, false where either is NaN. -/
def fp32Le (a b : Word) : Bool := fp32Lt a b || fpEq (fp32 a) (fp32 b)

/-- The smallest number from `k` on, within `fuel` trials, at which `p` holds; `k + fuel` where none does. -/
def leastFrom (p : Nat → Bool) : Nat → Nat → Nat
  | k, 0 => k
  | k, n + 1 => if p k then k else leastFrom p (k + 1) n

end Sys2Proof.Machine
end

