-- ==== Sys2Proof/Machine/Regs.lean ====
section
/-! DEFINITION. The register map of BAR0: every register's offset by its name, and the table of access codes, reset
values and writable bits (chapter 14 and the field tables it names). -/
namespace Sys2Proof.Machine
namespace Reg

/-- R508 (RO). -/
def GLB_IDENT : Nat := 0x0
/-- R508 (RO). -/
def GLB_STATUS : Nat := 0x4
/-- R508 (RO). -/
def GLB_SERIAL_LO : Nat := 0x8
/-- R508 (RO). -/
def GLB_SERIAL_HI : Nat := 0xC
/-- R508 (RO). -/
def GLB_FAM_CAST : Nat := 0x10
/-- R508 (RO). -/
def GLB_FAM_MEM : Nat := 0x14
/-- R508 (RO). -/
def GLB_FAM_SRAM : Nat := 0x18
/-- R508 (RO). -/
def GLB_FAM_LINK : Nat := 0x1C
/-- R508 (RO). -/
def GLB_FAM_SCHED : Nat := 0x20
/-- R508 (RO). -/
def GLB_AVAIL : Nat := 0x24
/-- R508 (RW). -/
def GLB_BAR2_BASE : Nat := 0x30
/-- R508 (RW). -/
def GLB_BAR2_TAG : Nat := 0x34
/-- R510 (RO). -/
def GLB_SPARE_GATE_STATUS (i j : Nat) : Nat := 0x8000 + i * 0x800 + j * 0x400
/-- R510 (RO). -/
def GLB_SPARE_GATE_CMDAGE (i j : Nat) : Nat := 0x8004 + i * 0x800 + j * 0x400
/-- R510 (RO). -/
def GLB_SPARE_BUSY_CNT_LO (i j : Nat) : Nat := 0x8100 + i * 0x800 + j * 0x400
/-- R510 (RO). -/
def GLB_SPARE_BUSY_CNT_HI (i j : Nat) : Nat := 0x8104 + i * 0x800 + j * 0x400
/-- R510 (RO). -/
def GLB_SPARE_IDLE_COLL_CNT_LO (i j : Nat) : Nat := 0x8108 + i * 0x800 + j * 0x400
/-- R510 (RO). -/
def GLB_SPARE_IDLE_COLL_CNT_HI (i j : Nat) : Nat := 0x810C + i * 0x800 + j * 0x400
/-- R510 (RO). -/
def GLB_SPARE_IDLE_MEM_CNT_LO (i j : Nat) : Nat := 0x8110 + i * 0x800 + j * 0x400
/-- R510 (RO). -/
def GLB_SPARE_IDLE_MEM_CNT_HI (i j : Nat) : Nat := 0x8114 + i * 0x800 + j * 0x400
/-- R510 (RO). -/
def GLB_SPARE_IDLE_SEM_CNT_LO (i j : Nat) : Nat := 0x8118 + i * 0x800 + j * 0x400
/-- R510 (RO). -/
def GLB_SPARE_IDLE_SEM_CNT_HI (i j : Nat) : Nat := 0x811C + i * 0x800 + j * 0x400
/-- R510 (RO). -/
def GLB_SPARE_IDLE_SLOT_CNT_LO (i j : Nat) : Nat := 0x8120 + i * 0x800 + j * 0x400
/-- R510 (RO). -/
def GLB_SPARE_IDLE_SLOT_CNT_HI (i j : Nat) : Nat := 0x8124 + i * 0x800 + j * 0x400
/-- R510 (RO). -/
def GLB_SPARE_IDLE_FETTLE_CNT_LO (i j : Nat) : Nat := 0x8128 + i * 0x800 + j * 0x400
/-- R510 (RO). -/
def GLB_SPARE_IDLE_FETTLE_CNT_HI (i j : Nat) : Nat := 0x812C + i * 0x800 + j * 0x400
/-- R510 (RO). -/
def GLB_SPARE_IDLE_LIMIT_CNT_LO (i j : Nat) : Nat := 0x8130 + i * 0x800 + j * 0x400
/-- R510 (RO). -/
def GLB_SPARE_IDLE_LIMIT_CNT_HI (i j : Nat) : Nat := 0x8134 + i * 0x800 + j * 0x400
/-- R510 (RO). -/
def GLB_SPARE_IDLE_HOST_CNT_LO (i j : Nat) : Nat := 0x8138 + i * 0x800 + j * 0x400
/-- R510 (RO). -/
def GLB_SPARE_IDLE_HOST_CNT_HI (i j : Nat) : Nat := 0x813C + i * 0x800 + j * 0x400
/-- R510 (RO). -/
def GLB_SPARE_RECOMP_CNT_LO (i j : Nat) : Nat := 0x8140 + i * 0x800 + j * 0x400
/-- R510 (RO). -/
def GLB_SPARE_RECOMP_CNT_HI (i j : Nat) : Nat := 0x8144 + i * 0x800 + j * 0x400
/-- R510 (RO). -/
def GLB_SPARE_XCTX_RD_CNT_LO (i j : Nat) : Nat := 0x8148 + i * 0x800 + j * 0x400
/-- R510 (RO). -/
def GLB_SPARE_XCTX_RD_CNT_HI (i j : Nat) : Nat := 0x814C + i * 0x800 + j * 0x400
/-- R510 (RO). -/
def GLB_SPARE_SEMSAT_CNT_LO (i j : Nat) : Nat := 0x8150 + i * 0x800 + j * 0x400
/-- R510 (RO). -/
def GLB_SPARE_SEMSAT_CNT_HI (i j : Nat) : Nat := 0x8154 + i * 0x800 + j * 0x400
/-- R510 (RO). -/
def GLB_SPARE_ARR_STATUS (i j k : Nat) : Nat := 0x8200 + i * 0x800 + j * 0x400 + k * 0x40
/-- R510 (RO). -/
def GLB_SPARE_ARR_STALLSRC (i j k : Nat) : Nat := 0x8204 + i * 0x800 + j * 0x400 + k * 0x40
/-- R510 (RO). -/
def GLB_SPARE_ARR_BUSY_CNT_LO (i j k : Nat) : Nat := 0x8208 + i * 0x800 + j * 0x400 + k * 0x40
/-- R510 (RO). -/
def GLB_SPARE_ARR_BUSY_CNT_HI (i j k : Nat) : Nat := 0x820C + i * 0x800 + j * 0x400 + k * 0x40
/-- R510 (RO). -/
def GLB_SPARE_ARR_WAIT_CNT_LO (i j k : Nat) : Nat := 0x8210 + i * 0x800 + j * 0x400 + k * 0x40
/-- R510 (RO). -/
def GLB_SPARE_ARR_WAIT_CNT_HI (i j k : Nat) : Nat := 0x8214 + i * 0x800 + j * 0x400 + k * 0x40
/-- R510 (RO). -/
def GLB_SPARE_ARR_STALL_CNT_LO (i j k : Nat) : Nat := 0x8218 + i * 0x800 + j * 0x400 + k * 0x40
/-- R510 (RO). -/
def GLB_SPARE_ARR_STALL_CNT_HI (i j k : Nat) : Nat := 0x821C + i * 0x800 + j * 0x400 + k * 0x40
/-- R510 (RO). -/
def GLB_SPARE_ARR_TILE_CNT_LO (i j k : Nat) : Nat := 0x8220 + i * 0x800 + j * 0x400 + k * 0x40
/-- R510 (RO). -/
def GLB_SPARE_ARR_TILE_CNT_HI (i j k : Nat) : Nat := 0x8224 + i * 0x800 + j * 0x400 + k * 0x40
/-- R510 (RO). -/
def GLB_SPARE_ARR_RISERMM_CNT_LO (i j k : Nat) : Nat := 0x8228 + i * 0x800 + j * 0x400 + k * 0x40
/-- R510 (RO). -/
def GLB_SPARE_ARR_RISERMM_CNT_HI (i j k : Nat) : Nat := 0x822C + i * 0x800 + j * 0x400 + k * 0x40
/-- R469 (RO). -/
def CUP_STATUS : Nat := 0x10000
/-- R469 (RO). -/
def CUP_IMG_ID : Nat := 0x10004
/-- R469 (RO). -/
def CUP_IMG_LEN : Nat := 0x10008
/-- R431 (RO). -/
def CUP_KEY_STAT : Nat := 0x1000C
/-- R469 (RO). -/
def CUP_IMG_DIGEST (i : Nat) : Nat := 0x10010 + i * 0x4
/-- R438 (RO). -/
def CUP_IMG_PROG : Nat := 0x10040
/-- R447 (RW). -/
def CUP_VF_FLOOR : Nat := 0x10100
/-- R447 (RW). -/
def CUP_VF_CEIL : Nat := 0x10104
/-- R446 (RO). -/
def CUP_VF_CUR : Nat := 0x10108
/-- R447 (RW). -/
def CUP_POWER_LIMIT : Nat := 0x1010C
/-- R447 (RW). -/
def CUP_T_TARGET : Nat := 0x10110
/-- R449 (RO). -/
def CUP_LOOP_STATUS : Nat := 0x10114
/-- R450 (RWL). -/
def CUP_DET_POINT : Nat := 0x10118
/-- R452 (RW). -/
def CUP_LANE_CTRL : Nat := 0x10140
/-- R469 (RO). -/
def CUP_VF_CHG_CNT_LO : Nat := 0x10200
/-- R469 (RO). -/
def CUP_VF_CHG_CNT_HI : Nat := 0x10204
/-- R469 (RO). -/
def CUP_OVERRIDE_CNT_LO : Nat := 0x10208
/-- R469 (RO). -/
def CUP_OVERRIDE_CNT_HI : Nat := 0x1020C
/-- R469 (RO). -/
def CUP_HOLD_CNT_LO : Nat := 0x10210
/-- R469 (RO). -/
def CUP_HOLD_CNT_HI : Nat := 0x10214
/-- R469 (RO). -/
def CUP_LANE_SPARED_CNT_LO : Nat := 0x10218
/-- R469 (RO). -/
def CUP_LANE_SPARED_CNT_HI : Nat := 0x1021C
/-- R469 (RO). -/
def CUP_MISMATCH_CNT_LO : Nat := 0x10220
/-- R469 (RO). -/
def CUP_MISMATCH_CNT_HI : Nat := 0x10224
/-- R453 (RW). -/
def CUP_RISK_ACC (i : Nat) : Nat := 0x12000 + i * 0x8
/-- R453 (RO). -/
def CUP_RISK_SCORE (i : Nat) : Nat := 0x12004 + i * 0x8
/-- R457 (RO). -/
def CUP_UNIT_LO (i : Nat) : Nat := 0x14000 + i * 0x8
/-- R457 (RO). -/
def CUP_UNIT_HI (i : Nat) : Nat := 0x14004 + i * 0x8
/-- R395 (RO). -/
def CUP_INT_STATUS : Nat := 0x18000
/-- R380 (RW). -/
def CUP_INT_CTRL : Nat := 0x18004
/-- R367 (W1C). -/
def CUP_INT_TAINT : Nat := 0x18008
/-- R382 (RW). -/
def CUP_ASSAY_CTRL : Nat := 0x18010
/-- R382 (RW). -/
def CUP_ASSAY_NEXT : Nat := 0x18014
/-- R382 (RO). -/
def CUP_ASSAY_LAST_LO : Nat := 0x18018
/-- R382 (RO). -/
def CUP_ASSAY_LAST_HI : Nat := 0x1801C
/-- R382 (RO). -/
def CUP_ASSAY_STEP : Nat := 0x18020
/-- R382 (RO). -/
def CUP_ASSAY_STAT : Nat := 0x18024
/-- R383 (RO). -/
def CUP_ASSAY_MM_CNT_LO : Nat := 0x18028
/-- R383 (RO). -/
def CUP_ASSAY_MM_CNT_HI : Nat := 0x1802C
/-- R372 (RW). -/
def CUP_FTL_PERIOD : Nat := 0x18030
/-- R372 (RW). -/
def CUP_FTL_DEADLINE : Nat := 0x18034
/-- R373 (RW). -/
def CUP_FTL_RETRY : Nat := 0x18038
/-- R395 (RO). -/
def CUP_FTL_RUN_CNT_LO : Nat := 0x18040
/-- R395 (RO). -/
def CUP_FTL_RUN_CNT_HI : Nat := 0x18044
/-- R395 (RO). -/
def CUP_FTL_FAIL_CNT_LO : Nat := 0x18048
/-- R395 (RO). -/
def CUP_FTL_FAIL_CNT_HI : Nat := 0x1804C
/-- R395 (RO). -/
def CUP_FTL_DEFER_CNT_LO : Nat := 0x18050
/-- R395 (RO). -/
def CUP_FTL_DEFER_CNT_HI : Nat := 0x18054
/-- R395 (RO). -/
def CUP_FTL_INPLACE_CNT_LO : Nat := 0x18058
/-- R395 (RO). -/
def CUP_FTL_INPLACE_CNT_HI : Nat := 0x1805C
/-- R387 (RWL). -/
def CUP_COPE_CTRL : Nat := 0x18060
/-- R387 (RO). -/
def CUP_COPE_STATUS : Nat := 0x18064
/-- R395 (RO). -/
def CUP_COPE_TILE_CNT_LO : Nat := 0x18068
/-- R395 (RO). -/
def CUP_COPE_TILE_CNT_HI : Nat := 0x1806C
/-- R389 (RO). -/
def CUP_COPE_KEY_LO : Nat := 0x18070
/-- R389 (RO). -/
def CUP_COPE_KEY_HI : Nat := 0x18074
/-- R389 (RO). -/
def CUP_COPE_OWN_LO : Nat := 0x18078
/-- R389 (RO). -/
def CUP_COPE_OWN_HI : Nat := 0x1807C
/-- R389 (RO). -/
def CUP_COPE_PART_LO : Nat := 0x18080
/-- R389 (RO). -/
def CUP_COPE_PART_HI : Nat := 0x18084
/-- R390 (RO). -/
def CUP_CHOICE_CNT_LO : Nat := 0x18100
/-- R390 (RO). -/
def CUP_CHOICE_CNT_HI : Nat := 0x18104
/-- R390 (RO). -/
def CUP_CHOICE_KIND_CNT (i : Nat) : Nat := 0x1810C + i * 0x4
/-- R390 (RO). -/
def CUP_CHOICE_FIRST : Nat := 0x18124
/-- R390 (RO). -/
def CUP_CHOICE_FIRST_STEP : Nat := 0x18128
/-- R364 (RO). -/
def CUP_PAR_CNT_LO (i : Nat) : Nat := 0x18208 + i * 0x8
/-- R364 (RO). -/
def CUP_PAR_CNT_HI (i : Nat) : Nat := 0x1820C + i * 0x8
/-- R395 (RO). -/
def CUP_FTL_STATE (i : Nat) : Nat := 0x19000 + i * 0x10
/-- R375 (RO). -/
def CUP_FTL_LAST_LO (i : Nat) : Nat := 0x19004 + i * 0x10
/-- R375 (RO). -/
def CUP_FTL_LAST_HI (i : Nat) : Nat := 0x19008 + i * 0x10
/-- R395 (RO). -/
def CUP_FTL_FAILS (i : Nat) : Nat := 0x1900C + i * 0x10
/-- R398 (RW). -/
def CUP_ING_CTRL : Nat := 0x1B000
/-- R424 (RO). -/
def CUP_ING_STATUS : Nat := 0x1B004
/-- R397 (RW). -/
def CUP_ING_CTXMASK : Nat := 0x1B008
/-- R410 (RW). -/
def CUP_ING_SHARE : Nat := 0x1B00C
/-- R408 (RW). -/
def CUP_ING_BUDDY : Nat := 0x1B010
/-- R408 (RW). -/
def CUP_ING_WARD : Nat := 0x1B014
/-- R409 (RW). -/
def CUP_ING_STRIPE : Nat := 0x1B018
/-- R398 (RW). -/
def CUP_ING_STORE_BASE_LO : Nat := 0x1B020
/-- R398 (RW). -/
def CUP_ING_STORE_BASE_HI : Nat := 0x1B024
/-- R398 (RW). -/
def CUP_ING_STORE_SLOTS : Nat := 0x1B028
/-- R398 (RW). -/
def CUP_ING_MAP_BASE_LO : Nat := 0x1B030
/-- R398 (RW). -/
def CUP_ING_MAP_BASE_HI : Nat := 0x1B034
/-- R411 (RW). -/
def CUP_ING_BSTORE_BASE_LO : Nat := 0x1B038
/-- R411 (RW). -/
def CUP_ING_BSTORE_BASE_HI : Nat := 0x1B03C
/-- R411 (RW). -/
def CUP_ING_BSTORE_SLOTS : Nat := 0x1B040
/-- R402 (RO). -/
def CUP_ING_FREE : Nat := 0x1B044
/-- R400 (RO). -/
def CUP_ING_EPOCH : Nat := 0x1B048
/-- R405 (RO). -/
def CUP_ING_CUT_STEP : Nat := 0x1B04C
/-- R411 (RO). -/
def CUP_ING_SEALED : Nat := 0x1B050
/-- R411 (RO). -/
def CUP_ING_WARD_SEALED : Nat := 0x1B054
/-- R413 (RW). -/
def CUP_ING_TARGET : Nat := 0x1B058
/-- R414 (RW). -/
def CUP_ING_LOADSRC : Nat := 0x1B05C
/-- R405 (RO). -/
def CUP_ING_CUTTIME_LO : Nat := 0x1B060
/-- R405 (RO). -/
def CUP_ING_CUTTIME_HI : Nat := 0x1B064
/-- R424 (RO). -/
def CUP_ING_CUT_CNT_LO : Nat := 0x1B068
/-- R424 (RO). -/
def CUP_ING_CUT_CNT_HI : Nat := 0x1B06C
/-- R424 (RO). -/
def CUP_ING_COW_CNT_LO : Nat := 0x1B070
/-- R424 (RO). -/
def CUP_ING_COW_CNT_HI : Nat := 0x1B074
/-- R424 (RO). -/
def CUP_ING_DRAIN_CNT_LO : Nat := 0x1B078
/-- R424 (RO). -/
def CUP_ING_DRAIN_CNT_HI : Nat := 0x1B07C
/-- R424 (RO). -/
def CUP_ING_HOLD_CNT_LO : Nat := 0x1B080
/-- R424 (RO). -/
def CUP_ING_HOLD_CNT_HI : Nat := 0x1B084
/-- R424 (RO). -/
def CUP_ING_STOREWAIT_CNT_LO : Nat := 0x1B088
/-- R424 (RO). -/
def CUP_ING_STOREWAIT_CNT_HI : Nat := 0x1B08C
/-- R397 (RW). -/
def CUP_ING_RNG_BASE (i : Nat) : Nat := 0x1B100 + i * 0x10
/-- R397 (RW). -/
def CUP_ING_RNG_LIMIT (i : Nat) : Nat := 0x1B104 + i * 0x10
/-- R397 (RW). -/
def CUP_ING_RNG_KIND (i : Nat) : Nat := 0x1B108 + i * 0x10
/-- R417 (RW). -/
def CUP_QUENCH_ARM : Nat := 0x1C000
/-- R417 (RW). -/
def CUP_QUENCH_GO : Nat := 0x1C004
/-- R418 (RO). -/
def CUP_QUENCH_STAT : Nat := 0x1C008
/-- R424 (RO). -/
def CUP_QUENCH_TIME_LO : Nat := 0x1C010
/-- R424 (RO). -/
def CUP_QUENCH_TIME_HI : Nat := 0x1C014
/-- R421 (RO). -/
def CUP_SHK_GEN : Nat := 0x1C018
/-- R418 (RO). -/
def CUP_QUENCH_DROP_CNT_LO : Nat := 0x1C020
/-- R418 (RO). -/
def CUP_QUENCH_DROP_CNT_HI : Nat := 0x1C024
/-- R424 (RO). -/
def CUP_WDT_PROG_CNT_LO : Nat := 0x1C028
/-- R424 (RO). -/
def CUP_WDT_PROG_CNT_HI : Nat := 0x1C02C
/-- R426 (RO). -/
def CUP_WDT_HEART : Nat := 0x1C030
/-- R495 (RO). -/
def CUP_MOD_STATUS : Nat := 0x1D000
/-- R495 (RO). -/
def CUP_MOD_VIN : Nat := 0x1D004
/-- R488 (RO). -/
def CUP_MOD_STRAPS : Nat := 0x1D008
/-- R488 (RO). -/
def CUP_MOD_STRAPOPEN : Nat := 0x1D00C
/-- R490 (RO). -/
def CUP_MOD_PINSTAT : Nat := 0x1D010
/-- R493 (RW). -/
def CUP_MOD_CTRL : Nat := 0x1D014
/-- R476 (RO). -/
def CUP_MOD_COOL : Nat := 0x1D018
/-- R495 (RO). -/
def CUP_MOD_LAST_OFF : Nat := 0x1D01C
/-- R495 (RO). -/
def CUP_MOD_MONQ_CNT_LO : Nat := 0x1D020
/-- R495 (RO). -/
def CUP_MOD_MONQ_CNT_HI : Nat := 0x1D024
/-- R495 (RO). -/
def CUP_MOD_HOLDOVER_CNT_LO : Nat := 0x1D028
/-- R495 (RO). -/
def CUP_MOD_HOLDOVER_CNT_HI : Nat := 0x1D02C
/-- R495 (RO). -/
def CUP_MOD_SAG_CNT_LO : Nat := 0x1D030
/-- R495 (RO). -/
def CUP_MOD_SAG_CNT_HI : Nat := 0x1D034
/-- R495 (RO). -/
def CUP_MOD_HOSTDROP_CNT_LO : Nat := 0x1D038
/-- R495 (RO). -/
def CUP_MOD_HOSTDROP_CNT_HI : Nat := 0x1D03C
/-- R470 (RO). -/
def HLG_STATUS : Nat := 0x20000
/-- R470 (RW). -/
def HLG_CTRL : Nat := 0x20004
/-- R470 (RO). -/
def HLG_FIRST_SEQ : Nat := 0x20008
/-- R470 (RO). -/
def HLG_NEXT_SEQ : Nat := 0x2000C
/-- R468 (RO). -/
def HLG_DROP_CNT_LO : Nat := 0x20010
/-- R468 (RO). -/
def HLG_DROP_CNT_HI : Nat := 0x20014
/-- R467 (RO). -/
def HLG_SUPP_TOTAL_CNT_LO : Nat := 0x20018
/-- R467 (RO). -/
def HLG_SUPP_TOTAL_CNT_HI : Nat := 0x2001C
/-- R470 (RW). -/
def HLG_VEC : Nat := 0x20020
/-- R467 (RO). -/
def HLG_SUPP (i j : Nat) : Nat := 0x24000 + i * 0x400 + j * 0x4
/-- R465 (RO). -/
def HLOG_ENTRY (i j : Nat) : Nat := 0x3000000 + i * 0x40 + j * 0x4
/-- R254 (RO). -/
def TND_STATUS : Nat := 0x30000
/-- R242 (RWL). -/
def TND_CFG : Nat := 0x30004
/-- R241 (RW). -/
def TND_SCHED_CTRL : Nat := 0x30008
/-- R238 (RO). -/
def TND_CYC_ORIGIN_LO : Nat := 0x30010
/-- R238 (RO). -/
def TND_CYC_ORIGIN_HI : Nat := 0x30014
/-- R238 (RO). -/
def TND_CYC_LEN : Nat := 0x30018
/-- R231 (RW). -/
def TND_CTX_CTRL (i : Nat) : Nat := 0x30100 + i * 0x80
/-- R232 (RO). -/
def TND_CTX_STATUS (i : Nat) : Nat := 0x30104 + i * 0x80
/-- R235 (RW). -/
def TND_CTX_CSET (i j : Nat) : Nat := 0x30110 + i * 0x80 + j * 0x4
/-- R249 (RW). -/
def TND_CTX_BT_A_LO (i : Nat) : Nat := 0x30130 + i * 0x80
/-- R249 (RW). -/
def TND_CTX_BT_A_HI (i : Nat) : Nat := 0x30134 + i * 0x80
/-- R249 (RW). -/
def TND_CTX_BT_B_LO (i : Nat) : Nat := 0x30138 + i * 0x80
/-- R249 (RW). -/
def TND_CTX_BT_B_HI (i : Nat) : Nat := 0x3013C + i * 0x80
/-- R249 (RW). -/
def TND_CTX_BT_ANCHOR_LO (i : Nat) : Nat := 0x30140 + i * 0x80
/-- R249 (RW). -/
def TND_CTX_BT_ANCHOR_HI (i : Nat) : Nat := 0x30144 + i * 0x80
/-- R250 (RW). -/
def TND_CTX_BT_FLIP (i : Nat) : Nat := 0x30148 + i * 0x80
/-- R250 (RO). -/
def TND_CTX_BT_STAT (i : Nat) : Nat := 0x3014C + i * 0x80
/-- R250 (RO). -/
def TND_CTX_BT_STEP (i : Nat) : Nat := 0x30150 + i * 0x80
/-- R249 (RW). -/
def TND_CTX_BT_MAXSEQ (i : Nat) : Nat := 0x30154 + i * 0x80
/-- R254 (RO). -/
def TND_CTX_RUN_CNT_LO (i : Nat) : Nat := 0x30158 + i * 0x80
/-- R254 (RO). -/
def TND_CTX_RUN_CNT_HI (i : Nat) : Nat := 0x3015C + i * 0x80
/-- R243 (RO). -/
def TND_CTX_SW_CNT_LO (i : Nat) : Nat := 0x30160 + i * 0x80
/-- R243 (RO). -/
def TND_CTX_SW_CNT_HI (i : Nat) : Nat := 0x30164 + i * 0x80
/-- R249 (RO). -/
def TND_CTX_BT_GEN (i : Nat) : Nat := 0x30168 + i * 0x80
/-- R37 (RW). -/
def TND_CTX_SEED_LO (i : Nat) : Nat := 0x30170 + i * 0x80
/-- R37 (RW). -/
def TND_CTX_SEED_HI (i : Nat) : Nat := 0x30174 + i * 0x80
/-- R237 (RW). -/
def TND_SLOT_LO (i j : Nat) : Nat := 0x31000 + i * 0x800 + j * 0x8
/-- R237 (RW). -/
def TND_SLOT_HI (i j : Nat) : Nat := 0x31004 + i * 0x800 + j * 0x8
/-- R245 (RW). -/
def TND_SSEM_VAL (i : Nat) : Nat := 0x32000 + i * 0x10
/-- R246 (RW). -/
def TND_SSEM_CTRL (i : Nat) : Nat := 0x32004 + i * 0x10
/-- R245 (RO). -/
def TND_SSEM_WAIT (i : Nat) : Nat := 0x32008 + i * 0x10
/-- R254 (RO). -/
def TND_SWITCH_CNT_LO : Nat := 0x36000
/-- R254 (RO). -/
def TND_SWITCH_CNT_HI : Nat := 0x36004
/-- R254 (RO). -/
def TND_LATE_CNT_LO : Nat := 0x36008
/-- R254 (RO). -/
def TND_LATE_CNT_HI : Nat := 0x3600C
/-- R254 (RO). -/
def TND_INHERIT_CNT_LO : Nat := 0x36010
/-- R254 (RO). -/
def TND_INHERIT_CNT_HI : Nat := 0x36014
/-- R254 (RO). -/
def TND_MOVE_CNT_LO : Nat := 0x36018
/-- R254 (RO). -/
def TND_MOVE_CNT_HI : Nat := 0x3601C
/-- R254 (RO). -/
def TND_BTAPPLY_CNT_LO : Nat := 0x36020
/-- R254 (RO). -/
def TND_BTAPPLY_CNT_HI : Nat := 0x36024
/-- R254 (RO). -/
def TND_BTREF_CNT_LO : Nat := 0x36028
/-- R254 (RO). -/
def TND_BTREF_CNT_HI : Nat := 0x3602C
/-- R254 (RO). -/
def TND_SSEMSAT_CNT_LO : Nat := 0x36030
/-- R254 (RO). -/
def TND_SSEMSAT_CNT_HI : Nat := 0x36034
/-- R254 (RO). -/
def TND_CYCLE_CNT_LO : Nat := 0x36038
/-- R254 (RO). -/
def TND_CYCLE_CNT_HI : Nat := 0x3603C
/-- R244 (RO). -/
def TND_PHYS (i : Nat) : Nat := 0x37000 + i * 0x4
/-- R254 (RO). -/
def TND_SPARES (i : Nat) : Nat := 0x37400 + i * 0x4
/-- R244 (RW). -/
def TND_MOVE_REQ : Nat := 0x37420
/-- R334 (RW). -/
def ALY_GRP_CTRL (i : Nat) : Nat := 0x40000 + i * 0x100
/-- R334 (RO). -/
def ALY_GRP_STATUS (i : Nat) : Nat := 0x40004 + i * 0x100
/-- R299 (RW). -/
def ALY_GRP_DIMS (i : Nat) : Nat := 0x40008 + i * 0x100
/-- R299 (RW). -/
def ALY_GRP_ROOT (i : Nat) : Nat := 0x4000C + i * 0x100
/-- R307 (RW). -/
def ALY_GRP_PARENT (i : Nat) : Nat := 0x40010 + i * 0x100
/-- R313 (RW). -/
def ALY_GRP_POUR (i : Nat) : Nat := 0x40014 + i * 0x100
/-- R315 (RW). -/
def ALY_GRP_STAGE_LO (i : Nat) : Nat := 0x40018 + i * 0x100
/-- R315 (RW). -/
def ALY_GRP_STAGE_HI (i : Nat) : Nat := 0x4001C + i * 0x100
/-- R328 (RW). -/
def ALY_GRP_SLOW_LO (i : Nat) : Nat := 0x40020 + i * 0x100
/-- R328 (RW). -/
def ALY_GRP_SLOW_HI (i : Nat) : Nat := 0x40024 + i * 0x100
/-- R334 (RO). -/
def ALY_GRP_DONE_CNT_LO (i : Nat) : Nat := 0x40040 + i * 0x100
/-- R334 (RO). -/
def ALY_GRP_DONE_CNT_HI (i : Nat) : Nat := 0x40044 + i * 0x100
/-- R334 (RO). -/
def ALY_GRP_WAIT_CNT_LO (i : Nat) : Nat := 0x40048 + i * 0x100
/-- R334 (RO). -/
def ALY_GRP_WAIT_CNT_HI (i : Nat) : Nat := 0x4004C + i * 0x100
/-- R334 (RO). -/
def ALY_GRP_RESIDUE_CNT_LO (i : Nat) : Nat := 0x40050 + i * 0x100
/-- R334 (RO). -/
def ALY_GRP_RESIDUE_CNT_HI (i : Nat) : Nat := 0x40054 + i * 0x100
/-- R334 (RO). -/
def ALY_GRP_CANCEL_CNT_LO (i : Nat) : Nat := 0x40058 + i * 0x100
/-- R334 (RO). -/
def ALY_GRP_CANCEL_CNT_HI (i : Nat) : Nat := 0x4005C + i * 0x100
/-- R334 (RO). -/
def ALY_GRP_LATE_CNT_LO (i : Nat) : Nat := 0x40060 + i * 0x100
/-- R334 (RO). -/
def ALY_GRP_LATE_CNT_HI (i : Nat) : Nat := 0x40064 + i * 0x100
/-- R334 (RO). -/
def ALY_GRP_NARROW_CNT_LO (i : Nat) : Nat := 0x40068 + i * 0x100
/-- R334 (RO). -/
def ALY_GRP_NARROW_CNT_HI (i : Nat) : Nat := 0x4006C + i * 0x100
/-- R334 (RO). -/
def ALY_GRP_RESIDRST_CNT_LO (i : Nat) : Nat := 0x40070 + i * 0x100
/-- R334 (RO). -/
def ALY_GRP_RESIDRST_CNT_HI (i : Nat) : Nat := 0x40074 + i * 0x100
/-- R327 (RO). -/
def ALY_GRP_LASTADDR (i : Nat) : Nat := 0x40078 + i * 0x100
/-- R327 (RO). -/
def ALY_GRP_DIMLAST_CNT (i j : Nat) : Nat := 0x40080 + i * 0x100 + j * 0x4
/-- R190 (RO). -/
def LDL_STATUS : Nat := 0x50000
/-- R150 (RWL). -/
def LDL_CFG : Nat := 0x50004
/-- R190 (RO). -/
def LDL_MOVED_CNT_LO : Nat := 0x50100
/-- R190 (RO). -/
def LDL_MOVED_CNT_HI : Nat := 0x50104
/-- R190 (RO). -/
def LDL_RESV_WAIT_CNT_LO : Nat := 0x50108
/-- R190 (RO). -/
def LDL_RESV_WAIT_CNT_HI : Nat := 0x5010C
/-- R190 (RO). -/
def LDL_RA_ISSUED_CNT_LO : Nat := 0x50110
/-- R190 (RO). -/
def LDL_RA_ISSUED_CNT_HI : Nat := 0x50114
/-- R190 (RO). -/
def LDL_RA_HIT_CNT_LO : Nat := 0x50118
/-- R190 (RO). -/
def LDL_RA_HIT_CNT_HI : Nat := 0x5011C
/-- R190 (RO). -/
def LDL_RA_LATE_CNT_LO : Nat := 0x50120
/-- R190 (RO). -/
def LDL_RA_LATE_CNT_HI : Nat := 0x50124
/-- R190 (RO). -/
def LDL_RA_MISS_CNT_LO : Nat := 0x50128
/-- R190 (RO). -/
def LDL_RA_MISS_CNT_HI : Nat := 0x5012C
/-- R190 (RO). -/
def LDL_RA_DISCARD_CNT_LO : Nat := 0x50130
/-- R190 (RO). -/
def LDL_RA_DISCARD_CNT_HI : Nat := 0x50134
/-- R190 (RO). -/
def LDL_RA_INVAL_CNT_LO : Nat := 0x50138
/-- R190 (RO). -/
def LDL_RA_INVAL_CNT_HI : Nat := 0x5013C
/-- R190 (RO). -/
def LDL_RA_POISON_CNT_LO : Nat := 0x50140
/-- R190 (RO). -/
def LDL_RA_POISON_CNT_HI : Nat := 0x50144
/-- R190 (RO). -/
def LDL_KV_SPILL_CNT_LO : Nat := 0x50148
/-- R190 (RO). -/
def LDL_KV_SPILL_CNT_HI : Nat := 0x5014C
/-- R190 (RO). -/
def LDL_KV_FETCH_CNT_LO : Nat := 0x50150
/-- R190 (RO). -/
def LDL_KV_FETCH_CNT_HI : Nat := 0x50154
/-- R190 (RO). -/
def LDL_KV_ABORT_CNT_LO : Nat := 0x50158
/-- R190 (RO). -/
def LDL_KV_ABORT_CNT_HI : Nat := 0x5015C
/-- R190 (RO). -/
def LDL_CMP_IN_CNT_LO : Nat := 0x50160
/-- R190 (RO). -/
def LDL_CMP_IN_CNT_HI : Nat := 0x50164
/-- R190 (RO). -/
def LDL_CMP_OUT_CNT_LO : Nat := 0x50168
/-- R190 (RO). -/
def LDL_CMP_OUT_CNT_HI : Nat := 0x5016C
/-- R171 (RW). -/
def LDL_KV_PT_BASE_LO (i : Nat) : Nat := 0x51000 + i * 0x40
/-- R171 (RW). -/
def LDL_KV_PT_BASE_HI (i : Nat) : Nat := 0x51004 + i * 0x40
/-- R171 (RW). -/
def LDL_KV_PT_ENTRIES (i : Nat) : Nat := 0x51008 + i * 0x40
/-- R172 (RW). -/
def LDL_KV_CTRL (i : Nat) : Nat := 0x5100C + i * 0x40
/-- R171 (RW). -/
def LDL_KV_NEAR_BASE_LO (i : Nat) : Nat := 0x51010 + i * 0x40
/-- R171 (RW). -/
def LDL_KV_NEAR_BASE_HI (i : Nat) : Nat := 0x51014 + i * 0x40
/-- R171 (RW). -/
def LDL_KV_NEAR_SLOTS (i : Nat) : Nat := 0x51018 + i * 0x40
/-- R171 (RW). -/
def LDL_KV_FAR_SLOTS (i : Nat) : Nat := 0x5101C + i * 0x40
/-- R171 (RW). -/
def LDL_KV_FAR_BASE_LO (i : Nat) : Nat := 0x51020 + i * 0x40
/-- R171 (RW). -/
def LDL_KV_FAR_BASE_HI (i : Nat) : Nat := 0x51024 + i * 0x40
/-- R175 (RW). -/
def LDL_KV_SPILL_LO (i : Nat) : Nat := 0x51028 + i * 0x40
/-- R175 (RW). -/
def LDL_KV_SPILL_HI (i : Nat) : Nat := 0x5102C + i * 0x40
/-- R190 (RO). -/
def LDL_KV_NEAR_FREE (i : Nat) : Nat := 0x51030 + i * 0x40
/-- R190 (RO). -/
def LDL_KV_FAR_FREE (i : Nat) : Nat := 0x51034 + i * 0x40
/-- R151 (RW). -/
def LDL_RNG_BASE (i j : Nat) : Nat := 0x52000 + i * 0x80 + j * 0x10
/-- R151 (RW). -/
def LDL_RNG_LIMIT (i j : Nat) : Nat := 0x52004 + i * 0x80 + j * 0x10
/-- R151 (RW). -/
def LDL_RNG_PERM (i j : Nat) : Nat := 0x52008 + i * 0x80 + j * 0x10
/-- R179 (RO). -/
def LDL_RA_STATE (i : Nat) : Nat := 0x54000 + i * 0x10
/-- R179 (RO). -/
def LDL_RA_POS (i : Nat) : Nat := 0x54004 + i * 0x10
/-- R179 (RO). -/
def LDL_RA_DIST (i : Nat) : Nat := 0x54008 + i * 0x10
/-- R179 (RO). -/
def LDL_RA_LINES (i : Nat) : Nat := 0x5400C + i * 0x10
/-- R229 (RO). -/
def LDL_SWP_STATUS : Nat := 0x56000
/-- R229 (RW). -/
def LDL_SWP_CTRL : Nat := 0x56004
/-- R224 (RW). -/
def LDL_SWP_SCALE : Nat := 0x56008
/-- R224 (RW). -/
def LDL_SWP_SCALE_MAX : Nat := 0x5600C
/-- R225 (RW). -/
def LDL_SWP_INTERVAL : Nat := 0x56010
/-- R225 (RW). -/
def LDL_SWP_CLEAN : Nat := 0x56014
/-- R229 (RO). -/
def LDL_SWP_COMMIT_CNT_LO : Nat := 0x56018
/-- R229 (RO). -/
def LDL_SWP_COMMIT_CNT_HI : Nat := 0x5601C
/-- R229 (RO). -/
def LDL_SWP_SKIP_CNT_LO : Nat := 0x56020
/-- R229 (RO). -/
def LDL_SWP_SKIP_CNT_HI : Nat := 0x56024
/-- R229 (RO). -/
def LDL_SWP_STAGED_CNT_LO : Nat := 0x56028
/-- R229 (RO). -/
def LDL_SWP_STAGED_CNT_HI : Nat := 0x5602C
/-- R229 (RO). -/
def LDL_SWP_DISCARD_CNT_LO : Nat := 0x56030
/-- R229 (RO). -/
def LDL_SWP_DISCARD_CNT_HI : Nat := 0x56034
/-- R229 (RO). -/
def LDL_SWP_HELD_CNT_LO : Nat := 0x56038
/-- R229 (RO). -/
def LDL_SWP_HELD_CNT_HI : Nat := 0x5603C
/-- R227 (RW). -/
def LDL_SWP_SPK_CTRL : Nat := 0x56040
/-- R227 (RW). -/
def LDL_SWP_SPK_K : Nat := 0x56044
/-- R227 (RW). -/
def LDL_SWP_SPK_E : Nat := 0x56048
/-- R227 (RW). -/
def LDL_SWP_SPK_D : Nat := 0x5604C
/-- R227 (RW). -/
def LDL_SWP_SPK_SEEN : Nat := 0x56050
/-- R226 (RO). -/
def LDL_SWP_SEQ : Nat := 0x56054
/-- R228 (RO). -/
def LDL_SWP_SPIKE_CNT_LO : Nat := 0x56058
/-- R228 (RO). -/
def LDL_SWP_SPIKE_CNT_HI : Nat := 0x5605C
/-- R219 (RO). -/
def LDL_SWP_EARLY_N : Nat := 0x56060
/-- R223 (RO). -/
def LDL_SWP_PEND_HELD : Nat := 0x56064
/-- R220 (RO). -/
def LDL_SWP_STAGEREF_CNT_LO : Nat := 0x56068
/-- R220 (RO). -/
def LDL_SWP_STAGEREF_CNT_HI : Nat := 0x5606C
/-- R204 (RW). -/
def LDL_SLAG_BASE_LO (i : Nat) : Nat := 0x56100 + i * 0x20
/-- R204 (RW). -/
def LDL_SLAG_BASE_HI (i : Nat) : Nat := 0x56104 + i * 0x20
/-- R204 (RW). -/
def LDL_SLAG_ENTRIES (i : Nat) : Nat := 0x56108 + i * 0x20
/-- R206 (W1C). -/
def LDL_SLAG_NF (i : Nat) : Nat := 0x5610C + i * 0x20
/-- R229 (RO). -/
def LDL_SLAG_NONFIN_CNT_LO : Nat := 0x56300
/-- R229 (RO). -/
def LDL_SLAG_NONFIN_CNT_HI : Nat := 0x56304
/-- R229 (RO). -/
def LDL_SLAG_SAT_CNT_LO : Nat := 0x56308
/-- R229 (RO). -/
def LDL_SLAG_SAT_CNT_HI : Nat := 0x5630C
/-- R229 (RO). -/
def LDL_SLAG_INVAL_CNT_LO : Nat := 0x56310
/-- R229 (RO). -/
def LDL_SLAG_INVAL_CNT_HI : Nat := 0x56314
/-- R229 (RO). -/
def LDL_SLAG_ABSURD_CNT_LO : Nat := 0x56318
/-- R229 (RO). -/
def LDL_SLAG_ABSURD_CNT_HI : Nat := 0x5631C
/-- R229 (RO). -/
def LDL_SLAG_LOST_CNT_LO : Nat := 0x56320
/-- R229 (RO). -/
def LDL_SLAG_LOST_CNT_HI : Nat := 0x56324
/-- R191 (RO). -/
def MEM_STATUS (i : Nat) : Nat := 0x60000 + i * 0x1000
/-- R186 (RW). -/
def MEM_SCRUB_CTRL (i : Nat) : Nat := 0x60004 + i * 0x1000
/-- R191 (RO). -/
def MEM_CE_CNT_LO (i : Nat) : Nat := 0x60008 + i * 0x1000
/-- R191 (RO). -/
def MEM_CE_CNT_HI (i : Nat) : Nat := 0x6000C + i * 0x1000
/-- R191 (RO). -/
def MEM_UE_CNT_LO (i : Nat) : Nat := 0x60010 + i * 0x1000
/-- R191 (RO). -/
def MEM_UE_CNT_HI (i : Nat) : Nat := 0x60014 + i * 0x1000
/-- R184 (RO). -/
def MEM_ERRADDR_LO (i : Nat) : Nat := 0x60018 + i * 0x1000
/-- R184 (RO). -/
def MEM_ERRADDR_HI (i : Nat) : Nat := 0x6001C + i * 0x1000
/-- R191 (RO). -/
def MEM_RD_CNT_LO (i : Nat) : Nat := 0x60020 + i * 0x1000
/-- R191 (RO). -/
def MEM_RD_CNT_HI (i : Nat) : Nat := 0x60024 + i * 0x1000
/-- R191 (RO). -/
def MEM_WR_CNT_LO (i : Nat) : Nat := 0x60028 + i * 0x1000
/-- R191 (RO). -/
def MEM_WR_CNT_HI (i : Nat) : Nat := 0x6002C + i * 0x1000
/-- R191 (RO). -/
def MEM_SCRUB_PASS_CNT_LO (i : Nat) : Nat := 0x60030 + i * 0x1000
/-- R191 (RO). -/
def MEM_SCRUB_PASS_CNT_HI (i : Nat) : Nat := 0x60034 + i * 0x1000
/-- R191 (RO). -/
def FAR_STATUS (i : Nat) : Nat := 0x70000 + i * 0x1000
/-- R186 (RW). -/
def FAR_SCRUB_CTRL (i : Nat) : Nat := 0x70004 + i * 0x1000
/-- R191 (RO). -/
def FAR_CE_CNT_LO (i : Nat) : Nat := 0x70008 + i * 0x1000
/-- R191 (RO). -/
def FAR_CE_CNT_HI (i : Nat) : Nat := 0x7000C + i * 0x1000
/-- R191 (RO). -/
def FAR_UE_CNT_LO (i : Nat) : Nat := 0x70010 + i * 0x1000
/-- R191 (RO). -/
def FAR_UE_CNT_HI (i : Nat) : Nat := 0x70014 + i * 0x1000
/-- R184 (RO). -/
def FAR_ERRADDR_LO (i : Nat) : Nat := 0x70018 + i * 0x1000
/-- R184 (RO). -/
def FAR_ERRADDR_HI (i : Nat) : Nat := 0x7001C + i * 0x1000
/-- R191 (RO). -/
def FAR_RD_CNT_LO (i : Nat) : Nat := 0x70020 + i * 0x1000
/-- R191 (RO). -/
def FAR_RD_CNT_HI (i : Nat) : Nat := 0x70024 + i * 0x1000
/-- R191 (RO). -/
def FAR_WR_CNT_LO (i : Nat) : Nat := 0x70028 + i * 0x1000
/-- R191 (RO). -/
def FAR_WR_CNT_HI (i : Nat) : Nat := 0x7002C + i * 0x1000
/-- R191 (RO). -/
def FAR_SCRUB_PASS_CNT_LO (i : Nat) : Nat := 0x70030 + i * 0x1000
/-- R191 (RO). -/
def FAR_SCRUB_PASS_CNT_HI (i : Nat) : Nat := 0x70034 + i * 0x1000
/-- R361 (RO). -/
def FLK_STATUS : Nat := 0x80000
/-- R341 (RW). -/
def FLK_CTRL : Nat := 0x80004
/-- R337 (RWL). -/
def FLK_WIN_SIZE : Nat := 0x80008
/-- R337 (RWL). -/
def FLK_WIN_BACK_LO : Nat := 0x80010
/-- R337 (RWL). -/
def FLK_WIN_BACK_HI : Nat := 0x80014
/-- R337 (RWL). -/
def FLK_DIR_BASE_LO : Nat := 0x80018
/-- R337 (RWL). -/
def FLK_DIR_BASE_HI : Nat := 0x8001C
/-- R340 (RWL). -/
def FLK_CACHE_BASE_LO : Nat := 0x80020
/-- R340 (RWL). -/
def FLK_CACHE_BASE_HI : Nat := 0x80024
/-- R340 (RWL). -/
def FLK_CACHE_SIZE : Nat := 0x80028
/-- R361 (RW). -/
def FLK_WIN_SLICE : Nat := 0x8002C
/-- R358 (RO). -/
def FLK_DEADPOS : Nat := 0x80030
/-- R352 (RW). -/
def FLK_CTX_REMOTE (i : Nat) : Nat := 0x80100 + i * 0x4
/-- R351 (RW). -/
def FLK_EXP_BASE (i : Nat) : Nat := 0x80200 + i * 0x10
/-- R351 (RW). -/
def FLK_EXP_LIMIT (i : Nat) : Nat := 0x80204 + i * 0x10
/-- R351 (RW). -/
def FLK_EXP_PERM (i : Nat) : Nat := 0x80208 + i * 0x10
/-- R351 (RW). -/
def FLK_EXP_SLICEMASK (i : Nat) : Nat := 0x8020C + i * 0x10
/-- R361 (RO). -/
def FLK_HOMETX_CNT_LO : Nat := 0x80800
/-- R361 (RO). -/
def FLK_HOMETX_CNT_HI : Nat := 0x80804
/-- R361 (RO). -/
def FLK_SNOOP_CNT_LO : Nat := 0x80808
/-- R361 (RO). -/
def FLK_SNOOP_CNT_HI : Nat := 0x8080C
/-- R361 (RO). -/
def FLK_PEEKMISS_CNT_LO : Nat := 0x80810
/-- R361 (RO). -/
def FLK_PEEKMISS_CNT_HI : Nat := 0x80814
/-- R361 (RO). -/
def FLK_CHECKFAIL_CNT_LO : Nat := 0x80818
/-- R361 (RO). -/
def FLK_CHECKFAIL_CNT_HI : Nat := 0x8081C
/-- R361 (RO). -/
def FLK_TIMEOUT_CNT_LO : Nat := 0x80820
/-- R361 (RO). -/
def FLK_TIMEOUT_CNT_HI : Nat := 0x80824
/-- R361 (RO). -/
def FLK_LATE_CNT_LO : Nat := 0x80828
/-- R361 (RO). -/
def FLK_LATE_CNT_HI : Nat := 0x8082C
/-- R361 (RO). -/
def FLK_REFUSED_CNT_LO : Nat := 0x80830
/-- R361 (RO). -/
def FLK_REFUSED_CNT_HI : Nat := 0x80834
/-- R361 (RO). -/
def FLK_REMOTE_CNT_LO : Nat := 0x80838
/-- R361 (RO). -/
def FLK_REMOTE_CNT_HI : Nat := 0x8083C
/-- R359 (RW). -/
def FLK_TRIG_CTRL (i : Nat) : Nat := 0x81000 + i * 0x20
/-- R359 (RW). -/
def FLK_TRIG_LIST_LO (i : Nat) : Nat := 0x81004 + i * 0x20
/-- R359 (RW). -/
def FLK_TRIG_LIST_HI (i : Nat) : Nat := 0x81008 + i * 0x20
/-- R359 (RW). -/
def FLK_TRIG_LEN (i : Nat) : Nat := 0x8100C + i * 0x20
/-- R360 (RO). -/
def FLK_TRIG_CNT_LO (i : Nat) : Nat := 0x81010 + i * 0x20
/-- R360 (RO). -/
def FLK_TRIG_CNT_HI (i : Nat) : Nat := 0x81014 + i * 0x20
/-- R360 (RO). -/
def FLK_TRIG_REF_CNT (i : Nat) : Nat := 0x81018 + i * 0x20
/-- R359 (RO). -/
def FLK_TRIG_WIDX (i : Nat) : Nat := 0x8101C + i * 0x20
/-- R460 (RO). -/
def MTR_NOW_LO : Nat := 0x90000
/-- R460 (RO). -/
def MTR_NOW_HI : Nat := 0x90004
/-- R464 (RO). -/
def MTR_BOOT : Nat := 0x90008
/-- R471 (RO). -/
def MTR_STATUS : Nat := 0x9000C
/-- R461 (RW). -/
def MTR_MAP_TICK_LO : Nat := 0x90010
/-- R461 (RW). -/
def MTR_MAP_TICK_HI : Nat := 0x90014
/-- R461 (RW). -/
def MTR_MAP_WALL_LO : Nat := 0x90018
/-- R461 (RW). -/
def MTR_MAP_WALL_HI : Nat := 0x9001C
/-- R461 (RW). -/
def MTR_MAP_GO : Nat := 0x90020
/-- R461 (RO). -/
def MTR_MAP_GEN : Nat := 0x90024
/-- R462 (RW). -/
def MTR_CLOSE_WALL_LO : Nat := 0x90028
/-- R462 (RW). -/
def MTR_CLOSE_WALL_HI : Nat := 0x9002C
/-- R462 (RW). -/
def MTR_CLOSE_GO : Nat := 0x90030
/-- R462 (RO). -/
def MTR_LAST_CLOSED_LO : Nat := 0x90038
/-- R462 (RO). -/
def MTR_LAST_CLOSED_HI : Nat := 0x9003C
/-- R462 (RO). -/
def MTR_ARMED_LO : Nat := 0x90040
/-- R462 (RO). -/
def MTR_ARMED_HI : Nat := 0x90044
/-- R463 (RO). -/
def MTR_SEQ : Nat := 0x90048
/-- R463 (RW). -/
def MTR_ACK : Nat := 0x9004C
/-- R460 (RO). -/
def MTR_SLICE_CNT_LO (i j : Nat) : Nat := 0x91000 + i * 0x40 + j * 0x8
/-- R460 (RO). -/
def MTR_SLICE_CNT_HI (i j : Nat) : Nat := 0x91004 + i * 0x40 + j * 0x8
/-- R463 (RO). -/
def MTR_RECORD (i j : Nat) : Nat := 0x98000 + i * 0x400 + j * 0x4
/-- R295 (RO). -/
def SPR_STATUS (i j : Nat) : Nat := 0x100000 + i * 0x4000 + j * 0x2000
/-- R295 (RW). -/
def SPR_CTRL (i j : Nat) : Nat := 0x100004 + i * 0x4000 + j * 0x2000
/-- R272 (RWL). -/
def SPR_CFG (i j : Nat) : Nat := 0x100008 + i * 0x4000 + j * 0x2000
/-- R259 (RO). -/
def SPR_LANE_FAIL (i j : Nat) : Nat := 0x10000C + i * 0x4000 + j * 0x2000
/-- R260 (RO). -/
def SPR_LANE_POL (i j : Nat) : Nat := 0x100010 + i * 0x4000 + j * 0x2000
/-- R279 (RW). -/
def SPR_SLICE_MASK (i j : Nat) : Nat := 0x100014 + i * 0x4000 + j * 0x2000
/-- R263 (RO). -/
def SPR_PARTNER (i j : Nat) : Nat := 0x100018 + i * 0x4000 + j * 0x2000
/-- R263 (RO). -/
def SPR_PARTNER_PORT (i j : Nat) : Nat := 0x10001C + i * 0x4000 + j * 0x2000
/-- R295 (RO). -/
def SPR_FEC_CSYM_CNT_LO (i j : Nat) : Nat := 0x100040 + i * 0x4000 + j * 0x2000
/-- R295 (RO). -/
def SPR_FEC_CSYM_CNT_HI (i j : Nat) : Nat := 0x100044 + i * 0x4000 + j * 0x2000
/-- R295 (RO). -/
def SPR_FEC_UCW_CNT_LO (i j : Nat) : Nat := 0x100048 + i * 0x4000 + j * 0x2000
/-- R295 (RO). -/
def SPR_FEC_UCW_CNT_HI (i j : Nat) : Nat := 0x10004C + i * 0x4000 + j * 0x2000
/-- R295 (RO). -/
def SPR_RETRY_CNT_LO (i j : Nat) : Nat := 0x100050 + i * 0x4000 + j * 0x2000
/-- R295 (RO). -/
def SPR_RETRY_CNT_HI (i j : Nat) : Nat := 0x100054 + i * 0x4000 + j * 0x2000
/-- R295 (RO). -/
def SPR_RETRAIN_CNT_LO (i j : Nat) : Nat := 0x100058 + i * 0x4000 + j * 0x2000
/-- R295 (RO). -/
def SPR_RETRAIN_CNT_HI (i j : Nat) : Nat := 0x10005C + i * 0x4000 + j * 0x2000
/-- R295 (RO). -/
def SPR_TXFLIT_CNT_LO (i j : Nat) : Nat := 0x100060 + i * 0x4000 + j * 0x2000
/-- R295 (RO). -/
def SPR_TXFLIT_CNT_HI (i j : Nat) : Nat := 0x100064 + i * 0x4000 + j * 0x2000
/-- R295 (RO). -/
def SPR_RXFLIT_CNT_LO (i j : Nat) : Nat := 0x100068 + i * 0x4000 + j * 0x2000
/-- R295 (RO). -/
def SPR_RXFLIT_CNT_HI (i j : Nat) : Nat := 0x10006C + i * 0x4000 + j * 0x2000
/-- R295 (RO). -/
def SPR_FENCEDROP_CNT_LO (i j : Nat) : Nat := 0x100070 + i * 0x4000 + j * 0x2000
/-- R295 (RO). -/
def SPR_FENCEDROP_CNT_HI (i j : Nat) : Nat := 0x100074 + i * 0x4000 + j * 0x2000
/-- R295 (RO). -/
def SPR_LP_ENTRY_CNT_LO (i j : Nat) : Nat := 0x100078 + i * 0x4000 + j * 0x2000
/-- R295 (RO). -/
def SPR_LP_ENTRY_CNT_HI (i j : Nat) : Nat := 0x10007C + i * 0x4000 + j * 0x2000
/-- R295 (RO). -/
def SPR_LP_ABORT_CNT_LO (i j : Nat) : Nat := 0x100080 + i * 0x4000 + j * 0x2000
/-- R295 (RO). -/
def SPR_LP_ABORT_CNT_HI (i j : Nat) : Nat := 0x100084 + i * 0x4000 + j * 0x2000
/-- R295 (RO). -/
def SPR_CREDWAIT_CNT_LO (i j : Nat) : Nat := 0x100088 + i * 0x4000 + j * 0x2000
/-- R295 (RO). -/
def SPR_CREDWAIT_CNT_HI (i j : Nat) : Nat := 0x10008C + i * 0x4000 + j * 0x2000
/-- R295 (RO). -/
def SPR_NOROUTE_CNT_LO (i j : Nat) : Nat := 0x100090 + i * 0x4000 + j * 0x2000
/-- R295 (RO). -/
def SPR_NOROUTE_CNT_HI (i j : Nat) : Nat := 0x100094 + i * 0x4000 + j * 0x2000
/-- R288 (RO). -/
def SPR_POOL (i j k : Nat) : Nat := 0x100100 + i * 0x4000 + j * 0x2000 + k * 0x4
/-- R296 (RWL). -/
def SPR_TOPO : Nat := 0x148000
/-- R296 (RW). -/
def SPR_SELF : Nat := 0x148004
/-- R296 (RWL). -/
def SPR_SYSTEM : Nat := 0x148008
/-- R279 (RW). -/
def SPR_FENCE : Nat := 0x14800C
/-- R283 (RW). -/
def SPR_TAKEOVER : Nat := 0x148010
/-- R296 (RW). -/
def SPR_RT_CTRL : Nat := 0x148014
/-- R296 (RW). -/
def SPR_RT_INDEX : Nat := 0x148018
/-- R296 (RW). -/
def SPR_RT_DATA : Nat := 0x14801C
/-- R277 (RO). -/
def SPR_CTX_PHASE (i : Nat) : Nat := 0x148020 + i * 0x4
/-- R143 (RO). -/
def CRU_GATE_STATUS (i : Nat) : Nat := 0x1000000 + i * 0x10000
/-- R125 (RO). -/
def CRU_GATE_CMDAGE (i : Nat) : Nat := 0x1000004 + i * 0x10000
/-- R143 (RW). -/
def CRU_Q_CTRL (i j : Nat) : Nat := 0x1001000 + i * 0x10000 + j * 0x40
/-- R143 (RO). -/
def CRU_Q_STATUS (i j : Nat) : Nat := 0x1001004 + i * 0x10000 + j * 0x40
/-- R94 (RW). -/
def CRU_Q_BASE_LO (i j : Nat) : Nat := 0x1001008 + i * 0x10000 + j * 0x40
/-- R94 (RW). -/
def CRU_Q_BASE_HI (i j : Nat) : Nat := 0x100100C + i * 0x10000 + j * 0x40
/-- R94 (RW). -/
def CRU_Q_PUB (i j : Nat) : Nat := 0x1001010 + i * 0x10000 + j * 0x40
/-- R94 (RO). -/
def CRU_Q_HEAD (i j : Nat) : Nat := 0x1001014 + i * 0x10000 + j * 0x40
/-- R134 (RW). -/
def CRU_Q_FLUSH (i j : Nat) : Nat := 0x1001018 + i * 0x10000 + j * 0x40
/-- R134 (RO). -/
def CRU_Q_FLUSHED (i j : Nat) : Nat := 0x100101C + i * 0x10000 + j * 0x40
/-- R134 (RO). -/
def CRU_Q_RESTART (i j : Nat) : Nat := 0x1001020 + i * 0x10000 + j * 0x40
/-- R137 (RW). -/
def CRU_Q_CQ_BASE_LO (i j : Nat) : Nat := 0x1001024 + i * 0x10000 + j * 0x40
/-- R137 (RW). -/
def CRU_Q_CQ_BASE_HI (i j : Nat) : Nat := 0x1001028 + i * 0x10000 + j * 0x40
/-- R137 (RW). -/
def CRU_Q_CQ_CTRL (i j : Nat) : Nat := 0x100102C + i * 0x10000 + j * 0x40
/-- R139 (RW). -/
def CRU_Q_CQ_HEAD (i j : Nat) : Nat := 0x1001030 + i * 0x10000 + j * 0x40
/-- R137 (RO). -/
def CRU_Q_CQ_TAIL (i j : Nat) : Nat := 0x1001034 + i * 0x10000 + j * 0x40
/-- R105 (RO). -/
def CRU_Q_STEP (i j : Nat) : Nat := 0x1001038 + i * 0x10000 + j * 0x40
/-- R138 (RO). -/
def CRU_Q_SEQ (i j : Nat) : Nat := 0x100103C + i * 0x10000 + j * 0x40
/-- R114 (RW). -/
def CRU_SEM (i j k : Nat) : Nat := 0x1004000 + i * 0x10000 + j * 0x100 + k * 0x4
/-- R141 (RO). -/
def CRU_BUSY_CNT_LO (i : Nat) : Nat := 0x1006000 + i * 0x10000
/-- R141 (RO). -/
def CRU_BUSY_CNT_HI (i : Nat) : Nat := 0x1006004 + i * 0x10000
/-- R141 (RO). -/
def CRU_IDLE_COLL_CNT_LO (i : Nat) : Nat := 0x1006008 + i * 0x10000
/-- R141 (RO). -/
def CRU_IDLE_COLL_CNT_HI (i : Nat) : Nat := 0x100600C + i * 0x10000
/-- R141 (RO). -/
def CRU_IDLE_MEM_CNT_LO (i : Nat) : Nat := 0x1006010 + i * 0x10000
/-- R141 (RO). -/
def CRU_IDLE_MEM_CNT_HI (i : Nat) : Nat := 0x1006014 + i * 0x10000
/-- R141 (RO). -/
def CRU_IDLE_SEM_CNT_LO (i : Nat) : Nat := 0x1006018 + i * 0x10000
/-- R141 (RO). -/
def CRU_IDLE_SEM_CNT_HI (i : Nat) : Nat := 0x100601C + i * 0x10000
/-- R141 (RO). -/
def CRU_IDLE_SLOT_CNT_LO (i : Nat) : Nat := 0x1006020 + i * 0x10000
/-- R141 (RO). -/
def CRU_IDLE_SLOT_CNT_HI (i : Nat) : Nat := 0x1006024 + i * 0x10000
/-- R141 (RO). -/
def CRU_IDLE_FETTLE_CNT_LO (i : Nat) : Nat := 0x1006028 + i * 0x10000
/-- R141 (RO). -/
def CRU_IDLE_FETTLE_CNT_HI (i : Nat) : Nat := 0x100602C + i * 0x10000
/-- R141 (RO). -/
def CRU_IDLE_LIMIT_CNT_LO (i : Nat) : Nat := 0x1006030 + i * 0x10000
/-- R141 (RO). -/
def CRU_IDLE_LIMIT_CNT_HI (i : Nat) : Nat := 0x1006034 + i * 0x10000
/-- R141 (RO). -/
def CRU_IDLE_HOST_CNT_LO (i : Nat) : Nat := 0x1006038 + i * 0x10000
/-- R141 (RO). -/
def CRU_IDLE_HOST_CNT_HI (i : Nat) : Nat := 0x100603C + i * 0x10000
/-- R141 (RO). -/
def CRU_RECOMP_CNT_LO (i : Nat) : Nat := 0x1006040 + i * 0x10000
/-- R141 (RO). -/
def CRU_RECOMP_CNT_HI (i : Nat) : Nat := 0x1006044 + i * 0x10000
/-- R141 (RO). -/
def CRU_XCTX_RD_CNT_LO (i : Nat) : Nat := 0x1006048 + i * 0x10000
/-- R141 (RO). -/
def CRU_XCTX_RD_CNT_HI (i : Nat) : Nat := 0x100604C + i * 0x10000
/-- R141 (RO). -/
def CRU_SEMSAT_CNT_LO (i : Nat) : Nat := 0x1006050 + i * 0x10000
/-- R141 (RO). -/
def CRU_SEMSAT_CNT_HI (i : Nat) : Nat := 0x1006054 + i * 0x10000
/-- R89 (RO). -/
def CRU_ARR_STATUS (i j : Nat) : Nat := 0x1008000 + i * 0x10000 + j * 0x40
/-- R88 (RO). -/
def CRU_ARR_STALLSRC (i j : Nat) : Nat := 0x1008004 + i * 0x10000 + j * 0x40
/-- R88 (RO). -/
def CRU_ARR_BUSY_CNT_LO (i j : Nat) : Nat := 0x1008008 + i * 0x10000 + j * 0x40
/-- R88 (RO). -/
def CRU_ARR_BUSY_CNT_HI (i j : Nat) : Nat := 0x100800C + i * 0x10000 + j * 0x40
/-- R88 (RO). -/
def CRU_ARR_WAIT_CNT_LO (i j : Nat) : Nat := 0x1008010 + i * 0x10000 + j * 0x40
/-- R88 (RO). -/
def CRU_ARR_WAIT_CNT_HI (i j : Nat) : Nat := 0x1008014 + i * 0x10000 + j * 0x40
/-- R88 (RO). -/
def CRU_ARR_STALL_CNT_LO (i j : Nat) : Nat := 0x1008018 + i * 0x10000 + j * 0x40
/-- R88 (RO). -/
def CRU_ARR_STALL_CNT_HI (i j : Nat) : Nat := 0x100801C + i * 0x10000 + j * 0x40
/-- R88 (RO). -/
def CRU_ARR_TILE_CNT_LO (i j : Nat) : Nat := 0x1008020 + i * 0x10000 + j * 0x40
/-- R88 (RO). -/
def CRU_ARR_TILE_CNT_HI (i j : Nat) : Nat := 0x1008024 + i * 0x10000 + j * 0x40
/-- R88 (RO). -/
def CRU_ARR_RISERMM_CNT_LO (i j : Nat) : Nat := 0x1008028 + i * 0x10000 + j * 0x40
/-- R88 (RO). -/
def CRU_ARR_RISERMM_CNT_HI (i j : Nat) : Nat := 0x100802C + i * 0x10000 + j * 0x40
end Reg

/-- The access codes of R12. `rc` is named there; no register of the KX9-A carries it. -/
inductive Access where
  | rw | ro | w1c | rc | rwl
deriving DecidableEq, Repr

/-- How a register gets its value: held as it was last written; computed from its unit's state (a sample, R456, or a
command bit that reads zero); half of a counter pair (R501); the tick count MTR_NOW. -/
inductive RegKind where
  | held | sample | counter | clock
deriving DecidableEq, Repr

/-- One row of a field table: where the register lies, its instances as (count, stride) from the outermost, its
access code, its reset value, and the bits that are not reserved (R506). -/
structure RegRow where
  base  : Nat
  dims  : List (Nat × Nat)
  acc   : Access
  reset : Nat
  mask  : Nat
  kind  : RegKind
deriving DecidableEq, Repr

/-- Registers of the GLB block, part 0. -/
def rowsGlb0 : List RegRow := [
  ⟨0x0, [], .ro, 0x4B580109, 0xFFFFFFFF, .held⟩,
  ⟨0x4, [], .ro, 0x0, 0xFFFFFFFF, .sample⟩,
  ⟨0x8, [], .ro, 0x0, 0xFFFFFFFF, .counter⟩,
  ⟨0xC, [], .ro, 0x0, 0xFFFFFFFF, .counter⟩,
  ⟨0x10, [], .ro, 0x84024, 0xFFFFFFFF, .held⟩,
  ⟨0x14, [], .ro, 0x40204008, 0xFFFFFFFF, .held⟩,
  ⟨0x18, [], .ro, 0x300C00, 0xFFFFFFFF, .held⟩,
  ⟨0x1C, [], .ro, 0xFF101012, 0xFFFFFFFF, .held⟩,
  ⟨0x20, [], .ro, 0x10FF0400, 0xFFFFFFFF, .held⟩,
  ⟨0x24, [], .ro, 0x0, 0xFFFFFFFF, .sample⟩,
  ⟨0x30, [], .rw, 0x0, 0x3FFFF, .held⟩,
  ⟨0x34, [], .rw, 0x0, 0x1F, .held⟩,
  ⟨0x8000, [(4, 0x800), (2, 0x400)], .ro, 0x0, 0xFFFFFFFF, .sample⟩,
  ⟨0x8004, [(4, 0x800), (2, 0x400)], .ro, 0x0, 0xFFFFFFFF, .sample⟩,
  ⟨0x8100, [(4, 0x800), (2, 0x400)], .ro, 0x0, 0xFFFFFFFF, .counter⟩,
  ⟨0x8104, [(4, 0x800), (2, 0x400)], .ro, 0x0, 0xFFFFFFFF, .counter⟩,
  ⟨0x8108, [(4, 0x800), (2, 0x400)], .ro, 0x0, 0xFFFFFFFF, .counter⟩,
  ⟨0x810C, [(4, 0x800), (2, 0x400)], .ro, 0x0, 0xFFFFFFFF, .counter⟩,
  ⟨0x8110, [(4, 0x800), (2, 0x400)], .ro, 0x0, 0xFFFFFFFF, .counter⟩,
  ⟨0x8114, [(4, 0x800), (2, 0x400)], .ro, 0x0, 0xFFFFFFFF, .counter⟩,
  ⟨0x8118, [(4, 0x800), (2, 0x400)], .ro, 0x0, 0xFFFFFFFF, .counter⟩,
  ⟨0x811C, [(4, 0x800), (2, 0x400)], .ro, 0x0, 0xFFFFFFFF, .counter⟩,
  ⟨0x8120, [(4, 0x800), (2, 0x400)], .ro, 0x0, 0xFFFFFFFF, .counter⟩,
  ⟨0x8124, [(4, 0x800), (2, 0x400)], .ro, 0x0, 0xFFFFFFFF, .counter⟩,
  ⟨0x8128, [(4, 0x800), (2, 0x400)], .ro, 0x0, 0xFFFFFFFF, .counter⟩]
/-- Registers of the GLB block, part 1. -/
def rowsGlb1 : List RegRow := [
  ⟨0x812C, [(4, 0x800), (2, 0x400)], .ro, 0x0, 0xFFFFFFFF, .counter⟩,
  ⟨0x8130, [(4, 0x800), (2, 0x400)], .ro, 0x0, 0xFFFFFFFF, .counter⟩,
  ⟨0x8134, [(4, 0x800), (2, 0x400)], .ro, 0x0, 0xFFFFFFFF, .counter⟩,
  ⟨0x8138, [(4, 0x800), (2, 0x400)], .ro, 0x0, 0xFFFFFFFF, .counter⟩,
  ⟨0x813C, [(4, 0x800), (2, 0x400)], .ro, 0x0, 0xFFFFFFFF, .counter⟩,
  ⟨0x8140, [(4, 0x800), (2, 0x400)], .ro, 0x0, 0xFFFFFFFF, .counter⟩,
  ⟨0x8144, [(4, 0x800), (2, 0x400)], .ro, 0x0, 0xFFFFFFFF, .counter⟩,
  ⟨0x8148, [(4, 0x800), (2, 0x400)], .ro, 0x0, 0xFFFFFFFF, .counter⟩,
  ⟨0x814C, [(4, 0x800), (2, 0x400)], .ro, 0x0, 0xFFFFFFFF, .counter⟩,
  ⟨0x8150, [(4, 0x800), (2, 0x400)], .ro, 0x0, 0xFFFFFFFF, .counter⟩,
  ⟨0x8154, [(4, 0x800), (2, 0x400)], .ro, 0x0, 0xFFFFFFFF, .counter⟩,
  ⟨0x8200, [(4, 0x800), (2, 0x400), (8, 0x40)], .ro, 0x0, 0xFFFFFFFF, .sample⟩,
  ⟨0x8204, [(4, 0x800), (2, 0x400), (8, 0x40)], .ro, 0x0, 0xFFFFFFFF, .held⟩,
  ⟨0x8208, [(4, 0x800), (2, 0x400), (8, 0x40)], .ro, 0x0, 0xFFFFFFFF, .counter⟩,
  ⟨0x820C, [(4, 0x800), (2, 0x400), (8, 0x40)], .ro, 0x0, 0xFFFFFFFF, .counter⟩,
  ⟨0x8210, [(4, 0x800), (2, 0x400), (8, 0x40)], .ro, 0x0, 0xFFFFFFFF, .counter⟩,
  ⟨0x8214, [(4, 0x800), (2, 0x400), (8, 0x40)], .ro, 0x0, 0xFFFFFFFF, .counter⟩,
  ⟨0x8218, [(4, 0x800), (2, 0x400), (8, 0x40)], .ro, 0x0, 0xFFFFFFFF, .counter⟩,
  ⟨0x821C, [(4, 0x800), (2, 0x400), (8, 0x40)], .ro, 0x0, 0xFFFFFFFF, .counter⟩,
  ⟨0x8220, [(4, 0x800), (2, 0x400), (8, 0x40)], .ro, 0x0, 0xFFFFFFFF, .counter⟩,
  ⟨0x8224, [(4, 0x800), (2, 0x400), (8, 0x40)], .ro, 0x0, 0xFFFFFFFF, .counter⟩,
  ⟨0x8228, [(4, 0x800), (2, 0x400), (8, 0x40)], .ro, 0x0, 0xFFFFFFFF, .counter⟩,
  ⟨0x822C, [(4, 0x800), (2, 0x400), (8, 0x40)], .ro, 0x0, 0xFFFFFFFF, .counter⟩]
/-- Every register of the GLB block. -/
def rowsGlb : List RegRow := rowsGlb0 ++ rowsGlb1
/-- Registers of the CUP block, part 0. -/
def rowsCup0 : List RegRow := [
  ⟨0x10000, [], .ro, 0x0, 0xFFFFFFFF, .sample⟩,
  ⟨0x10004, [], .ro, 0x0, 0xFFFFFFFF, .held⟩,
  ⟨0x10008, [], .ro, 0x0, 0xFFFFFFFF, .held⟩,
  ⟨0x1000C, [], .ro, 0x0, 0xFFFFFFFF, .sample⟩,
  ⟨0x10010, [(12, 0x4)], .ro, 0x0, 0xFFFFFFFF, .held⟩,
  ⟨0x10040, [], .ro, 0x0, 0xFFFFFFFF, .held⟩,
  ⟨0x10100, [], .rw, 0x0, 0x3F, .held⟩,
  ⟨0x10104, [], .rw, 0x0, 0x3F, .held⟩,
  ⟨0x10108, [], .ro, 0x0, 0xFFFFFFFF, .sample⟩,
  ⟨0x1010C, [], .rw, 0x0, 0xFFF, .held⟩,
  ⟨0x10110, [], .rw, 0x0, 0x7F, .held⟩,
  ⟨0x10114, [], .ro, 0x0, 0xFFFFFFFF, .sample⟩,
  ⟨0x10118, [], .rwl, 0x0, 0x3F, .held⟩,
  ⟨0x10140, [], .rw, 0x600, 0xF01, .held⟩,
  ⟨0x10200, [], .ro, 0x0, 0xFFFFFFFF, .counter⟩,
  ⟨0x10204, [], .ro, 0x0, 0xFFFFFFFF, .counter⟩,
  ⟨0x10208, [], .ro, 0x0, 0xFFFFFFFF, .counter⟩,
  ⟨0x1020C, [], .ro, 0x0, 0xFFFFFFFF, .counter⟩,
  ⟨0x10210, [], .ro, 0x0, 0xFFFFFFFF, .counter⟩,
  ⟨0x10214, [], .ro, 0x0, 0xFFFFFFFF, .counter⟩,
  ⟨0x10218, [], .ro, 0x0, 0xFFFFFFFF, .counter⟩,
  ⟨0x1021C, [], .ro, 0x0, 0xFFFFFFFF, .counter⟩,
  ⟨0x10220, [], .ro, 0x0, 0xFFFFFFFF, .counter⟩,
  ⟨0x10224, [], .ro, 0x0, 0xFFFFFFFF, .counter⟩,
  ⟨0x12000, [(300, 0x8)], .rw, 0x0, 0xFFFFFFFF, .held⟩]
/-- Registers of the CUP block, part 1. -/
def rowsCup1 : List RegRow := [
  ⟨0x12004, [(300, 0x8)], .ro, 0x0, 0xFFFFFFFF, .held⟩,
  ⟨0x14000, [(565, 0x8)], .ro, 0x0, 0xFFFFFFFF, .counter⟩,
  ⟨0x14004, [(565, 0x8)], .ro, 0x0, 0xFFFFFFFF, .counter⟩,
  ⟨0x18000, [], .ro, 0x1, 0xFFFFFFFF, .sample⟩,
  ⟨0x18004, [], .rw, 0x1, 0x3, .held⟩,
  ⟨0x18008, [], .w1c, 0x0, 0x3F, .held⟩,
  ⟨0x18010, [], .rw, 0x10020, 0x1FFFF, .held⟩,
  ⟨0x18014, [], .rw, 0x0, 0xFFFFFFFF, .held⟩,
  ⟨0x18018, [], .ro, 0x0, 0xFFFFFFFF, .counter⟩,
  ⟨0x1801C, [], .ro, 0x0, 0xFFFFFFFF, .counter⟩,
  ⟨0x18020, [], .ro, 0x0, 0xFFFFFFFF, .held⟩,
  ⟨0x18024, [], .ro, 0x0, 0xFFFFFFFF, .held⟩,
  ⟨0x18028, [], .ro, 0x0, 0xFFFFFFFF, .counter⟩,
  ⟨0x1802C, [], .ro, 0x0, 0xFFFFFFFF, .counter⟩,
  ⟨0x18030, [], .rw, 0xE10, 0xFFFFFFFF, .held⟩,
  ⟨0x18034, [], .rw, 0x7080, 0xFFFFFFFF, .held⟩,
  ⟨0x18038, [], .rw, 0x3C, 0xFFFFFFFF, .held⟩,
  ⟨0x18040, [], .ro, 0x0, 0xFFFFFFFF, .counter⟩,
  ⟨0x18044, [], .ro, 0x0, 0xFFFFFFFF, .counter⟩,
  ⟨0x18048, [], .ro, 0x0, 0xFFFFFFFF, .counter⟩,
  ⟨0x1804C, [], .ro, 0x0, 0xFFFFFFFF, .counter⟩,
  ⟨0x18050, [], .ro, 0x0, 0xFFFFFFFF, .counter⟩,
  ⟨0x18054, [], .ro, 0x0, 0xFFFFFFFF, .counter⟩,
  ⟨0x18058, [], .ro, 0x0, 0xFFFFFFFF, .counter⟩,
  ⟨0x1805C, [], .ro, 0x0, 0xFFFFFFFF, .counter⟩]
/-- Registers of the CUP block, part 2. -/
def rowsCup2 : List RegRow := [
  ⟨0x18060, [], .rwl, 0x0, 0x1F1, .held⟩,
  ⟨0x18064, [], .ro, 0x0, 0xFFFFFFFF, .sample⟩,
  ⟨0x18068, [], .ro, 0x0, 0xFFFFFFFF, .counter⟩,
  ⟨0x1806C, [], .ro, 0x0, 0xFFFFFFFF, .counter⟩,
  ⟨0x18070, [], .ro, 0x0, 0xFFFFFFFF, .counter⟩,
  ⟨0x18074, [], .ro, 0x0, 0xFFFFFFFF, .counter⟩,
  ⟨0x18078, [], .ro, 0x0, 0xFFFFFFFF, .counter⟩,
  ⟨0x1807C, [], .ro, 0x0, 0xFFFFFFFF, .counter⟩,
  ⟨0x18080, [], .ro, 0x0, 0xFFFFFFFF, .counter⟩,
  ⟨0x18084, [], .ro, 0x0, 0xFFFFFFFF, .counter⟩,
  ⟨0x18100, [], .ro, 0x0, 0xFFFFFFFF, .counter⟩,
  ⟨0x18104, [], .ro, 0x0, 0xFFFFFFFF, .counter⟩,
  ⟨0x1810C, [(6, 0x4)], .ro, 0x0, 0xFFFFFFFF, .held⟩,
  ⟨0x18124, [], .ro, 0x0, 0xFFFFFFFF, .held⟩,
  ⟨0x18128, [], .ro, 0x0, 0xFFFFFFFF, .held⟩,
  ⟨0x18208, [(13, 0x8)], .ro, 0x0, 0xFFFFFFFF, .counter⟩,
  ⟨0x1820C, [(13, 0x8)], .ro, 0x0, 0xFFFFFFFF, .counter⟩,
  ⟨0x19000, [(264, 0x10)], .ro, 0x0, 0xFFFFFFFF, .sample⟩,
  ⟨0x19004, [(264, 0x10)], .ro, 0x0, 0xFFFFFFFF, .held⟩,
  ⟨0x19008, [(264, 0x10)], .ro, 0x0, 0xFFFFFFFF, .held⟩,
  ⟨0x1900C, [(264, 0x10)], .ro, 0x0, 0xFFFFFFFF, .held⟩,
  ⟨0x1B000, [], .rw, 0x0, 0xF3F, .held⟩,
  ⟨0x1B004, [], .ro, 0x0, 0xFFFFFFFF, .sample⟩,
  ⟨0x1B008, [], .rw, 0x0, 0xFFFF, .held⟩,
  ⟨0x1B00C, [], .rw, 0x10, 0x7F, .held⟩]
/-- Registers of the CUP block, part 3. -/
def rowsCup3 : List RegRow := [
  ⟨0x1B010, [], .rw, 0x0, 0x1FFFF, .held⟩,
  ⟨0x1B014, [], .rw, 0x0, 0x1FFFF, .held⟩,
  ⟨0x1B018, [], .rw, 0x0, 0xFFFFFFFF, .held⟩,
  ⟨0x1B020, [], .rw, 0x0, 0xFFFFFFFF, .held⟩,
  ⟨0x1B024, [], .rw, 0x0, 0xFFFFFFFF, .held⟩,
  ⟨0x1B028, [], .rw, 0x0, 0xFFFFFFFF, .held⟩,
  ⟨0x1B030, [], .rw, 0x0, 0xFFFFFFFF, .held⟩,
  ⟨0x1B034, [], .rw, 0x0, 0xFFFFFFFF, .held⟩,
  ⟨0x1B038, [], .rw, 0x0, 0xFFFFFFFF, .held⟩,
  ⟨0x1B03C, [], .rw, 0x0, 0xFFFFFFFF, .held⟩,
  ⟨0x1B040, [], .rw, 0x0, 0xFFFFFFFF, .held⟩,
  ⟨0x1B044, [], .ro, 0x0, 0xFFFFFFFF, .sample⟩,
  ⟨0x1B048, [], .ro, 0x0, 0xFFFFFFFF, .held⟩,
  ⟨0x1B04C, [], .ro, 0x0, 0xFFFFFFFF, .held⟩,
  ⟨0x1B050, [], .ro, 0x0, 0xFFFFFFFF, .held⟩,
  ⟨0x1B054, [], .ro, 0x0, 0xFFFFFFFF, .held⟩,
  ⟨0x1B058, [], .rw, 0x0, 0xFFFFFFFF, .held⟩,
  ⟨0x1B05C, [], .rw, 0x0, 0x800001FF, .held⟩,
  ⟨0x1B060, [], .ro, 0x0, 0xFFFFFFFF, .counter⟩,
  ⟨0x1B064, [], .ro, 0x0, 0xFFFFFFFF, .counter⟩,
  ⟨0x1B068, [], .ro, 0x0, 0xFFFFFFFF, .counter⟩,
  ⟨0x1B06C, [], .ro, 0x0, 0xFFFFFFFF, .counter⟩,
  ⟨0x1B070, [], .ro, 0x0, 0xFFFFFFFF, .counter⟩,
  ⟨0x1B074, [], .ro, 0x0, 0xFFFFFFFF, .counter⟩,
  ⟨0x1B078, [], .ro, 0x0, 0xFFFFFFFF, .counter⟩]
/-- Registers of the CUP block, part 4. -/
def rowsCup4 : List RegRow := [
  ⟨0x1B07C, [], .ro, 0x0, 0xFFFFFFFF, .counter⟩,
  ⟨0x1B080, [], .ro, 0x0, 0xFFFFFFFF, .counter⟩,
  ⟨0x1B084, [], .ro, 0x0, 0xFFFFFFFF, .counter⟩,
  ⟨0x1B088, [], .ro, 0x0, 0xFFFFFFFF, .counter⟩,
  ⟨0x1B08C, [], .ro, 0x0, 0xFFFFFFFF, .counter⟩,
  ⟨0x1B100, [(64, 0x10)], .rw, 0x0, 0xFFFFFFFF, .held⟩,
  ⟨0x1B104, [(64, 0x10)], .rw, 0x0, 0xFFFFFFFF, .held⟩,
  ⟨0x1B108, [(64, 0x10)], .rw, 0x0, 0x3, .held⟩,
  ⟨0x1C000, [], .rw, 0x0, 0xFFFF00F7, .held⟩,
  ⟨0x1C004, [], .rw, 0x0, 0xFFFF0000, .sample⟩,
  ⟨0x1C008, [], .ro, 0x0, 0xFFFFFFFF, .held⟩,
  ⟨0x1C010, [], .ro, 0x0, 0xFFFFFFFF, .counter⟩,
  ⟨0x1C014, [], .ro, 0x0, 0xFFFFFFFF, .counter⟩,
  ⟨0x1C018, [], .ro, 0x0, 0xFFFFFFFF, .held⟩,
  ⟨0x1C020, [], .ro, 0x0, 0xFFFFFFFF, .counter⟩,
  ⟨0x1C024, [], .ro, 0x0, 0xFFFFFFFF, .counter⟩,
  ⟨0x1C028, [], .ro, 0x0, 0xFFFFFFFF, .counter⟩,
  ⟨0x1C02C, [], .ro, 0x0, 0xFFFFFFFF, .counter⟩,
  ⟨0x1C030, [], .ro, 0x0, 0xFFFFFFFF, .held⟩,
  ⟨0x1D000, [], .ro, 0x0, 0xFFFFFFFF, .sample⟩,
  ⟨0x1D004, [], .ro, 0x0, 0xFFFFFFFF, .sample⟩,
  ⟨0x1D008, [], .ro, 0x0, 0xFFFFFFFF, .held⟩,
  ⟨0x1D00C, [], .ro, 0x0, 0xFFFFFFFF, .held⟩,
  ⟨0x1D010, [], .ro, 0x0, 0xFFFFFFFF, .sample⟩,
  ⟨0x1D014, [], .rw, 0x0, 0x1, .held⟩]
/-- Registers of the CUP block, part 5. -/
def rowsCup5 : List RegRow := [
  ⟨0x1D018, [], .ro, 0x0, 0xFFFFFFFF, .sample⟩,
  ⟨0x1D01C, [], .ro, 0x0, 0xFFFFFFFF, .held⟩,
  ⟨0x1D020, [], .ro, 0x0, 0xFFFFFFFF, .counter⟩,
  ⟨0x1D024, [], .ro, 0x0, 0xFFFFFFFF, .counter⟩,
  ⟨0x1D028, [], .ro, 0x0, 0xFFFFFFFF, .counter⟩,
  ⟨0x1D02C, [], .ro, 0x0, 0xFFFFFFFF, .counter⟩,
  ⟨0x1D030, [], .ro, 0x0, 0xFFFFFFFF, .counter⟩,
  ⟨0x1D034, [], .ro, 0x0, 0xFFFFFFFF, .counter⟩,
  ⟨0x1D038, [], .ro, 0x0, 0xFFFFFFFF, .counter⟩,
  ⟨0x1D03C, [], .ro, 0x0, 0xFFFFFFFF, .counter⟩]
/-- Every register of the CUP block. -/
def rowsCup : List RegRow := rowsCup0 ++ rowsCup1 ++ rowsCup2 ++ rowsCup3 ++ rowsCup4 ++ rowsCup5
/-- Registers of the HLG block, part 0. -/
def rowsHlg0 : List RegRow := [
  ⟨0x20000, [], .ro, 0x0, 0xFFFFFFFF, .sample⟩,
  ⟨0x20004, [], .rw, 0x30000000, 0x3FFF0001, .held⟩,
  ⟨0x20008, [], .ro, 0x1, 0xFFFFFFFF, .held⟩,
  ⟨0x2000C, [], .ro, 0x1, 0xFFFFFFFF, .held⟩,
  ⟨0x20010, [], .ro, 0x0, 0xFFFFFFFF, .counter⟩,
  ⟨0x20014, [], .ro, 0x0, 0xFFFFFFFF, .counter⟩,
  ⟨0x20018, [], .ro, 0x0, 0xFFFFFFFF, .counter⟩,
  ⟨0x2001C, [], .ro, 0x0, 0xFFFFFFFF, .counter⟩,
  ⟨0x20020, [], .rw, 0x0, 0x7FF, .held⟩,
  ⟨0x24000, [(10, 0x400), (256, 0x4)], .ro, 0x0, 0xFFFFFFFF, .held⟩]
/-- Every register of the HLG block. -/
def rowsHlg : List RegRow := rowsHlg0
/-- Registers of the TND block, part 0. -/
def rowsTnd0 : List RegRow := [
  ⟨0x30000, [], .ro, 0x0, 0xFFFFFFFF, .sample⟩,
  ⟨0x30004, [], .rwl, 0x64, 0xFFF, .held⟩,
  ⟨0x30008, [], .rw, 0x0, 0x7, .held⟩,
  ⟨0x30010, [], .ro, 0x0, 0xFFFFFFFF, .counter⟩,
  ⟨0x30014, [], .ro, 0x0, 0xFFFFFFFF, .counter⟩,
  ⟨0x30018, [], .ro, 0x0, 0xFFFFFFFF, .sample⟩,
  ⟨0x30100, [(16, 0x80)], .rw, 0x0, 0x1FFFF7, .held⟩,
  ⟨0x30104, [(16, 0x80)], .ro, 0x0, 0xFFFFFFFF, .sample⟩,
  ⟨0x30110, [(16, 0x80), (8, 0x4)], .rw, 0x0, 0xFFFFFFFF, .held⟩,
  ⟨0x30130, [(16, 0x80)], .rw, 0x0, 0xFFFFFFFF, .held⟩,
  ⟨0x30134, [(16, 0x80)], .rw, 0x0, 0xFFFFFFFF, .held⟩,
  ⟨0x30138, [(16, 0x80)], .rw, 0x0, 0xFFFFFFFF, .held⟩,
  ⟨0x3013C, [(16, 0x80)], .rw, 0x0, 0xFFFFFFFF, .held⟩,
  ⟨0x30140, [(16, 0x80)], .rw, 0x0, 0xFFFFFFFF, .held⟩,
  ⟨0x30144, [(16, 0x80)], .rw, 0x0, 0xFFFFFFFF, .held⟩,
  ⟨0x30148, [(16, 0x80)], .rw, 0x0, 0x1, .held⟩,
  ⟨0x3014C, [(16, 0x80)], .ro, 0x0, 0xFFFFFFFF, .sample⟩,
  ⟨0x30150, [(16, 0x80)], .ro, 0x0, 0xFFFFFFFF, .held⟩,
  ⟨0x30154, [(16, 0x80)], .rw, 0x1000, 0xFFFF, .held⟩,
  ⟨0x30158, [(16, 0x80)], .ro, 0x0, 0xFFFFFFFF, .counter⟩,
  ⟨0x3015C, [(16, 0x80)], .ro, 0x0, 0xFFFFFFFF, .counter⟩,
  ⟨0x30160, [(16, 0x80)], .ro, 0x0, 0xFFFFFFFF, .counter⟩,
  ⟨0x30164, [(16, 0x80)], .ro, 0x0, 0xFFFFFFFF, .counter⟩,
  ⟨0x30168, [(16, 0x80)], .ro, 0x0, 0xFFFFFFFF, .held⟩,
  ⟨0x30170, [(16, 0x80)], .rw, 0x0, 0xFFFFFFFF, .held⟩]
/-- Registers of the TND block, part 1. -/
def rowsTnd1 : List RegRow := [
  ⟨0x30174, [(16, 0x80)], .rw, 0x0, 0xFFFFFFFF, .held⟩,
  ⟨0x31000, [(2, 0x800), (256, 0x8)], .rw, 0x0, 0x7FFFF, .held⟩,
  ⟨0x31004, [(2, 0x800), (256, 0x8)], .rw, 0x0, 0xFFF, .held⟩,
  ⟨0x32000, [(1024, 0x10)], .rw, 0x0, 0xFFFFFFFF, .held⟩,
  ⟨0x32004, [(1024, 0x10)], .rw, 0x0, 0x1F3F, .held⟩,
  ⟨0x32008, [(1024, 0x10)], .ro, 0x0, 0xFFFFFFFF, .sample⟩,
  ⟨0x36000, [], .ro, 0x0, 0xFFFFFFFF, .counter⟩,
  ⟨0x36004, [], .ro, 0x0, 0xFFFFFFFF, .counter⟩,
  ⟨0x36008, [], .ro, 0x0, 0xFFFFFFFF, .counter⟩,
  ⟨0x3600C, [], .ro, 0x0, 0xFFFFFFFF, .counter⟩,
  ⟨0x36010, [], .ro, 0x0, 0xFFFFFFFF, .counter⟩,
  ⟨0x36014, [], .ro, 0x0, 0xFFFFFFFF, .counter⟩,
  ⟨0x36018, [], .ro, 0x0, 0xFFFFFFFF, .counter⟩,
  ⟨0x3601C, [], .ro, 0x0, 0xFFFFFFFF, .counter⟩,
  ⟨0x36020, [], .ro, 0x0, 0xFFFFFFFF, .counter⟩,
  ⟨0x36024, [], .ro, 0x0, 0xFFFFFFFF, .counter⟩,
  ⟨0x36028, [], .ro, 0x0, 0xFFFFFFFF, .counter⟩,
  ⟨0x3602C, [], .ro, 0x0, 0xFFFFFFFF, .counter⟩,
  ⟨0x36030, [], .ro, 0x0, 0xFFFFFFFF, .counter⟩,
  ⟨0x36034, [], .ro, 0x0, 0xFFFFFFFF, .counter⟩,
  ⟨0x36038, [], .ro, 0x0, 0xFFFFFFFF, .counter⟩,
  ⟨0x3603C, [], .ro, 0x0, 0xFFFFFFFF, .counter⟩,
  ⟨0x37000, [(256, 0x4)], .ro, 0x0, 0xFFFFFFFF, .sample⟩,
  ⟨0x37400, [(4, 0x4)], .ro, 0x3, 0xFFFFFFFF, .sample⟩,
  ⟨0x37420, [], .rw, 0x0, 0x800000FF, .held⟩]
/-- Every register of the TND block. -/
def rowsTnd : List RegRow := rowsTnd0 ++ rowsTnd1
/-- Registers of the ALY block, part 0. -/
def rowsAly0 : List RegRow := [
  ⟨0x40000, [(256, 0x100)], .rw, 0x0, 0x3FFFFF7, .held⟩,
  ⟨0x40004, [(256, 0x100)], .ro, 0x0, 0xFFFFFFFF, .sample⟩,
  ⟨0x40008, [(256, 0x100)], .rw, 0x0, 0xFFFF, .held⟩,
  ⟨0x4000C, [(256, 0x100)], .rw, 0x0, 0xFFFF, .held⟩,
  ⟨0x40010, [(256, 0x100)], .rw, 0x0, 0x1F01FFFF, .held⟩,
  ⟨0x40014, [(256, 0x100)], .rw, 0xF, 0x1F, .held⟩,
  ⟨0x40018, [(256, 0x100)], .rw, 0x0, 0xFFFFFFFF, .held⟩,
  ⟨0x4001C, [(256, 0x100)], .rw, 0x0, 0xFFFFFFFF, .held⟩,
  ⟨0x40020, [(256, 0x100)], .rw, 0x0, 0xFFFFFFFF, .held⟩,
  ⟨0x40024, [(256, 0x100)], .rw, 0x0, 0xFFFFFFFF, .held⟩,
  ⟨0x40040, [(256, 0x100)], .ro, 0x0, 0xFFFFFFFF, .counter⟩,
  ⟨0x40044, [(256, 0x100)], .ro, 0x0, 0xFFFFFFFF, .counter⟩,
  ⟨0x40048, [(256, 0x100)], .ro, 0x0, 0xFFFFFFFF, .counter⟩,
  ⟨0x4004C, [(256, 0x100)], .ro, 0x0, 0xFFFFFFFF, .counter⟩,
  ⟨0x40050, [(256, 0x100)], .ro, 0x0, 0xFFFFFFFF, .counter⟩,
  ⟨0x40054, [(256, 0x100)], .ro, 0x0, 0xFFFFFFFF, .counter⟩,
  ⟨0x40058, [(256, 0x100)], .ro, 0x0, 0xFFFFFFFF, .counter⟩,
  ⟨0x4005C, [(256, 0x100)], .ro, 0x0, 0xFFFFFFFF, .counter⟩,
  ⟨0x40060, [(256, 0x100)], .ro, 0x0, 0xFFFFFFFF, .counter⟩,
  ⟨0x40064, [(256, 0x100)], .ro, 0x0, 0xFFFFFFFF, .counter⟩,
  ⟨0x40068, [(256, 0x100)], .ro, 0x0, 0xFFFFFFFF, .counter⟩,
  ⟨0x4006C, [(256, 0x100)], .ro, 0x0, 0xFFFFFFFF, .counter⟩,
  ⟨0x40070, [(256, 0x100)], .ro, 0x0, 0xFFFFFFFF, .counter⟩,
  ⟨0x40074, [(256, 0x100)], .ro, 0x0, 0xFFFFFFFF, .counter⟩,
  ⟨0x40078, [(256, 0x100)], .ro, 0x0, 0xFFFFFFFF, .held⟩]
/-- Registers of the ALY block, part 1. -/
def rowsAly1 : List RegRow := [
  ⟨0x40080, [(256, 0x100), (16, 0x4)], .ro, 0x0, 0xFFFFFFFF, .held⟩]
/-- Every register of the ALY block. -/
def rowsAly : List RegRow := rowsAly0 ++ rowsAly1
/-- Registers of the LDL block, part 0. -/
def rowsLdl0 : List RegRow := [
  ⟨0x50000, [], .ro, 0x0, 0xFFFFFFFF, .sample⟩,
  ⟨0x50004, [], .rwl, 0x8, 0xF, .held⟩,
  ⟨0x50100, [], .ro, 0x0, 0xFFFFFFFF, .counter⟩,
  ⟨0x50104, [], .ro, 0x0, 0xFFFFFFFF, .counter⟩,
  ⟨0x50108, [], .ro, 0x0, 0xFFFFFFFF, .counter⟩,
  ⟨0x5010C, [], .ro, 0x0, 0xFFFFFFFF, .counter⟩,
  ⟨0x50110, [], .ro, 0x0, 0xFFFFFFFF, .counter⟩,
  ⟨0x50114, [], .ro, 0x0, 0xFFFFFFFF, .counter⟩,
  ⟨0x50118, [], .ro, 0x0, 0xFFFFFFFF, .counter⟩,
  ⟨0x5011C, [], .ro, 0x0, 0xFFFFFFFF, .counter⟩,
  ⟨0x50120, [], .ro, 0x0, 0xFFFFFFFF, .counter⟩,
  ⟨0x50124, [], .ro, 0x0, 0xFFFFFFFF, .counter⟩,
  ⟨0x50128, [], .ro, 0x0, 0xFFFFFFFF, .counter⟩,
  ⟨0x5012C, [], .ro, 0x0, 0xFFFFFFFF, .counter⟩,
  ⟨0x50130, [], .ro, 0x0, 0xFFFFFFFF, .counter⟩,
  ⟨0x50134, [], .ro, 0x0, 0xFFFFFFFF, .counter⟩,
  ⟨0x50138, [], .ro, 0x0, 0xFFFFFFFF, .counter⟩,
  ⟨0x5013C, [], .ro, 0x0, 0xFFFFFFFF, .counter⟩,
  ⟨0x50140, [], .ro, 0x0, 0xFFFFFFFF, .counter⟩,
  ⟨0x50144, [], .ro, 0x0, 0xFFFFFFFF, .counter⟩,
  ⟨0x50148, [], .ro, 0x0, 0xFFFFFFFF, .counter⟩,
  ⟨0x5014C, [], .ro, 0x0, 0xFFFFFFFF, .counter⟩,
  ⟨0x50150, [], .ro, 0x0, 0xFFFFFFFF, .counter⟩,
  ⟨0x50154, [], .ro, 0x0, 0xFFFFFFFF, .counter⟩,
  ⟨0x50158, [], .ro, 0x0, 0xFFFFFFFF, .counter⟩]
/-- Registers of the LDL block, part 1. -/
def rowsLdl1 : List RegRow := [
  ⟨0x5015C, [], .ro, 0x0, 0xFFFFFFFF, .counter⟩,
  ⟨0x50160, [], .ro, 0x0, 0xFFFFFFFF, .counter⟩,
  ⟨0x50164, [], .ro, 0x0, 0xFFFFFFFF, .counter⟩,
  ⟨0x50168, [], .ro, 0x0, 0xFFFFFFFF, .counter⟩,
  ⟨0x5016C, [], .ro, 0x0, 0xFFFFFFFF, .counter⟩,
  ⟨0x51000, [(16, 0x40)], .rw, 0x0, 0xFFFFFFFF, .held⟩,
  ⟨0x51004, [(16, 0x40)], .rw, 0x0, 0xFFFFFFFF, .held⟩,
  ⟨0x51008, [(16, 0x40)], .rw, 0x0, 0xFFFFFFFF, .held⟩,
  ⟨0x5100C, [(16, 0x40)], .rw, 0x0, 0x1, .held⟩,
  ⟨0x51010, [(16, 0x40)], .rw, 0x0, 0xFFFFFFFF, .held⟩,
  ⟨0x51014, [(16, 0x40)], .rw, 0x0, 0xFFFFFFFF, .held⟩,
  ⟨0x51018, [(16, 0x40)], .rw, 0x0, 0xFFFFFFFF, .held⟩,
  ⟨0x5101C, [(16, 0x40)], .rw, 0x0, 0xFFFFFFFF, .held⟩,
  ⟨0x51020, [(16, 0x40)], .rw, 0x0, 0xFFFFFFFF, .held⟩,
  ⟨0x51024, [(16, 0x40)], .rw, 0x0, 0xFFFFFFFF, .held⟩,
  ⟨0x51028, [(16, 0x40)], .rw, 0x0, 0xFFFFFFFF, .held⟩,
  ⟨0x5102C, [(16, 0x40)], .rw, 0x0, 0xFFFFFFFF, .held⟩,
  ⟨0x51030, [(16, 0x40)], .ro, 0x0, 0xFFFFFFFF, .sample⟩,
  ⟨0x51034, [(16, 0x40)], .ro, 0x0, 0xFFFFFFFF, .sample⟩,
  ⟨0x52000, [(16, 0x80), (8, 0x10)], .rw, 0x0, 0xFFFFFFFF, .held⟩,
  ⟨0x52004, [(16, 0x80), (8, 0x10)], .rw, 0x0, 0xFFFFFFFF, .held⟩,
  ⟨0x52008, [(16, 0x80), (8, 0x10)], .rw, 0x0, 0x3, .held⟩,
  ⟨0x54000, [(64, 0x10)], .ro, 0x0, 0xFFFFFFFF, .sample⟩,
  ⟨0x54004, [(64, 0x10)], .ro, 0x0, 0xFFFFFFFF, .sample⟩,
  ⟨0x54008, [(64, 0x10)], .ro, 0x0, 0xFFFFFFFF, .sample⟩]
/-- Registers of the LDL block, part 2. -/
def rowsLdl2 : List RegRow := [
  ⟨0x5400C, [(64, 0x10)], .ro, 0x0, 0xFFFFFFFF, .sample⟩,
  ⟨0x56000, [], .ro, 0x0, 0xFFFFFFFF, .sample⟩,
  ⟨0x56004, [], .rw, 0x7, 0xF07, .held⟩,
  ⟨0x56008, [], .rw, 0x47800000, 0xFFFFFFFF, .held⟩,
  ⟨0x5600C, [], .rw, 0x4B800000, 0xFFFFFFFF, .held⟩,
  ⟨0x56010, [], .rw, 0x7D0, 0xFFFFFFFF, .held⟩,
  ⟨0x56014, [], .rw, 0x0, 0xFFFFFFFF, .held⟩,
  ⟨0x56018, [], .ro, 0x0, 0xFFFFFFFF, .counter⟩,
  ⟨0x5601C, [], .ro, 0x0, 0xFFFFFFFF, .counter⟩,
  ⟨0x56020, [], .ro, 0x0, 0xFFFFFFFF, .counter⟩,
  ⟨0x56024, [], .ro, 0x0, 0xFFFFFFFF, .counter⟩,
  ⟨0x56028, [], .ro, 0x0, 0xFFFFFFFF, .counter⟩,
  ⟨0x5602C, [], .ro, 0x0, 0xFFFFFFFF, .counter⟩,
  ⟨0x56030, [], .ro, 0x0, 0xFFFFFFFF, .counter⟩,
  ⟨0x56034, [], .ro, 0x0, 0xFFFFFFFF, .counter⟩,
  ⟨0x56038, [], .ro, 0x0, 0xFFFFFFFF, .counter⟩,
  ⟨0x5603C, [], .ro, 0x0, 0xFFFFFFFF, .counter⟩,
  ⟨0x56040, [], .rw, 0x400005, 0xFFFF001F, .held⟩,
  ⟨0x56044, [], .rw, 0x40C00000, 0xFFFFFFFF, .held⟩,
  ⟨0x56048, [], .rw, 0x0, 0xFFFFFFFF, .held⟩,
  ⟨0x5604C, [], .rw, 0x0, 0xFFFFFFFF, .held⟩,
  ⟨0x56050, [], .rw, 0x0, 0xFFFF, .held⟩,
  ⟨0x56054, [], .ro, 0x0, 0xFFFFFFFF, .held⟩,
  ⟨0x56058, [], .ro, 0x0, 0xFFFFFFFF, .counter⟩,
  ⟨0x5605C, [], .ro, 0x0, 0xFFFFFFFF, .counter⟩]
/-- Registers of the LDL block, part 3. -/
def rowsLdl3 : List RegRow := [
  ⟨0x56060, [], .ro, 0x0, 0xFFFFFFFF, .sample⟩,
  ⟨0x56064, [], .ro, 0x0, 0xFFFFFFFF, .held⟩,
  ⟨0x56068, [], .ro, 0x0, 0xFFFFFFFF, .counter⟩,
  ⟨0x5606C, [], .ro, 0x0, 0xFFFFFFFF, .counter⟩,
  ⟨0x56100, [(16, 0x20)], .rw, 0x0, 0xFFFFFFFF, .held⟩,
  ⟨0x56104, [(16, 0x20)], .rw, 0x0, 0xFFFFFFFF, .held⟩,
  ⟨0x56108, [(16, 0x20)], .rw, 0x0, 0xFFFFFFFF, .held⟩,
  ⟨0x5610C, [(16, 0x20)], .w1c, 0x0, 0x1, .held⟩,
  ⟨0x56300, [], .ro, 0x0, 0xFFFFFFFF, .counter⟩,
  ⟨0x56304, [], .ro, 0x0, 0xFFFFFFFF, .counter⟩,
  ⟨0x56308, [], .ro, 0x0, 0xFFFFFFFF, .counter⟩,
  ⟨0x5630C, [], .ro, 0x0, 0xFFFFFFFF, .counter⟩,
  ⟨0x56310, [], .ro, 0x0, 0xFFFFFFFF, .counter⟩,
  ⟨0x56314, [], .ro, 0x0, 0xFFFFFFFF, .counter⟩,
  ⟨0x56318, [], .ro, 0x0, 0xFFFFFFFF, .counter⟩,
  ⟨0x5631C, [], .ro, 0x0, 0xFFFFFFFF, .counter⟩,
  ⟨0x56320, [], .ro, 0x0, 0xFFFFFFFF, .counter⟩,
  ⟨0x56324, [], .ro, 0x0, 0xFFFFFFFF, .counter⟩]
/-- Every register of the LDL block. -/
def rowsLdl : List RegRow := rowsLdl0 ++ rowsLdl1 ++ rowsLdl2 ++ rowsLdl3
/-- Registers of the MEMFAR block, part 0. -/
def rowsMemFar0 : List RegRow := [
  ⟨0x60000, [(8, 0x1000)], .ro, 0x0, 0xFFFFFFFF, .sample⟩,
  ⟨0x60004, [(8, 0x1000)], .rw, 0x10018, 0x1FFFF, .held⟩,
  ⟨0x60008, [(8, 0x1000)], .ro, 0x0, 0xFFFFFFFF, .counter⟩,
  ⟨0x6000C, [(8, 0x1000)], .ro, 0x0, 0xFFFFFFFF, .counter⟩,
  ⟨0x60010, [(8, 0x1000)], .ro, 0x0, 0xFFFFFFFF, .counter⟩,
  ⟨0x60014, [(8, 0x1000)], .ro, 0x0, 0xFFFFFFFF, .counter⟩,
  ⟨0x60018, [(8, 0x1000)], .ro, 0x0, 0xFFFFFFFF, .counter⟩,
  ⟨0x6001C, [(8, 0x1000)], .ro, 0x0, 0xFFFFFFFF, .counter⟩,
  ⟨0x60020, [(8, 0x1000)], .ro, 0x0, 0xFFFFFFFF, .counter⟩,
  ⟨0x60024, [(8, 0x1000)], .ro, 0x0, 0xFFFFFFFF, .counter⟩,
  ⟨0x60028, [(8, 0x1000)], .ro, 0x0, 0xFFFFFFFF, .counter⟩,
  ⟨0x6002C, [(8, 0x1000)], .ro, 0x0, 0xFFFFFFFF, .counter⟩,
  ⟨0x60030, [(8, 0x1000)], .ro, 0x0, 0xFFFFFFFF, .counter⟩,
  ⟨0x60034, [(8, 0x1000)], .ro, 0x0, 0xFFFFFFFF, .counter⟩,
  ⟨0x70000, [(8, 0x1000)], .ro, 0x0, 0xFFFFFFFF, .sample⟩,
  ⟨0x70004, [(8, 0x1000)], .rw, 0x10018, 0x1FFFF, .held⟩,
  ⟨0x70008, [(8, 0x1000)], .ro, 0x0, 0xFFFFFFFF, .counter⟩,
  ⟨0x7000C, [(8, 0x1000)], .ro, 0x0, 0xFFFFFFFF, .counter⟩,
  ⟨0x70010, [(8, 0x1000)], .ro, 0x0, 0xFFFFFFFF, .counter⟩,
  ⟨0x70014, [(8, 0x1000)], .ro, 0x0, 0xFFFFFFFF, .counter⟩,
  ⟨0x70018, [(8, 0x1000)], .ro, 0x0, 0xFFFFFFFF, .counter⟩,
  ⟨0x7001C, [(8, 0x1000)], .ro, 0x0, 0xFFFFFFFF, .counter⟩,
  ⟨0x70020, [(8, 0x1000)], .ro, 0x0, 0xFFFFFFFF, .counter⟩,
  ⟨0x70024, [(8, 0x1000)], .ro, 0x0, 0xFFFFFFFF, .counter⟩,
  ⟨0x70028, [(8, 0x1000)], .ro, 0x0, 0xFFFFFFFF, .counter⟩]
/-- Registers of the MEMFAR block, part 1. -/
def rowsMemFar1 : List RegRow := [
  ⟨0x7002C, [(8, 0x1000)], .ro, 0x0, 0xFFFFFFFF, .counter⟩,
  ⟨0x70030, [(8, 0x1000)], .ro, 0x0, 0xFFFFFFFF, .counter⟩,
  ⟨0x70034, [(8, 0x1000)], .ro, 0x0, 0xFFFFFFFF, .counter⟩]
/-- Every register of the MEMFAR block. -/
def rowsMemFar : List RegRow := rowsMemFar0 ++ rowsMemFar1
/-- Registers of the FLK block, part 0. -/
def rowsFlk0 : List RegRow := [
  ⟨0x80000, [], .ro, 0x0, 0xFFFFFFFF, .sample⟩,
  ⟨0x80004, [], .rw, 0x0, 0x7, .held⟩,
  ⟨0x80008, [], .rwl, 0x0, 0x7F, .held⟩,
  ⟨0x80010, [], .rwl, 0x0, 0xFFFFFFFF, .held⟩,
  ⟨0x80014, [], .rwl, 0x0, 0xFFFFFFFF, .held⟩,
  ⟨0x80018, [], .rwl, 0x0, 0xFFFFFFFF, .held⟩,
  ⟨0x8001C, [], .rwl, 0x0, 0xFFFFFFFF, .held⟩,
  ⟨0x80020, [], .rwl, 0x0, 0xFFFFFFFF, .held⟩,
  ⟨0x80024, [], .rwl, 0x0, 0xFFFFFFFF, .held⟩,
  ⟨0x80028, [], .rwl, 0x0, 0xF, .held⟩,
  ⟨0x8002C, [], .rw, 0xFFFF, 0xFFFF, .held⟩,
  ⟨0x80030, [], .ro, 0x0, 0xFFFFFFFF, .held⟩,
  ⟨0x80100, [(16, 0x4)], .rw, 0x0, 0xF, .held⟩,
  ⟨0x80200, [(8, 0x10)], .rw, 0x0, 0xFFFFFFFF, .held⟩,
  ⟨0x80204, [(8, 0x10)], .rw, 0x0, 0xFFFFFFFF, .held⟩,
  ⟨0x80208, [(8, 0x10)], .rw, 0x0, 0x7, .held⟩,
  ⟨0x8020C, [(8, 0x10)], .rw, 0x0, 0xFFFF, .held⟩,
  ⟨0x80800, [], .ro, 0x0, 0xFFFFFFFF, .counter⟩,
  ⟨0x80804, [], .ro, 0x0, 0xFFFFFFFF, .counter⟩,
  ⟨0x80808, [], .ro, 0x0, 0xFFFFFFFF, .counter⟩,
  ⟨0x8080C, [], .ro, 0x0, 0xFFFFFFFF, .counter⟩,
  ⟨0x80810, [], .ro, 0x0, 0xFFFFFFFF, .counter⟩,
  ⟨0x80814, [], .ro, 0x0, 0xFFFFFFFF, .counter⟩,
  ⟨0x80818, [], .ro, 0x0, 0xFFFFFFFF, .counter⟩,
  ⟨0x8081C, [], .ro, 0x0, 0xFFFFFFFF, .counter⟩]
/-- Registers of the FLK block, part 1. -/
def rowsFlk1 : List RegRow := [
  ⟨0x80820, [], .ro, 0x0, 0xFFFFFFFF, .counter⟩,
  ⟨0x80824, [], .ro, 0x0, 0xFFFFFFFF, .counter⟩,
  ⟨0x80828, [], .ro, 0x0, 0xFFFFFFFF, .counter⟩,
  ⟨0x8082C, [], .ro, 0x0, 0xFFFFFFFF, .counter⟩,
  ⟨0x80830, [], .ro, 0x0, 0xFFFFFFFF, .counter⟩,
  ⟨0x80834, [], .ro, 0x0, 0xFFFFFFFF, .counter⟩,
  ⟨0x80838, [], .ro, 0x0, 0xFFFFFFFF, .counter⟩,
  ⟨0x8083C, [], .ro, 0x0, 0xFFFFFFFF, .counter⟩,
  ⟨0x81000, [(256, 0x20)], .rw, 0x0, 0xFFFFFFF, .held⟩,
  ⟨0x81004, [(256, 0x20)], .rw, 0x0, 0xFFFFFFFF, .held⟩,
  ⟨0x81008, [(256, 0x20)], .rw, 0x0, 0xFFFFFFFF, .held⟩,
  ⟨0x8100C, [(256, 0x20)], .rw, 0x0, 0xFFFF1FFF, .held⟩,
  ⟨0x81010, [(256, 0x20)], .ro, 0x0, 0xFFFFFFFF, .counter⟩,
  ⟨0x81014, [(256, 0x20)], .ro, 0x0, 0xFFFFFFFF, .counter⟩,
  ⟨0x81018, [(256, 0x20)], .ro, 0x0, 0xFFFFFFFF, .held⟩,
  ⟨0x8101C, [(256, 0x20)], .ro, 0x0, 0xFFFFFFFF, .held⟩]
/-- Every register of the FLK block. -/
def rowsFlk : List RegRow := rowsFlk0 ++ rowsFlk1
/-- Registers of the MTR block, part 0. -/
def rowsMtr0 : List RegRow := [
  ⟨0x90000, [], .ro, 0x0, 0xFFFFFFFF, .clock⟩,
  ⟨0x90004, [], .ro, 0x0, 0xFFFFFFFF, .clock⟩,
  ⟨0x90008, [], .ro, 0x0, 0xFFFFFFFF, .held⟩,
  ⟨0x9000C, [], .ro, 0x0, 0xFFFFFFFF, .sample⟩,
  ⟨0x90010, [], .rw, 0x0, 0xFFFFFFFF, .held⟩,
  ⟨0x90014, [], .rw, 0x0, 0xFFFFFFFF, .held⟩,
  ⟨0x90018, [], .rw, 0x0, 0xFFFFFFFF, .held⟩,
  ⟨0x9001C, [], .rw, 0x0, 0xFFFFFFFF, .held⟩,
  ⟨0x90020, [], .rw, 0x0, 0x1, .sample⟩,
  ⟨0x90024, [], .ro, 0x0, 0xFFFFFFFF, .held⟩,
  ⟨0x90028, [], .rw, 0x0, 0xFFFFFFFF, .held⟩,
  ⟨0x9002C, [], .rw, 0x0, 0xFFFFFFFF, .held⟩,
  ⟨0x90030, [], .rw, 0x0, 0x1, .sample⟩,
  ⟨0x90038, [], .ro, 0x0, 0xFFFFFFFF, .counter⟩,
  ⟨0x9003C, [], .ro, 0x0, 0xFFFFFFFF, .counter⟩,
  ⟨0x90040, [], .ro, 0x0, 0xFFFFFFFF, .counter⟩,
  ⟨0x90044, [], .ro, 0x0, 0xFFFFFFFF, .counter⟩,
  ⟨0x90048, [], .ro, 0x0, 0xFFFFFFFF, .held⟩,
  ⟨0x9004C, [], .rw, 0x0, 0xFFFFFFFF, .held⟩,
  ⟨0x91000, [(16, 0x40), (5, 0x8)], .ro, 0x0, 0xFFFFFFFF, .counter⟩,
  ⟨0x91004, [(16, 0x40), (5, 0x8)], .ro, 0x0, 0xFFFFFFFF, .counter⟩,
  ⟨0x98000, [(64, 0x400), (256, 0x4)], .ro, 0x0, 0xFFFFFFFF, .held⟩]
/-- Every register of the MTR block. -/
def rowsMtr : List RegRow := rowsMtr0
/-- Registers of the SPR block, part 0. -/
def rowsSpr0 : List RegRow := [
  ⟨0x100000, [(18, 0x4000), (2, 0x2000)], .ro, 0x0, 0xFFFFFFFF, .sample⟩,
  ⟨0x100004, [(18, 0x4000), (2, 0x2000)], .rw, 0x640001, 0xFFFF0007, .held⟩,
  ⟨0x100008, [(18, 0x4000), (2, 0x2000)], .rwl, 0x0, 0x7FF, .held⟩,
  ⟨0x10000C, [(18, 0x4000), (2, 0x2000)], .ro, 0x0, 0xFFFFFFFF, .held⟩,
  ⟨0x100010, [(18, 0x4000), (2, 0x2000)], .ro, 0x0, 0xFFFFFFFF, .held⟩,
  ⟨0x100014, [(18, 0x4000), (2, 0x2000)], .rw, 0xFFFF, 0xFFFF, .held⟩,
  ⟨0x100018, [(18, 0x4000), (2, 0x2000)], .ro, 0x0, 0xFFFFFFFF, .held⟩,
  ⟨0x10001C, [(18, 0x4000), (2, 0x2000)], .ro, 0x0, 0xFFFFFFFF, .held⟩,
  ⟨0x100040, [(18, 0x4000), (2, 0x2000)], .ro, 0x0, 0xFFFFFFFF, .counter⟩,
  ⟨0x100044, [(18, 0x4000), (2, 0x2000)], .ro, 0x0, 0xFFFFFFFF, .counter⟩,
  ⟨0x100048, [(18, 0x4000), (2, 0x2000)], .ro, 0x0, 0xFFFFFFFF, .counter⟩,
  ⟨0x10004C, [(18, 0x4000), (2, 0x2000)], .ro, 0x0, 0xFFFFFFFF, .counter⟩,
  ⟨0x100050, [(18, 0x4000), (2, 0x2000)], .ro, 0x0, 0xFFFFFFFF, .counter⟩,
  ⟨0x100054, [(18, 0x4000), (2, 0x2000)], .ro, 0x0, 0xFFFFFFFF, .counter⟩,
  ⟨0x100058, [(18, 0x4000), (2, 0x2000)], .ro, 0x0, 0xFFFFFFFF, .counter⟩,
  ⟨0x10005C, [(18, 0x4000), (2, 0x2000)], .ro, 0x0, 0xFFFFFFFF, .counter⟩,
  ⟨0x100060, [(18, 0x4000), (2, 0x2000)], .ro, 0x0, 0xFFFFFFFF, .counter⟩,
  ⟨0x100064, [(18, 0x4000), (2, 0x2000)], .ro, 0x0, 0xFFFFFFFF, .counter⟩,
  ⟨0x100068, [(18, 0x4000), (2, 0x2000)], .ro, 0x0, 0xFFFFFFFF, .counter⟩,
  ⟨0x10006C, [(18, 0x4000), (2, 0x2000)], .ro, 0x0, 0xFFFFFFFF, .counter⟩,
  ⟨0x100070, [(18, 0x4000), (2, 0x2000)], .ro, 0x0, 0xFFFFFFFF, .counter⟩,
  ⟨0x100074, [(18, 0x4000), (2, 0x2000)], .ro, 0x0, 0xFFFFFFFF, .counter⟩,
  ⟨0x100078, [(18, 0x4000), (2, 0x2000)], .ro, 0x0, 0xFFFFFFFF, .counter⟩,
  ⟨0x10007C, [(18, 0x4000), (2, 0x2000)], .ro, 0x0, 0xFFFFFFFF, .counter⟩,
  ⟨0x100080, [(18, 0x4000), (2, 0x2000)], .ro, 0x0, 0xFFFFFFFF, .counter⟩]
/-- Registers of the SPR block, part 1. -/
def rowsSpr1 : List RegRow := [
  ⟨0x100084, [(18, 0x4000), (2, 0x2000)], .ro, 0x0, 0xFFFFFFFF, .counter⟩,
  ⟨0x100088, [(18, 0x4000), (2, 0x2000)], .ro, 0x0, 0xFFFFFFFF, .counter⟩,
  ⟨0x10008C, [(18, 0x4000), (2, 0x2000)], .ro, 0x0, 0xFFFFFFFF, .counter⟩,
  ⟨0x100090, [(18, 0x4000), (2, 0x2000)], .ro, 0x0, 0xFFFFFFFF, .counter⟩,
  ⟨0x100094, [(18, 0x4000), (2, 0x2000)], .ro, 0x0, 0xFFFFFFFF, .counter⟩,
  ⟨0x100100, [(18, 0x4000), (2, 0x2000), (16, 0x4)], .ro, 0x0, 0xFFFFFFFF, .held⟩,
  ⟨0x148000, [], .rwl, 0x0, 0x1F1, .held⟩,
  ⟨0x148004, [], .rw, 0x0, 0x7FFFFFFF, .held⟩,
  ⟨0x148008, [], .rwl, 0x0, 0xFFFFFFFF, .held⟩,
  ⟨0x14800C, [], .rw, 0x0, 0xFFFF, .held⟩,
  ⟨0x148010, [], .rw, 0x0, 0xF, .held⟩,
  ⟨0x148014, [], .rw, 0x0, 0x13, .held⟩,
  ⟨0x148018, [], .rw, 0x0, 0xFFFF, .held⟩,
  ⟨0x14801C, [], .rw, 0x0, 0x800007FF, .sample⟩,
  ⟨0x148020, [(16, 0x4)], .ro, 0x0, 0xFFFFFFFF, .held⟩]
/-- Every register of the SPR block. -/
def rowsSpr : List RegRow := rowsSpr0 ++ rowsSpr1
/-- Registers of the CRU block, part 0. -/
def rowsCru0 : List RegRow := [
  ⟨0x1000000, [(256, 0x10000)], .ro, 0x0, 0xFFFFFFFF, .sample⟩,
  ⟨0x1000004, [(256, 0x10000)], .ro, 0x0, 0xFFFFFFFF, .sample⟩,
  ⟨0x1001000, [(256, 0x10000), (128, 0x40)], .rw, 0x0, 0xF7, .held⟩,
  ⟨0x1001004, [(256, 0x10000), (128, 0x40)], .ro, 0x0, 0xFFFFFFFF, .sample⟩,
  ⟨0x1001008, [(256, 0x10000), (128, 0x40)], .rw, 0x0, 0xFFFFFFFF, .held⟩,
  ⟨0x100100C, [(256, 0x10000), (128, 0x40)], .rw, 0x0, 0xFFFFFFFF, .held⟩,
  ⟨0x1001010, [(256, 0x10000), (128, 0x40)], .rw, 0x0, 0xFFFFFFFF, .held⟩,
  ⟨0x1001014, [(256, 0x10000), (128, 0x40)], .ro, 0x0, 0xFFFFFFFF, .held⟩,
  ⟨0x1001018, [(256, 0x10000), (128, 0x40)], .rw, 0x0, 0xFFFFFFFF, .held⟩,
  ⟨0x100101C, [(256, 0x10000), (128, 0x40)], .ro, 0x0, 0xFFFFFFFF, .held⟩,
  ⟨0x1001020, [(256, 0x10000), (128, 0x40)], .ro, 0x0, 0xFFFFFFFF, .held⟩,
  ⟨0x1001024, [(256, 0x10000), (128, 0x40)], .rw, 0x0, 0xFFFFFFE0, .held⟩,
  ⟨0x1001028, [(256, 0x10000), (128, 0x40)], .rw, 0x0, 0xFFFFFFFF, .held⟩,
  ⟨0x100102C, [(256, 0x10000), (128, 0x40)], .rw, 0x0, 0x7FF003F, .held⟩,
  ⟨0x1001030, [(256, 0x10000), (128, 0x40)], .rw, 0x0, 0xFFFFFFFF, .held⟩,
  ⟨0x1001034, [(256, 0x10000), (128, 0x40)], .ro, 0x0, 0xFFFFFFFF, .held⟩,
  ⟨0x1001038, [(256, 0x10000), (128, 0x40)], .ro, 0x0, 0xFFFFFFFF, .held⟩,
  ⟨0x100103C, [(256, 0x10000), (128, 0x40)], .ro, 0x0, 0xFFFFFFFF, .held⟩,
  ⟨0x1004000, [(256, 0x10000), (16, 0x100), (64, 0x4)], .rw, 0x0, 0xFFFFFFFF, .held⟩,
  ⟨0x1006000, [(256, 0x10000)], .ro, 0x0, 0xFFFFFFFF, .counter⟩,
  ⟨0x1006004, [(256, 0x10000)], .ro, 0x0, 0xFFFFFFFF, .counter⟩,
  ⟨0x1006008, [(256, 0x10000)], .ro, 0x0, 0xFFFFFFFF, .counter⟩,
  ⟨0x100600C, [(256, 0x10000)], .ro, 0x0, 0xFFFFFFFF, .counter⟩,
  ⟨0x1006010, [(256, 0x10000)], .ro, 0x0, 0xFFFFFFFF, .counter⟩,
  ⟨0x1006014, [(256, 0x10000)], .ro, 0x0, 0xFFFFFFFF, .counter⟩]
/-- Registers of the CRU block, part 1. -/
def rowsCru1 : List RegRow := [
  ⟨0x1006018, [(256, 0x10000)], .ro, 0x0, 0xFFFFFFFF, .counter⟩,
  ⟨0x100601C, [(256, 0x10000)], .ro, 0x0, 0xFFFFFFFF, .counter⟩,
  ⟨0x1006020, [(256, 0x10000)], .ro, 0x0, 0xFFFFFFFF, .counter⟩,
  ⟨0x1006024, [(256, 0x10000)], .ro, 0x0, 0xFFFFFFFF, .counter⟩,
  ⟨0x1006028, [(256, 0x10000)], .ro, 0x0, 0xFFFFFFFF, .counter⟩,
  ⟨0x100602C, [(256, 0x10000)], .ro, 0x0, 0xFFFFFFFF, .counter⟩,
  ⟨0x1006030, [(256, 0x10000)], .ro, 0x0, 0xFFFFFFFF, .counter⟩,
  ⟨0x1006034, [(256, 0x10000)], .ro, 0x0, 0xFFFFFFFF, .counter⟩,
  ⟨0x1006038, [(256, 0x10000)], .ro, 0x0, 0xFFFFFFFF, .counter⟩,
  ⟨0x100603C, [(256, 0x10000)], .ro, 0x0, 0xFFFFFFFF, .counter⟩,
  ⟨0x1006040, [(256, 0x10000)], .ro, 0x0, 0xFFFFFFFF, .counter⟩,
  ⟨0x1006044, [(256, 0x10000)], .ro, 0x0, 0xFFFFFFFF, .counter⟩,
  ⟨0x1006048, [(256, 0x10000)], .ro, 0x0, 0xFFFFFFFF, .counter⟩,
  ⟨0x100604C, [(256, 0x10000)], .ro, 0x0, 0xFFFFFFFF, .counter⟩,
  ⟨0x1006050, [(256, 0x10000)], .ro, 0x0, 0xFFFFFFFF, .counter⟩,
  ⟨0x1006054, [(256, 0x10000)], .ro, 0x0, 0xFFFFFFFF, .counter⟩,
  ⟨0x1008000, [(256, 0x10000), (8, 0x40)], .ro, 0x0, 0xFFFFFFFF, .sample⟩,
  ⟨0x1008004, [(256, 0x10000), (8, 0x40)], .ro, 0x0, 0xFFFFFFFF, .held⟩,
  ⟨0x1008008, [(256, 0x10000), (8, 0x40)], .ro, 0x0, 0xFFFFFFFF, .counter⟩,
  ⟨0x100800C, [(256, 0x10000), (8, 0x40)], .ro, 0x0, 0xFFFFFFFF, .counter⟩,
  ⟨0x1008010, [(256, 0x10000), (8, 0x40)], .ro, 0x0, 0xFFFFFFFF, .counter⟩,
  ⟨0x1008014, [(256, 0x10000), (8, 0x40)], .ro, 0x0, 0xFFFFFFFF, .counter⟩,
  ⟨0x1008018, [(256, 0x10000), (8, 0x40)], .ro, 0x0, 0xFFFFFFFF, .counter⟩,
  ⟨0x100801C, [(256, 0x10000), (8, 0x40)], .ro, 0x0, 0xFFFFFFFF, .counter⟩,
  ⟨0x1008020, [(256, 0x10000), (8, 0x40)], .ro, 0x0, 0xFFFFFFFF, .counter⟩]
/-- Registers of the CRU block, part 2. -/
def rowsCru2 : List RegRow := [
  ⟨0x1008024, [(256, 0x10000), (8, 0x40)], .ro, 0x0, 0xFFFFFFFF, .counter⟩,
  ⟨0x1008028, [(256, 0x10000), (8, 0x40)], .ro, 0x0, 0xFFFFFFFF, .counter⟩,
  ⟨0x100802C, [(256, 0x10000), (8, 0x40)], .ro, 0x0, 0xFFFFFFFF, .counter⟩]
/-- Every register of the CRU block. -/
def rowsCru : List RegRow := rowsCru0 ++ rowsCru1 ++ rowsCru2
/-- Registers of the LOG block, part 0. -/
def rowsLog0 : List RegRow := [
  ⟨0x3000000, [(16384, 0x40), (16, 0x4)], .ro, 0x0, 0xFFFFFFFF, .sample⟩]
/-- Every register of the LOG block. -/
def rowsLog : List RegRow := rowsLog0

/-- The rows of the block that holds an offset of BAR0 (Table 14.2); none for an unassigned offset (R500). -/
def blockRows (off : Nat) : Option (List RegRow) :=
  if off < 0x10000 then some rowsGlb
  else if 0x10000 ≤ off ∧ off < 0x20000 then some rowsCup
  else if 0x20000 ≤ off ∧ off < 0x30000 then some rowsHlg
  else if 0x30000 ≤ off ∧ off < 0x40000 then some rowsTnd
  else if 0x40000 ≤ off ∧ off < 0x50000 then some rowsAly
  else if 0x50000 ≤ off ∧ off < 0x60000 then some rowsLdl
  else if 0x60000 ≤ off ∧ off < 0x68000 then some rowsMemFar
  else if 0x70000 ≤ off ∧ off < 0x78000 then some rowsMemFar
  else if 0x80000 ≤ off ∧ off < 0x90000 then some rowsFlk
  else if 0x90000 ≤ off ∧ off < 0xA8000 then some rowsMtr
  else if 0x100000 ≤ off ∧ off < 0x149000 then some rowsSpr
  else if 0x1000000 ≤ off ∧ off < 0x2000000 then some rowsCru
  else if 0x3000000 ≤ off ∧ off < 0x3100000 then some rowsLog
  else none

/-- Whether an offset is the register of a row, and one of its instances. -/
def rowMatches : List (Nat × Nat) → Nat → Bool
  | [], r => r == 0
  | (n, st) :: ds, r => decide (r / st < n) && rowMatches ds (r % st)

/-- Whether a row's register lies at this offset. -/
def rowAt (off : Nat) (row : RegRow) : Bool := decide (row.base ≤ off) && rowMatches row.dims (off - row.base)

/-- The row of the register at a 4-byte-aligned offset; none where the offset is reserved or unassigned (R500). -/
def regRow (off : Nat) : Option RegRow := (blockRows off).bind (fun rows => rows.find? (rowAt off))

/-- The rows of the registers with a reset value other than zero, in short form. -/
def resetList : List (Nat × List (Nat × Nat) × Nat) := [
  (0x0, [], 0x4B580109),
  (0x10, [], 0x84024),
  (0x14, [], 0x40204008),
  (0x18, [], 0x300C00),
  (0x1C, [], 0xFF101012),
  (0x20, [], 0x10FF0400),
  (0x10140, [], 0x600),
  (0x18004, [], 0x1),
  (0x18010, [], 0x10020),
  (0x18030, [], 0xE10),
  (0x18034, [], 0x7080),
  (0x18038, [], 0x3C),
  (0x1B00C, [], 0x10),
  (0x20004, [], 0x30000000),
  (0x20008, [], 0x1),
  (0x2000C, [], 0x1),
  (0x30004, [], 0x64),
  (0x30154, [(16, 0x80)], 0x1000),
  (0x37400, [(4, 0x4)], 0x3),
  (0x40014, [(256, 0x100)], 0xF),
  (0x50004, [], 0x8),
  (0x56004, [], 0x7),
  (0x56008, [], 0x47800000),
  (0x5600C, [], 0x4B800000),
  (0x56010, [], 0x7D0),
  (0x56040, [], 0x400005),
  (0x56044, [], 0x40C00000),
  (0x60004, [(8, 0x1000)], 0x10018),
  (0x70004, [(8, 0x1000)], 0x10018),
  (0x8002C, [], 0xFFFF),
  (0x100004, [(18, 0x4000), (2, 0x2000)], 0x640001),
  (0x100014, [(18, 0x4000), (2, 0x2000)], 0xFFFF)]

/-- The reset value of a register (the Reset column of its field table); zero where the table gives zero, or gives
none (log entry 1). -/
def regReset (off : Nat) : Word :=
  match resetList.find? (fun r => decide (r.1 ≤ off) && rowMatches r.2.1 (off - r.1)) with
  | some r => BitVec.ofNat 32 r.2.2
  | none => 0#32

end Sys2Proof.Machine
end

