-- ==== Sys2Proof/Machine/State.lean ====
section
/-! DEFINITION. The device's state as plain data, the reasons a command can stop, and the state after reset. -/
namespace Sys2Proof.Machine

/-- Why a command stops where the specification gives it no effect. -/
inductive Fault where
  /-- Raised by JTAG_INSTRUCTION for a private debug instruction that the test access port accepts: R493 names no
  effect on the device. Safe: the run ends. -/
  | privateDebug
deriving DecidableEq, Repr

/-- A command without a meaning. -/
inductive Refusal where
  /-- Raised by the dispatch for a row that is not modelled yet. Safe: the run ends. -/
  | notModelled (mnemonic : String)
deriving DecidableEq, Repr

/-- What the device sends to the outside world. -/
inductive Out where
  /-- A read completion: the value, its width in bytes, and whether it carries the poisoned bit (R512). -/
  | readData (src : Src) (value : Nat) (width : Nat) (poisoned : Bool)
  /-- A request completed as Unsupported Request (R498, R511). -/
  | unsupported (src : Src)
  /-- An MSI-X vector (R514). -/
  | msix (vector : Nat)
  /-- An I3C in-band interrupt (R439). -/
  | inBand
  /-- A posted write to host memory (R137). -/
  | hostWrite (address : Nat) (bytes : List Byte)
  /-- A management response: the tag repeated, the command byte, status, and payload (R441). -/
  | response (src : Src) (tag : Nat) (command : Nat) (status : Nat) (payload : List Nat)
  /-- A packet or message on the fabric, to a device: its name, destination and words. -/
  | packet (name : String) (dest : Nat) (words : List Nat)
  /-- A control message on one sprue half. -/
  | link (half : Nat) (name : String) (words : List Nat)
deriving DecidableEq, Repr

/-- One Heat Log entry as it is read (R466): its sixteen words. -/
abbrev LogEntry := List Word

/-- An event on its way to the recorder: code, source kind and identifier, context, step, data, tick (R466). -/
structure LogEvent where
  code : Nat
  kind : Nat := 0
  sid  : Nat := 0
  ctx  : Option Nat := none
  step : Nat := 0
  data : List Nat := []
  tick : Nat := 0
deriving DecidableEq, Repr

/-- The Heat Log recorder (R465 to R468). -/
structure HeatLog where
  /-- The entries, index 0 first. -/
  entries  : List LogEntry
  firstSeq : Nat
  nextSeq  : Nat
  /-- The source of a clear under way, the number of entries cleared, and its starting tick (R468). -/
  clearing : Option (Src × Nat × Nat)
  /-- The recorder's input queue during a clear, oldest first (R468). -/
  waiting  : List LogEvent
  /-- Tokens of each code's bucket; an unlisted code's bucket is full (R467). -/
  tokens   : Sparse Nat
  /-- Events of each code suppressed since its last entry (R466). -/
  supp     : Sparse Nat
  /-- The tick of the next token (R467). -/
  refillAt : Nat
  /-- Whether the alert level has been reached since the last clear (R470, R489). -/
  alerted  : Bool
  /-- Accesses refused or discarded so far: the model's own count, from which a management WRITE takes its status. -/
  refused  : Nat
deriving DecidableEq, Repr

/-- Where an accepted item stands: accepted and not issued; issued and running; done, with its status and detail,
and not yet completed. -/
inductive ItemPhase where
  | accepted
  | issued
  | done (status : Nat) (detail : Nat)
deriving DecidableEq, Repr

/-- Slag counts owed to one tensor (R54). -/
structure SlagOwed where
  tensor : Nat
  nonfin : Nat
  sat    : Nat
  inval  : Nat
deriving DecidableEq, Repr

/-- An accepted item (R99, R101): its words, its ring index, the seed and step it uses (R37, R105), the tick of its
acceptance, and its progress. -/
structure Item where
  words : List Word
  index : Nat
  seed  : Nat
  step  : Nat
  since : Nat
  phase : ItemPhase
  /-- The physical crucible that executes it. -/
  phys  : Nat
  /-- The order in which waits began (R120). -/
  began : Nat
  /-- It begins its command (R101). -/
  first : Bool
  slag  : List SlagOwed
  /-- The parity error that the physical world put into its data (R364). -/
  err   : Option DataErr
  /-- Its remote inputs have arrived and its effect on this device has been made; stores may be outstanding. -/
  acted : Bool
  /-- The status and detail found while it acted. -/
  found : Nat × Nat
  /-- List entries that it has processed (R173). -/
  prog  : Nat
deriving DecidableEq, Repr

/-- A completion record (R138) before its sequence number is given. -/
structure Record where
  tag    : Nat
  status : Nat
  opcode : Nat
  bnd    : Bool
  index  : Nat
  detail : Nat
  phys   : Nat
  time   : Nat
  /-- The queue's vector is raised once the record is visible (R137). -/
  irq    : Bool
deriving DecidableEq, Repr

/-- The part of a queue's state that its registers do not hold (R94 to R140). -/
structure QState where
  halted    : Bool
  /-- The discard walk of R140, with the words discarded so far. -/
  walk      : Option Nat
  resetPend : Bool
  /-- A command has begun and its BND item has not completed. -/
  openCmd   : Bool
  /-- The BND item of the open command has been accepted. -/
  bndIn     : Bool
  /-- The boundary before the next command was crossed by a switch, a move or a reset (R124). -/
  crossed   : Bool
  /-- The tick at which the open command, or the keep chain it belongs to, began (R125). -/
  cmdStart  : Option Nat
  items     : List Item
  /-- Records that wait for space in the ring (R139). -/
  held      : List Record
  /-- Whether a published item may not be accepted: its words could not be read (R365). -/
  poisonedHead : Bool
  /-- The refused item carried BND (R140). -/
  refBnd    : Bool
  /-- The record of a BND item that completed before earlier items of its command (R137). -/
  bndRec    : Option Record
deriving DecidableEq, Repr

/-- A queue after reset: empty. -/
def QState.init : QState := ⟨false, none, false, false, false, false, none, [], [], false, false, none⟩

/-- One runner of an array: the entries requested so far in the pass, the ticks at which granted requests return,
and the bytes it holds (R67, R68). -/
structure Runner where
  asked    : Nat
  pendings : List Nat
  held     : Nat
deriving DecidableEq, Repr

/-- A matrix array of a physical crucible (chapter 2). -/
structure ArrayState where
  /-- The queue and ring index of the command in the array. -/
  cmd     : Option (Nat × Nat)
  /-- The tile and pass that start next, and the bank in which that tile accumulates. -/
  tile    : Nat
  pass    : Nat
  bank    : Nat
  /-- The bytes of the next pass's plane image, once it is staged (R63, R64). -/
  shadow  : Option (List Byte)
  /-- Whether a pass has started in this command (R70). -/
  started : Bool
  /-- Tiles whose last pass has ended and that wait for their drain, with the data error that poisons them. -/
  drains  : List (Nat × Option DataErr)
  /-- The data error of the tile that accumulates, and the first one of the command (R364). -/
  lost    : Option DataErr
  failed  : Option DataErr
  /-- The tile refusal that ends the command: its DETAIL (R74). -/
  refused : Option Nat
  frozen  : Bool
  runners : Sparse Runner
  /-- The accumulator banks 0 and 1: output m, column n at m * 32 + n (R80). -/
  banks   : List (List Word)
deriving DecidableEq, Repr

/-- An idle array. -/
def ArrayState.init : ArrayState := ⟨none, 0, 0, 0, none, false, [], none, none, none, false, [], []⟩

/-- A physical crucible: who is resident on it and what it is doing. -/
structure Crucible where
  resident  : Option Nat
  /-- The context that is coming in and the FCLK time, in half root cycles, at which the switch ends (R243). -/
  switching : Option (Option Nat × Nat)
  /-- N_sw of the switch in FCLK cycles. -/
  swCost    : Nat
  /-- A fettle test in progress, with its starting tick (R369). -/
  testing   : Option Nat
deriving DecidableEq, Repr

/-- A line held or awaited by the run-ahead fetcher (R180 to R183). -/
structure RaLine where
  addr     : Nat
  chunk    : Nat
  /-- The data have arrived. -/
  ready    : Bool
  poisoned : Bool
  /-- A read of an item has taken it (R181). -/
  used     : Bool
  data     : List Byte
  /-- A peeked line: its home position, VERSION and arrival tick (R348, R349). -/
  peek     : Option (Nat × Nat × Nat)
deriving DecidableEq, Repr

/-- A run-ahead stream (R179, R180). -/
structure RaStream where
  /-- 0 idle, 1 armed, 2 ended. -/
  state  : Nat
  ctx    : Nat
  queue  : Nat
  kv     : Bool
  base   : Nat
  stride : Nat
  lines  : Nat
  nchunk : Nat
  raMin  : Nat
  raMax  : Nat
  /-- One more than the highest chunk that a read has touched; 0 before the first. -/
  pos    : Nat
  dist   : Nat
  /-- The next chunk to read. -/
  next   : Nat
  buf    : List RaLine
  /-- Late and discarded lines since the last pass (R451). -/
  late   : Nat
  disc   : Nat
deriving DecidableEq, Repr

/-- An idle stream. -/
def RaStream.init : RaStream := ⟨0, 0, 0, false, 0, 0, 0, 0, 0, 0, 0, 0, 0, [], 0, 0⟩

/-- A page move under way (R177): context, page, direction towards near, its two slots, and the queue and index of the
item that waits for it (none for the spill sweep). -/
structure PageMove where
  ctx    : Nat
  page   : Nat
  toNear : Bool
  near   : Nat
  far    : Nat
  owner  : Option (Nat × Nat)
deriving DecidableEq, Repr

/-- A request of the Ladle to another agent (R188, R344, R352 to R357): the item it serves, by queue key and ring index;
what it asks (0 remote load, 1 remote store, 2 remote atomic, 3 trigger, 10 RD_S, 11 RD_X, 12 RD_ONCE, 13 WR, 14 AT,
15 WB, 16 PEEK, 17 CHECK, 19 broadcast chunk, from 20 on a bulk reduction's data); its address and length, the data it carries or has brought; the response slots it needs; the
tick of its issue; and its answer: 0 fine, 1 poisoned, with a bit for each poisoned unit, 2 timed out, 3 refused, with
the reason, 4 out of the window. A request of the run-ahead fetcher has 2^20 plus its stream as its key. -/
structure LReq where
  id     : Nat
  slice  : Nat
  queue  : Nat
  index  : Nat
  kind   : Nat
  addr   : Nat
  bytes  : Nat
  data   : List Byte
  slots  : Nat
  issued : Option Nat
  answer : Option (Nat × Nat)
deriving DecidableEq, Repr

/-- A sweep that has done its work and waits for the loss-scale loop (R217, R224): its item, whether it skipped, its
cause, and the words of its step record that the loop does not give, with S before the loop. -/
structure SweepEnd where
  key    : Nat
  index  : Nat
  skip   : Bool
  cause  : Nat
  scale  : Nat
  absurd : Nat
  held   : Nat
  loss   : Nat
  spike  : Nat
  norm   : Nat
deriving DecidableEq, Repr

/-- The sweep beside its registers (chapter 5): the early filter (R219), the sweep that waits for the loop, the staging
sum of assay terms and its entries (R381), and the last outcome for LDL_SWP_STATUS. -/
structure SweepState where
  early  : List Nat
  loop   : Option SweepEnd
  stageSum : Nat
  stageEntries : Nat
  skipped : Bool
  cause  : Nat
deriving DecidableEq, Repr

/-- The Ladle's state beside its registers. -/
structure Ladle where
  streams : Sparse RaStream
  moves   : List PageMove
  reqs    : List LReq
  nextReq : Nat
  /-- Response slots in use, slices 0 to 3 (R188). -/
  slots   : Sparse Nat
  /-- Where each context's spill sweep continues, and whether one runs (R175). -/
  sweepAt : Sparse Nat
  sweeping : List Nat
  /-- Uncorrectable units of each scrub pass: stacks 0 to 7, controllers 8 to 15 (R186). -/
  scrubUe : Sparse Nat
  sweep : SweepState
deriving DecidableEq, Repr

/-- The Ladle after reset. -/
def Ladle.init : Ladle := ⟨[], [], [], 0, [], [], [], [], ⟨[], none, 0, 0, false, 0⟩⟩

/-- A packet or notice of a collective as it waits to be used (R302, R307, R314, R324, R332): kind 1 up, 2 down, 3 READY,
4 DONE, 5 lane partials, 6 broadcast chunk; its values, its arrival dimension, the critical member, the first faulted
member, and the residue mismatches that its combining meets (R326, R327). -/
structure AlyPkt where
  kind    : Nat
  seq     : Nat
  sender  : Nat
  pour    : Nat
  stage   : Nat
  addr    : Nat
  vals    : List (Int × Nat)
  lanes   : List (Nat × Nat × Bool)
  flag    : Bool
  crit    : Nat
  dim     : Nat
  fault   : Option Nat
  residue : Nat
  data    : List Byte
  /-- The AOP that the packet carries (R302). -/
  aop     : Nat
deriving DecidableEq, Repr

/-- A pour in flight (R313, R314): its number, its stage, the ranges held at the start of each stage so far, the latest
first, and whether its data and its DONE of this stage are out. -/
structure AlyPour where
  pour   : Nat
  stage  : Nat
  ranges : List (Nat × Nat)
  sent   : Bool
  doneOut : Bool
deriving DecidableEq, Repr

/-- The collective that a group runs (R302). -/
structure AlyColl where
  key     : Nat
  index   : Nat
  seq     : Nat
  /-- The first message has been granted, and when (R329). -/
  granted : Option Nat
  /-- A cancel found it started. -/
  late    : Bool
  crit    : Nat
  dim     : Nat
  fault   : Option Nat
  /-- Uncorrectable local units (POISONED), and a range fault with its DETAIL. -/
  lost    : Nat
  range   : Option Nat
  inbox   : List AlyPkt
  /-- The members whose up packets have arrived, and the values combined so far. -/
  upFrom  : List Nat
  vals    : List (Int × Nat)
  nextPour : Nat
  pours   : List AlyPour
  /-- The non-finite flag and the lane partials: lane, sum of squares in units of 2^-298, non-finite (R323). -/
  flag    : Bool
  lanes   : List (Nat × Nat × Bool)
  laneStage : Nat
  laneOut : Bool
  /-- Broadcast chunks that have arrived or been read, and those sent, as member and chunk. -/
  chunks  : List Nat
  sent    : List (Nat × Nat)
deriving DecidableEq, Repr

/-- A collective group beside its registers (R298, R302): the next SEQ, the group queue as queue key, ring index and
whether a cancel has reached the item, the running collective, early packets, and VOIDs by SEQ and sender. -/
structure AlyGroup where
  seq   : Nat
  queue : List (Nat × Nat × Bool)
  cur   : Option AlyColl
  early : List AlyPkt
  voids : List (Nat × Nat)
deriving DecidableEq, Repr

/-- A group after reset. -/
def AlyGroup.init : AlyGroup := ⟨0, [], none, [], []⟩

/-- A flit kept for retry (R268): its sequence number, the tick at which it was sent, its packet's header, whether it is
the packet's last, and its bytes. -/
structure TxFlit where
  seq  : Nat
  sent : Nat
  hdr  : PktHdr
  last : Bool
  data : List Byte
deriving DecidableEq, Repr

/-- A packet that waits at an output (R286, R287): the input half it came from, or 36 for the device itself; the
reservation of the input's buffer that it holds; and the FCLK time, in half root cycles, since when it waits. -/
structure LinkWait where
  hdr   : PktHdr
  data  : List (List Byte)
  input : Nat
  key   : Nat
  since : Nat
  /-- The context that sends it, 16 for none: a request of a context of this device (R288). -/
  ctx   : Nat
deriving DecidableEq, Repr

/-- A link beside its registers (chapter 7): one for each half of a sprue. -/
structure SprLink where
  /-- Failed attempts in a row, and the tick of the next one (R258). -/
  attempts : Nat
  retryAt  : Option Nat
  /-- Lanes that the DC test has isolated since cold start (R259). -/
  isolated : Nat
  /-- Lanes spared ahead: counted as failed from the next retrain on (R452). -/
  spared   : Nat
  /-- Own and the partner's scrambler seeds (R265). -/
  seed     : Nat
  pseed    : Nat
  /-- The next sequence number to send and to expect; the retry buffer, oldest first; arrivals not yet acknowledged,
  and the tick of the first of them (R268). -/
  txSeq    : Nat
  rxSeq    : Nat
  retry    : List TxFlit
  owed     : Nat
  owedAt   : Option Nat
  /-- A NAK is out; NAKs in a row and their sequence number, sent and received (R268, R269). -/
  nakOut   : Bool
  nakTx    : Nat
  nakRx    : Nat
  nakSeq   : Nat
  /-- A retrain under way: its cause; and the ticks of failed retrains (R269, R270). -/
  retrain  : Option Nat
  failedAt : List Nat
  /-- The flits of the packet that is arriving, and the last sequence number of the last whole packet. -/
  rx       : List (PktHdr × List Byte)
  whole    : Nat
  /-- The link is down and its partner has been asked: when, and the cause (R270). -/
  asked    : Option (Nat × Nat)
  /-- Packets that wait at this output; credits in use, by reservation (R287). -/
  waits    : List LinkWait
  used     : Sparse Nat
  /-- The place of the class arbitration, and the last input served of each class (R286). -/
  turn     : Nat
  lastIn   : Sparse Nat
  /-- 0 active, 1 PROPOSE sent, 2 counting down as proposer, 3 counting down as responder, 4 idle; the end of the
  countdown in half root cycles; and the tick of the latest flit that keeps the link awake (R292, R293). -/
  lp       : Nat
  lpEnd    : Nat
  busyAt   : Nat
  /-- The packets whose slice-pool credits are out, oldest first: reservation, context, flits (R288). -/
  spent    : List (Nat × Nat × Nat)
deriving DecidableEq, Repr

/-- A link after reset. -/
def SprLink.init : SprLink :=
  ⟨0, none, 0, 0, 0, 0, 0, 0, [], 0, none, false, 0, 0, 0, none, [], [], 4095, none, [], [], 0, [], 0, 0, 0, []⟩

/-- The sprues beside their registers: the links by half, 65536 * the routing entries at bank + destination (R274), the
reservations that wait for a partner, as link and slice (R288, R289), the contexts that wait for them, and the dimensions
whose packets take their alternates (R282). -/
structure Sprues where
  links    : Sparse SprLink
  banks    : Sparse Word
  asking   : List (Nat × Nat)
  enabling : List Nat
  detoured : List Nat
deriving DecidableEq, Repr

/-- The clocks (R6 to R9, R516, R448). -/
structure Clock where
  /-- REFCLK ticks since cold start. -/
  now   : Nat
  /-- Half root cycles since cold start; the root advances 96 + k of them in a tick at point k. -/
  half  : Nat
  /-- The root point in force. -/
  point : Nat
  /-- A change of point under way: the new point and the tick at which it ends at the latest. -/
  changing : Option (Nat × Nat)
  /-- The point that the loops have chosen; changes of at most 8 points lead there (R448). -/
  target   : Nat
deriving DecidableEq, Repr

/-- What a window request asks of the home of a line (Table 9.2, Table 9.3). -/
inductive WinReq where
  | rdS | rdX | rdOnce | wr | atomic | wb | peek | check | homeRead | homeWrite
deriving DecidableEq, Repr

/-- An open transaction of the home: the line, the requesting position (15 for the home itself), what is asked, the
request's bytes and offset, its tag, slice and phase bank, the snoops without a reply as position and sending tick, and whether it is answered and
awaits DONE (R344, R346). -/
structure HomeTx where
  line   : Nat
  pos    : Nat
  kind   : WinReq
  off    : Nat
  data   : List Byte
  tag    : Nat
  slice  : Nat
  bank   : Nat
  snoops : List (Nat × Nat)
  answered : Bool
deriving DecidableEq, Repr

/-- A line of another device's window in the window cache (R341): modified or shared, with its data. -/
structure CacheLine where
  modified : Bool
  data     : List Byte
deriving DecidableEq, Repr

/-- A write-back on its way to the home (R345). -/
structure WriteBack where
  key  : Nat
  data : List Byte
  sent : Nat
deriving DecidableEq, Repr

/-- The flask fabric (chapter 9). Cached lines and write-backs are keyed by position * 2^29 plus the line. -/
structure Flask where
  home   : List HomeTx
  /-- Requests that wait for their line or for an open transaction, oldest first. -/
  queued : List HomeTx
  /-- The FCLK time, in half root cycles, of each line's latest transaction (R339). -/
  lastAt : Sparse Nat
  cache  : Sparse CacheLine
  wbs    : List WriteBack
  /-- Lines that an access of this device must first have snooped: the line, the request and the context (R338). -/
  need   : List (Nat × WinReq × Nat)
deriving DecidableEq, Repr

/-- A copy or capture in progress, or the ingot's other work (R403 to R415). -/
structure Ingot where
  /-- A requested cut: 1 for a step cut, 2 for a migration cut; its step and the tick of the request. -/
  want     : Option (Nat × Nat × Nat)
  /-- The flask positions that have announced (R406). -/
  chilled  : List Nat
  /-- Store slots in use. -/
  used     : Sparse Nat
  /-- The register image of each epoch (R399), as pairs of an offset of BAR0 and a word; from 2^28 on a pair gives the
  flags of a queue by its key, and from 2^29 on the SEQ of a group. -/
  images   : Sparse (List (Nat × Nat))
  /-- The window cache at each epoch's cut. -/
  caches   : Sparse (Sparse CacheLine)
  /-- A drain: its epoch, pages sent, starting tick, running digest, and the tick at which it starts again after a
  failure (R410, R411). -/
  drain    : Option (Nat × Nat × Nat × Nat × Option Nat)
  /-- The half of the buddy store that holds the ward's sealed copy, the pages received and their digest. -/
  wardHalf : Nat
  wardGot  : Nat
  wardSum  : Nat
  /-- 4 restoring, 5 loading, 0 neither; with the epoch and the starting tick. -/
  busy     : Nat
  busyAt   : Nat
  /-- Pages that the restore has written back. -/
  wrote    : Nat
  failed   : Bool
  /-- A write of the command in hand found no free slot (R402). -/
  blocked  : Bool
  /-- A writer waits for a slot. -/
  waiting  : Bool
  /-- A SWEEP waits for a seal, as its step; reported once (R412). -/
  sweepHeld : Option Nat
deriving DecidableEq, Repr

/-- The ingot after reset. -/
def Ingot.init : Ingot := ⟨none, [], [], [], [], none, 0, 0, 0, 0, 0, 0, false, false, false, none⟩

/-- The batch-table state of a context (R249 to R251): a pending flip, its apply step, the current buffer, the
refusal mark, and the SEQ of the last anchor record. -/
structure BatchState where
  pending : Option Nat
  apply   : Nat
  cur     : Nat
  refused : Bool
  seq     : Nat
deriving DecidableEq, Repr

/-- No flip yet. -/
def BatchState.init : BatchState := ⟨none, 0, 0, false, 0⟩

/-- A registered wait on a shared semaphore of a context that is not resident (R245). -/
structure SharedWait where
  ctx    : Nat
  crucible : Nat
  queue  : Nat
  sem    : Nat
  dec    : Bool
  target : Nat
  began  : Nat
deriving DecidableEq, Repr

/-- A crucible lent to a holder (R247 case a), or a raised priority (case b, with no crucible). At the end of a chain,
`via` is the context whose wait, on the semaphore `viaSem`, the holder is to satisfy. -/
structure Inherit where
  sem    : Nat
  waiter : Nat
  holder : Nat
  lent   : Option Nat
  via    : Nat
  viaSem : Nat
deriving DecidableEq, Repr

/-- A move of a logical crucible (R244): where from, where to, and the FCLK time at which it ends, once it began. -/
structure Move where
  logical : Nat
  target  : Option Nat
  endAt   : Option Nat
  /-- Ordered by the fettle schedule, and not withdrawn at its deadline (R376). -/
  fettle  : Bool
deriving DecidableEq, Repr

/-- The Tundish beside its registers (chapter 6). -/
structure Tundish where
  /-- Table 6.1: 0 DISABLED, 1 RUNNABLE, 2 STOPPING, 3 STOPPED. -/
  states  : Sparse Nat
  enfail  : Sparse Nat
  /-- The staged CSET words, at 8x + w (R235). -/
  staged  : Sparse Nat
  bank    : Nat
  /-- Exclusive slots in progress: slot, starting tick, ending tick. -/
  slots   : List (Nat × Nat × Nat)
  /-- Slots whose guard is open, with the tick of their start. -/
  guards  : List (Nat × Nat)
  /-- Late entries not yet recorded: slot, logical crucible, and the context resident there at the slot's start, 16 for
  none. -/
  awaited : List (Nat × Nat × Nat)
  /-- The tick since which the resident context of each crucible is resident (R242). -/
  since   : Sparse Nat
  waits   : List SharedWait
  gifts   : List Inherit
  moves   : List Move
  batch   : Sparse BatchState
  /-- The highest step number that each queue has issued (R250). -/
  issued  : Sparse Nat
  /-- The order in which waits began. -/
  order   : Nat
  /-- Credit templates of the profile: REQ_FLITS of context x at 2x, RSP_FLITS at 2x + 1 (Table 12.3). -/
  credits : Sparse Nat
deriving DecidableEq, Repr

/-- Integrity beside its registers (chapter 10). -/
structure Integ where
  det       : Bool
  detBroken : Bool
  /-- CUP_COPE_STATUS: 0 OFF, 1 RUNNING, 2 DIVERGED, 3 PARTNER, 4 REFUSED. -/
  cope      : Nat
  copeRole  : Nat
  /-- Own records, and the partner's, that have no match yet: key, digest, tick (R389). -/
  mine      : List (Nat × Nat × Nat)
  theirs    : List (Nat × Nat × Nat)
  /-- Alloy engine test: its starting tick; and device-failed (R379). -/
  alyTest   : Option Nat
  /-- An adder fault named this device since the last test. -/
  alyDue    : Bool
  failed    : Bool
  /-- Fettle states of the physical crucibles: 0 to 5 of CUP_FTL_STATE; deferrals; the tick of the next attempt; and
  whether a crucible has carried load since its last passed test (R367, R373). -/
  ftl       : Sparse Nat
  defers    : Sparse Nat
  retryAt   : Sparse Nat
  carried   : Sparse Nat
  /-- Physical crucibles under test in place: the context switched out, and the tick at which its load began to wait
  (R377). -/
  inPlace   : Sparse (Option Nat × Nat)
deriving DecidableEq, Repr

/-- A quench in progress: its cause, profile, whether it takes a shakeout and has taken it, and its starting tick
(R417, R418). -/
structure Quench where
  cause   : Nat
  profile : Nat
  shake   : Bool
  shaken  : Bool
  start   : Nat
  source  : Src
deriving DecidableEq, Repr

/-- The Cupola beside its registers (chapter 12). -/
structure Cupola where
  /-- The hold of R142 (R449), and its cause. -/
  hold     : Bool
  cause    : Nat
  override_ : Bool
  /-- The power trip is active; the temperature limits are exceeded. -/
  trip     : Bool
  hot      : Bool
  /-- Holds whose point 0 has been ordered: bit 0 the power trip, bit 1 the temperature limits. -/
  acted    : Nat
  /-- P10 in W, the highest junction temperature and the highest stack temperature in °C. -/
  p10      : Nat
  tj       : Nat
  stackT   : Nat
  /-- Temperatures of the stacks and controllers, by risk part; those that throttle. -/
  temps    : Sparse Nat
  throttled : Sparse Nat
  /-- The ticks of the next supervision pass, risk update and decay. -/
  passAt   : Nat
  riskAt   : Nat
  decayAt  : Nat
  profile  : Nat
  locked   : Bool
  coldCause : Nat
  /-- NVM bytes; unlisted bytes read as 0xFF, the erased state (log entry 10). -/
  nvm      : Sparse Byte
  nvmFault : Bool
  nvmSlow  : Bool
  /-- The image cache: the checked image's bytes (Table 12.4). -/
  image    : Sparse Byte
  imgSigned : Bool
  /-- An image being delivered: its length, PROGRAM, and the bytes received (R438). -/
  deliver  : Option (Nat × Bool)
  staged   : Sparse Byte
  got      : Nat
  verdict  : Nat
  /-- A valid image that is being programmed into the NVM. -/
  program  : Option (Sparse Byte × Nat)
  /-- Key fuses (R431). -/
  fused    : Bool
  fuseHash : List Byte
  require  : Bool
  quench   : Option Quench
  /-- The tick of the last accepted ARM (R417). -/
  armedAt  : Option Nat
  /-- Pending orders by unit (R458). -/
  orders   : Sparse Nat
  /-- The unit table (R457): STATE and GEN of each unit. -/
  units    : Sparse (Nat × Nat)
  /-- Parts above a threshold of R454: 1 watch, 2 suspect, until the score falls below 48. -/
  watched  : Sparse Nat
  /-- The latest tick at which a lane of a link was spared ahead, by sprue half (R452). -/
  sparedAt : Sparse Nat
deriving DecidableEq, Repr

/-- The usage meters beside their registers (R460 to R463). -/
structure Meters where
  mapTick  : Nat
  mapWall  : Nat
  /-- An armed boundary: B, W and the mapping generation. -/
  armed    : Option (Nat × Nat × Nat)
  refused  : Bool
  /-- Meter values at the start of the open interval, at 5t + m; and its first tick. -/
  atStart  : Sparse Nat
  start    : Nat
  /-- Meter values at the armed boundary, once its tick has come. -/
  atEnd    : Option (Sparse Nat)
  rangeAt  : Nat
deriving DecidableEq, Repr

/-- What the main domain is doing (R434 to R437, R418, R486): held in reset or unpowered; cold starting; without a
valid image; running; in a quench; or ended without READY after a failed default profile (R445). -/
inductive CupMode where
  | held
  | coldStart
  | coldShut
  | ready
  | quenching
  | stopped
deriving DecidableEq, Repr

/-- The module: power, resets, straps, pins and monitors (chapter 13). Its times are ticks of `now`, which goes on
through resets. -/
structure Module where
  now       : Nat
  /-- Input voltage in mV and current in 10 mA. -/
  vin       : Int
  iin       : Nat
  /-- The aux domain is powered. -/
  aux       : Bool
  /-- The over-voltage disconnect is open; since when the input has been below 58 V. -/
  cut       : Bool
  below58   : Option Nat
  /-- Since when the input has been below 48 V, until the dip is counted (R475). -/
  dipAt     : Option Nat
  /-- Since when the input has been below 46 V, and the lowest voltage in mV since then. -/
  sagging   : Option Nat
  lowest    : Nat
  pwrEn     : Bool
  /-- PWR_EN must be deasserted and asserted before the rails return (Table 13.4). -/
  needCycle : Bool
  rails     : Bool
  /-- MOD_RST_N is asserted. -/
  rstHeld   : Bool
  pcieUp    : Bool
  /-- When holdover began, and its cause (R481). -/
  holdover  : Option (Nat × Nat)
  thermal   : Bool
  faultN    : Bool
  /-- The times and causes of the latest monitor quenches (R480). -/
  trips     : List (Nat × Nat)
  /-- Events latched in the aux domain for the next cold start (R496). -/
  latched   : List LogEvent
  /-- Shorted status pins, by bit (R490). -/
  shorts    : Nat
  /-- The I3C pads are isolated: since when, and the line (R494). -/
  i3cOff    : Option (Nat × Nat)
  /-- Coolant inlet and outlet in °C, and whether an excursion is reported. -/
  coolIn    : Nat
  coolOut   : Nat
  coolHot   : Bool
deriving DecidableEq, Repr

structure State where
  pending : List Instr
  clock   : Clock
  regs    : Sparse Word
  /-- The tiers and the casting buffers by local device address; an unlisted byte reads as zero (R519). -/
  mem     : List Host.Cell
  /-- The scratchpads of the physical crucibles: byte b of crucible p at p * 2^22 + b. -/
  spad    : List Host.Cell
  /-- The owner tag of each scratchpad line, as the context plus one; 0 is none (R93). -/
  tags    : Sparse Nat
  /-- The 64-byte units of the tiers that hold an uncorrectable error, rising (R184). -/
  poison  : Sparse Nat
  hlog    : HeatLog
  queues  : Sparse QState
  arrays  : Sparse ArrayState
  crus    : Sparse Crucible
  /-- The physical crucible of each logical one, where it is not the one of its own index (TND_PHYS, R244). -/
  physMap : Sparse Nat
  ladle   : Ladle
  alloy   : Sparse AlyGroup
  sprues  : Sprues
  tnd     : Tundish
  integ   : Integ
  flask   : Flask
  ingot   : Ingot
  cup     : Cupola
  meters  : Meters
  mode    : CupMode
  module_ : Module
  /-- The MSI-X table and pending bits, by BAR4 offset (R514). -/
  bar4    : Sparse Word
  /-- Each source's high-half latch: the pair's offset and its high half (R503). -/
  latches : Sparse (Nat × Word)
  /-- The count of free values drawn so far (log entry 3): the model's own. -/
  draws   : Nat
  /-- What the device has sent, newest first. -/
  out     : List Out
deriving DecidableEq, Repr

/-- The Heat Log at cold start: empty, with full buckets (R465, R467). -/
def HeatLog.init : HeatLog := ⟨[], 1, 1, none, [], [], [], 6250, false, 0⟩

/-- The Cupola before a cold start. -/
def Cupola.init : Cupola where
  hold := false
  cause := 0
  override_ := false
  trip := false
  hot := false
  acted := 0
  p10 := 0
  tj := 0
  stackT := 0
  temps := []
  throttled := []
  passAt := 10000
  riskAt := 100000000
  decayAt := 360000000000
  profile := 0
  locked := false
  coldCause := 0
  nvm := []
  nvmFault := false
  nvmSlow := false
  image := []
  imgSigned := false
  deliver := none
  staged := []
  got := 0
  verdict := 0
  program := none
  fused := false
  fuseHash := []
  require := false
  quench := none
  armedAt := none
  orders := []
  units := []
  watched := []
  sparedAt := []

/-- The module powered at 54 V, with PWR_EN asserted and MOD_RST_N held (R484). -/
def Module.init : Module where
  now := 0
  vin := 54000
  iin := 0
  aux := true
  cut := false
  below58 := none
  dipAt := none
  sagging := none
  lowest := 0
  pwrEn := true
  needCycle := false
  rails := true
  rstHeld := true
  pcieUp := false
  holdover := none
  thermal := false
  faultN := false
  trips := []
  latched := []
  shorts := 0
  i3cOff := none
  coolIn := 0
  coolOut := 0
  coolHot := false

/-- The device after power-up, held by MOD_RST_N (R484, R486): every register at its reset value, nothing in memory, and
the NVM erased. The cold start that follows the release of MOD_RST_N is the command COLD_START. -/
def State.reset : State where
  pending := []
  clock := ⟨0, 0, 0, none, 0⟩
  regs := []
  mem := []
  spad := []
  tags := []
  poison := []
  hlog := HeatLog.init
  queues := []
  arrays := []
  crus := []
  physMap := []
  ladle := Ladle.init
  alloy := []
  sprues := ⟨[], [], [], [], List.range 16⟩
  tnd := ⟨[], [], [], 0, [], [], [], [], [], [], [], [], [], 0, []⟩
  integ := ⟨false, false, 0, 0, [], [], none, false, false, [], [], [], [], []⟩
  flask := ⟨[], [], [], [], [], []⟩
  ingot := Ingot.init
  cup := Cupola.init
  meters := ⟨0, 0, none, false, [], 0, none, 100000⟩
  mode := .held
  module_ := Module.init
  bar4 := []
  latches := []
  draws := 0
  out := []

end Sys2Proof.Machine
end

