-- ==== Sys2Proof/Machine/Ops.lean ====
section
/-! DEFINITION. The named operations over registers, sparse tables and outputs that every command uses. -/
namespace Sys2Proof.Machine
open Reg

/-- The value that a table holds at a key; `d` where it lists none. -/
def spGet (l : Sparse α) (k : Nat) (d : α) : α :=
  match l with
  | [] => d
  | (j, v) :: t => if j = k then v else spGet t k d

/-- A table without a key. -/
def spDel (l : Sparse α) (k : Nat) : Sparse α := l.filter (fun e => e.1 != k)

/-- A pair put before the first greater key. -/
def spIns (l : Sparse α) (k : Nat) (v : α) : Sparse α :=
  match l with
  | [] => [(k, v)]
  | (j, w) :: t => if k < j then (k, v) :: (j, w) :: t else (j, w) :: spIns t k v

/-- A table with a value at a key; a value equal to the unlisted one is not listed. -/
def spPut [DecidableEq α] (l : Sparse α) (k : Nat) (v d : α) : Sparse α :=
  if v = d then spDel l k else spIns (spDel l k) k v

/-- Whether the keys of a table rise. -/
def spRising : Sparse α → Bool
  | [] => true
  | [_] => true
  | (j, _) :: (k, w) :: t => decide (j < k) && spRising ((k, w) :: t)

/-- The canonical form: rising keys, and no entry equal to what an unlisted key holds. -/
def spWf [DecidableEq α] (l : Sparse α) (d : α) : Bool := spRising l && l.all (fun e => decide (e.2 ≠ d))

/-- A field of `w` bits from bit `lo` of a number. -/
def bits (n lo w : Nat) : Nat := n / 2 ^ lo % 2 ^ w
/-- One bit of a number. -/
def bit (n i : Nat) : Bool := n / 2 ^ i % 2 == 1
/-- A Boolean as a bit. -/
def b2n (b : Bool) : Nat := if b then 1 else 0
/-- A number with a field replaced. -/
def setBits (n lo w v : Nat) : Nat := n - bits n lo w * 2 ^ lo + v % 2 ^ w * 2 ^ lo

/-- The state with other registers. -/
def State.withRegs (s : State) (r : Sparse Word) : State := { s with regs := r }

/-- The register at an offset of BAR0, as it is held. -/
def reg (s : State) (off : Nat) : Word := spGet s.regs off (regReset off)
/-- The number that a register holds. -/
def rd (s : State) (off : Nat) : Nat := (reg s off).toNat
/-- The state with a register at a new value. -/
def setReg (s : State) (off : Nat) (v : Nat) : State :=
  s.withRegs (spPut s.regs off (BitVec.ofNat 32 v) (regReset off))
/-- The 64-bit number of a register pair, by the offset of its low half (R501). -/
def rd64 (s : State) (off : Nat) : Nat := rd s off + 2 ^ 32 * rd s (off + 4)
/-- Both halves of a pair. -/
def setReg64 (s : State) (off v : Nat) : State := setReg (setReg s off v) (off + 4) (v / 2 ^ 32)
/-- A 64-bit counter advanced by `n`. -/
def cntAdd (s : State) (off n : Nat) : State := if n = 0 then s else setReg64 s off (rd64 s off + n)
/-- A 32-bit register advanced by `n`, to at most its largest value. -/
def satAdd (s : State) (off n : Nat) : State := setReg s off (min (rd s off + n) 0xFFFFFFFF)

/-- The state with one more output. -/
def emit (s : State) (o : Out) : State := { s with out := o :: s.out }

/-- A management response (R441): bit 7 of the command byte set; over I3C an in-band interrupt tells of it (R439). -/
def respond (s : State) (src : Src) (tag cmd status : Nat) (payload : List Nat) : State :=
  let s1 := emit s (.response src tag (cmd + 128) status payload)
  match src with
  | .i3c _ => emit s1 .inBand
  | _ => s1

/-- The tick count since cold start (R460). -/
def tickNow (s : State) : Nat := s.clock.now
/-- Half root cycles in one cycle of the logic clocks (Table 0.4). -/
def aclkHalf : Nat := 8
/-- FCLK: root / 6. -/
def fclkHalf : Nat := 12
/-- LCLK: root / 8. -/
def lclkHalf : Nat := 16

/-- A host write or MSI-X message: delivered while the PCIe link is up, otherwise counted as dropped (R487). -/
def toHost (s : State) (o : Out) : State :=
  if s.module_.pcieUp then emit s o else cntAdd s CUP_MOD_HOSTDROP_CNT_LO 1

/-- The unlisted value of a BAR4 word: an MSI-X table entry is masked (log entry 9). -/
def bar4Reset (off : Nat) : Word :=
  if 0x200000 ≤ off ∧ off < 0x208000 ∧ off % 16 = 12 then 1#32 else 0#32

/-- Raises an MSI-X vector: sent, or held in the pending-bit array while its entry is masked (R514). -/
def raiseMsix (s : State) (v : Nat) : State :=
  let ctl := spGet s.bar4 (0x20000C + 16 * v) (bar4Reset (0x20000C + 16 * v))
  if s.module_.pcieUp && ctl.getLsbD 0 then
    let o := 0x208000 + v / 32 * 4
    let w := spGet s.bar4 o (bar4Reset o)
    { s with bar4 := spPut s.bar4 o (w ||| BitVec.ofNat 32 (2 ^ (v % 32))) (bar4Reset o) }
  else toHost s (.msix v)

/-- Draws a free value: the next one of the open sequence, which the state counts (log entry 3). -/
def drawWord (s : State) : Word × State := (Config.freeWord s.draws, { s with draws := s.draws + 1 })
/-- Draws a free number. -/
def drawNat (s : State) : Nat × State := (Config.freeNat s.draws, { s with draws := s.draws + 1 })
/-- One of several among which the specification does not choose: any of them, by the next free number (log entry 44). -/
def pickAny (s : State) (l : List α) : Option α :=
  match l with
  | [] => none
  | [a] => some a
  | a :: b :: t => (a :: b :: t)[Config.freeNat s.draws % (t.length + 2)]?

/-- The low and high words of a datum wider than 32 bits (R520). -/
def datum64 (n : Nat) : List Nat := [n % 2 ^ 32, n / 2 ^ 32 % 2 ^ 32]

/-- Folds a state over a list. -/
def forEach (l : List α) (s : State) (f : State → α → State) : State := l.foldl f s

/-- The outcome of a command that completes. -/
def done (s : State) : Host.Outcome State Fault Refusal := .next s

end Sys2Proof.Machine
end

