-- ==== Sys2Proof/Machine/HeatLog.lean ====
section
/-! DEFINITION. The Heat Log recorder: entries, token buckets, clears and the alert level (R465 to R468, R520). -/
namespace Sys2Proof.Machine
open Reg

/-- The SRCKIND and SRCID of a source (Table 12.10). -/
def srcKind : Src → Nat × Nat
  | .unit i => (0, i)
  | .pcie => (1, 0)
  | .mctp e => (2, e)
  | .i3c a => (3, a)
  | .cupola => (4, 0)

/-- The one-word datum "source" (R520). -/
def srcDatum (src : Src) : Nat := (srcKind src).1 + (srcKind src).2 % 2 ^ 24 * 256

/-- The sixteen words of an entry (Table 12.10, R520): data beyond word 14 are cut, and TRUNC tells it. -/
def logWords (seq supp : Nat) (e : LogEvent) : LogEntry :=
  let cut := decide (8 < e.data.length)
  let d := (e.data ++ List.replicate 8 0).take 8
  let ctx := match e.ctx with
    | some x => x + 16
    | none => 0
  ([seq, e.code + 2 ^ 16 * e.kind + 2 ^ 19 * b2n cut + min supp 255 * 2 ^ 24] ++ datum64 e.tick ++
    [e.sid, e.step, ctx] ++ d ++ [seq]).map (BitVec.ofNat 32)

/-- The number of entries the log holds (R465). -/
def hlogSize : Nat := 16384

/-- The HLG_SUPP register of a code (R470). -/
def suppReg (code : Nat) : Nat := HLG_SUPP (code / 256 - 1) (code % 256)

/-- The recorder after the alert level is checked: the vector and the in-band interrupt (R470, R489). -/
def hlogAlert (s : State) : State :=
  let lvl := bits (rd s HLG_CTRL) 16 14
  if lvl ≠ 0 ∧ lvl ≤ s.hlog.entries.length ∧ s.hlog.alerted = false then
    emit (raiseMsix { s with hlog := { s.hlog with alerted := true } } (rd s HLG_VEC)) .inBand
  else s

/-- Writes an entry: it takes the next SEQ and the code's suppressed count (R466, R467). -/
def hlogWrite (s : State) (e : LogEvent) : State :=
  let h := s.hlog
  let w := logWords h.nextSeq (spGet h.supp e.code 0) e
  hlogAlert { s with hlog := { h with
    entries := h.entries ++ [w]
    nextSeq := (h.nextSeq + 1) % 2 ^ 32
    supp := spPut h.supp e.code 0 0 } }

/-- Presents an event to the recorder outside a clear: a full log drops it; otherwise it takes a token or is
suppressed (R467, R468). -/
def hlogPresent (s : State) (e : LogEvent) : State :=
  let h := s.hlog
  if hlogSize ≤ h.entries.length then cntAdd s HLG_DROP_CNT_LO 1 else
  match spGet h.tokens e.code 16 with
  | 0 =>
    let s1 := { s with hlog := { h with supp := spPut h.supp e.code (spGet h.supp e.code 0 + 1) 0 } }
    cntAdd (satAdd s1 (suppReg e.code) 1) HLG_SUPP_TOTAL_CNT_LO 1
  | n + 1 => hlogWrite { s with hlog := { h with tokens := spPut h.tokens e.code n 16 } } e

/-- Records an event (R466 to R468). During a clear it waits in the input queue of 64. -/
def hlogPut (s : State) (e : LogEvent) : State :=
  match s.hlog.clearing with
  | some _ =>
    if s.hlog.waiting.length < 64 then { s with hlog := { s.hlog with waiting := s.hlog.waiting ++ [e] } }
    else cntAdd s HLG_DROP_CNT_LO 1
  | none => hlogPresent s e

/-- Records an event of a device unit now. -/
def logUnit (s : State) (code unit : Nat) (data : List Nat) : State :=
  hlogPut s { code := code, sid := unit, data := data, tick := tickNow s }

/-- Records an event of a device unit that concerns a context and its step number. -/
def logCtx (s : State) (code unit ctx step : Nat) (data : List Nat) : State :=
  hlogPut s { code := code, sid := unit, ctx := some ctx, step := step, data := data, tick := tickNow s }

/-- Records an event of the Cupola. -/
def logCup (s : State) (code : Nat) (data : List Nat) : State :=
  hlogPut s { code := code, kind := 4, data := data, tick := tickNow s }

/-- Records an event that an interface caused. -/
def logSrc (s : State) (code : Nat) (src : Src) (data : List Nat) : State :=
  hlogPut s { code := code, kind := (srcKind src).1, sid := (srcKind src).2, data := data, tick := tickNow s }

/-- Event 0x0902: an access refused or discarded, with its reason (R507, Table 14.4). -/
def logDiscard (s : State) (src : Src) (addr width reason : Nat) : State :=
  let s1 := { s with hlog := { s.hlog with refused := s.hlog.refused + 1 } }
  logSrc s1 0x0902 src (datum64 addr ++ [width, reason])

/-- Event 0x0901: an accepted write, with the source and the new value (R442). Space 0 is BAR0. -/
def logAccepted (s : State) (src : Src) (space addr value : Nat) : State :=
  logSrc s 0x0901 src ([space] ++ datum64 addr ++ datum64 value)

/-- Event 0x0901 for a write to BAR0, unless the write is one part of a whole that is recorded once (R442). -/
def logAccIf (note : Bool) (s : State) (src : Src) (addr value : Nat) : State :=
  if note then logAccepted s src 0 addr value else s

/-- HLOG_TOKEN_REFILL (R467): at each multiple of 6,250 ticks one token is added to every bucket that is not full. -/
def execHlogTokenRefill (s : State) : Host.Outcome State Fault Refusal :=
  let h := s.hlog
  if h.refillAt ≤ tickNow s then
    .next { s with hlog := { h with
      tokens := (h.tokens.map (fun e => (e.1, e.2 + 1))).filter (fun e => e.2 != 16)
      refillAt := h.refillAt + 6250 } }
  else .next s

/-- A write of 1 to CLEAR (R468): the log is empty at once, and the clear is under way. -/
def clearLog (s : State) (src : Src) : State :=
  let n := s.hlog.entries.length
  { s with hlog := { s.hlog with entries := [], clearing := some (src, n, tickNow s), waiting := [], alerted := false } }

/-- HLG_CLEAR (R468). During a clear the write is discarded and logged with reason 8; before READY it is answered as
Unsupported Request (R498). -/
def execHlgClear (src : Src) (s : State) : Host.Outcome State Fault Refusal :=
  if s.mode != .ready then .next (emit s (.unsupported src))
  else if s.hlog.clearing.isSome then .next (logDiscard s src HLG_CTRL 4 8)
  else .next (logAccepted (clearLog s src) src 0 HLG_CTRL (rd s HLG_CTRL + 1))

/-- HLOG_CLEAR_END (R468): the 0x0806 entry at index 0, then the events that waited. -/
def execHlogClearEnd (s : State) : Host.Outcome State Fault Refusal :=
  match s.hlog.clearing with
  | none => .next s
  | some (src, n, _) =>
    let q := s.hlog.waiting
    let s1 := { s with hlog := { s.hlog with
      clearing := none, waiting := [], firstSeq := s.hlog.nextSeq } }
    let e : LogEvent := { code := 0x0806, kind := 4, sid := 0, data := [srcDatum src, n], tick := tickNow s }
    .next (q.foldl hlogPresent (hlogWrite s1 e))

end Sys2Proof.Machine
end

