-- ==== Sys2Proof/Machine/Link.lean ====
section
/-! DEFINITION. Links, routing and credits: what every packet that leaves or crosses the device meets (R261 to R263,
R267, R268, R273 to R293). A link is named by its sprue half, twice the sprue plus the half. -/
namespace Sys2Proof.Machine
open Reg

/-- The state with the sprues changed. -/
def State.withSprues (s : State) (p : Sprues) : State := { s with sprues := p }
/-- A link beside its registers. -/
def linkAt (s : State) (h : Nat) : SprLink := spGet s.sprues.links h SprLink.init
/-- The state with a link changed. -/
def setLink (s : State) (h : Nat) (f : SprLink → SprLink) : State :=
  s.withSprues { s.sprues with links := spPut s.sprues.links h (f (linkAt s h)) SprLink.init }

/-- Whether a sprue is split (R257). -/
def sprSplit (s : State) (h : Nat) : Bool := bit (rd s (SPR_CFG (h / 2) 0)) 10
/-- The dimension or role of a link: 0 to 15, 16 and 17, or 31 for none (Table 7.8). -/
def linkDim (s : State) (h : Nat) : Nat :=
  let v := rd s (SPR_CFG (h / 2) 0)
  if h % 2 = 0 then bits v 0 5 else if sprSplit s h then bits v 5 5 else 31
/-- Lanes of a link (R257). -/
def linkLanes (s : State) (h : Nat) : Nat := if sprSplit s h then 8 else 16
/-- The state of a link in SPR_STATUS. -/
def linkState (s : State) (h : Nat) : Nat := bits (rd s (SPR_STATUS (h / 2) (h % 2))) 0 3
/-- The state with a link's state of SPR_STATUS changed. -/
def setLinkState (s : State) (h n : Nat) : State :=
  let o := SPR_STATUS (h / 2) (h % 2)
  setReg s o (setBits (rd s o) 0 3 n)
/-- SPR_CTRL of a link. -/
def linkCtrl (s : State) (h : Nat) : Nat := rd s (SPR_CTRL (h / 2) (h % 2))
/-- Every link that is assigned a dimension or role, in ascending order. -/
def allLinks (s : State) : List Nat := (List.range 36).filter (fun h => linkDim s h != 31)
/-- Set bits of a mask below `n`. -/
def onesBelow (m n : Nat) : Nat := (List.range n).countP (fun i => bit m i)
/-- The width that failed lanes leave (R262); 0 is down. -/
def linkWidth (lanes failed : Nat) : Nat :=
  if lanes = 16 then (if failed = 0 then 16 else if failed ≤ 4 then 12 else if failed ≤ 8 then 8 else 0)
  else if failed = 0 then 8 else if failed ≤ 2 then 6 else if failed ≤ 4 then 4 else 0

/-- Whether a fence bit closes a dimension (R279). -/
def dimFenced (s : State) (d : Nat) : Bool := decide (d < 16) && bit (rd s SPR_FENCE) d
/-- Whether a link's slice mask allows a slice (R279). -/
def sliceAllowed (s : State) (h t : Nat) : Bool := bit (rd s (SPR_SLICE_MASK (h / 2) (h % 2))) t
/-- A slice's pools on a link: REQ and RSP flits (R288). -/
def poolOf (s : State) (h t : Nat) : Nat × Nat :=
  let v := rd s (SPR_POOL (h / 2) (h % 2) t)
  (bits v 0 12, bits v 16 12)
/-- Whether a link is usable (R281): up or in low power, enabled, its dimension not fenced; and, for a slice's requests
and responses, with a pool of that slice. -/
def linkUsable (s : State) (p : PktHdr) (h : Nat) : Bool :=
  (linkState s h == 2 || linkState s h == 4) && bit (linkCtrl s h) 0 && !dimFenced s (linkDim s h) &&
  (p.cls == 2 || p.layer.isSome || poolOf s h p.slice != (0, 0))

/-- The reservation of a packet in a receive buffer (Table 7.6): 0 to 15 REQ pools, from 16 RSP pools, from 32 groups,
from 288 escape layers. -/
def packetKey (p : PktHdr) : Nat :=
  match p.layer with
  | some l => 288 + l
  | none => if p.cls = 2 then 32 + p.group else if p.cls = 1 then 16 + p.slice else p.slice
/-- The flits of a reservation on a link (Table 7.6). -/
def keyCap (s : State) (h k : Nat) : Nat :=
  if k < 16 then (poolOf s h k).1 else if k < 32 then (poolOf s h (k - 16)).2 else if k < 288 then 8 else 32
/-- The retry buffer's flits (R268). -/
def retrySize : Nat := 2048

/-- Whether a packet leaves its context within its own share of a slice's pool, its template's amount (R288). -/
def shareLeft (s : State) (h : Nat) (w : LinkWait) : Bool :=
  let k := packetKey w.hdr
  if 16 ≤ w.ctx ∨ 32 ≤ k then true else
  let mine := (((linkAt s h).spent.filter (fun e => e.1 == k && e.2.1 == w.ctx)).map (·.2.2)).sum
  decide (mine + w.hdr.flits ≤ max 8 (spGet s.tnd.credits (2 * w.ctx + k / 16) 0))

/-- Takes returned credits from the oldest packets of a reservation. -/
def unspend (k : Nat) : Nat → List (Nat × Nat × Nat) → List (Nat × Nat × Nat)
  | _, [] => []
  | n, e :: t =>
    if e.1 ≠ k then e :: unspend k n t
    else if e.2.2 ≤ n then unspend k (n - e.2.2) t
    else (e.1, e.2.1, e.2.2 - n) :: t

/-- Whether a packet may start on a link now: credits for all of its flits, within its context's share, space to retry
them, and no retrain (R268, R269, R287, R288). -/
def mayStart (s : State) (h : Nat) (w : LinkWait) : Bool :=
  let l := linkAt s h
  let k := packetKey w.hdr
  linkUsable s w.hdr h && shareLeft s h w && decide (spGet l.used k 0 + w.hdr.flits ≤ keyCap s h k) &&
  decide (l.retry.length + w.hdr.flits ≤ retrySize)

/-- A flit to send wakes a link (Table 7.7): it aborts an entry, or leaves electrical idle. -/
def wakeLink (s : State) (h : Nat) : State :=
  let l := linkAt s h
  let s1 := setLink s h (fun d => { d with lp := 0, busyAt := tickNow s })
  let i := h / 2
  match l.lp with
  | 0 => s1
  | 1 => emit s1 (.link h "LP_ABORT" [])
  | 4 => setLinkState (emit s1 (.link h "EXIT" [])) h 2
  | n => logUnit (cntAdd (emit s1 (.link h "LP_ABORT" [])) (SPR_LP_ABORT_CNT_LO i (h % 2)) 1) 0x010E (528 + h) [i, n - 1, 4]

/-- Sends one flit: it takes the next sequence number and stays in the retry buffer (R268). -/
def sendFlit (s : State) (h : Nat) (p : PktHdr) (first last : Bool) (data : List Byte) : State :=
  let n := (linkAt s h).txSeq
  let s1 := setLink s h (fun l => { l with
    txSeq := (n + 1) % 4096, retry := l.retry ++ [⟨n, tickNow s, p, last, data⟩], busyAt := tickNow s })
  emit (cntAdd s1 (SPR_TXFLIT_CNT_LO (h / 2) (h % 2)) 1)
    (.link h "FLIT" ([n, if first then 1 else 2, b2n last, p.dest, p.src, p.cls, p.slice, p.bank,
      p.layer.getD 3, p.group, p.flits] ++ data.map (·.toNat)))

/-- Returns credits for an input's reservation (R287, R290). -/
def returnCredit (s : State) (input key n : Nat) : State :=
  if 36 ≤ input then s else emit s (.link input "CREDIT" [key, n])

/-- Sends a packet whole (R286): its credits are taken, and the input's are returned. -/
def startPacket (s : State) (h : Nat) (w : LinkWait) : State :=
  let s0 := wakeLink s h
  let k := packetKey w.hdr
  let n := w.hdr.flits
  let s1 := setLink s0 h (fun l => { l with
    used := spPut l.used k (spGet l.used k 0 + n) 0
    spent := if k < 32 then l.spent ++ [(k, w.ctx, n)] else l.spent })
  let s2 := (List.range n).foldl (fun st i =>
    sendFlit st h w.hdr (i == 0) (i + 1 == n) (w.data.getD i [])) s1
  let s3 := if w.input = 36 then cntAdd s2 (MTR_SLICE_CNT_LO w.hdr.slice 2) n else s2
  returnCredit s3 w.input w.key n

/-- The order in which classes are tried from a place of the arbitration: RSP 4, COL 4, REQ 2 of ten (R286). -/
def classOrder (turn : Nat) : List (Nat × Nat) :=
  (List.range 10).map (fun i => (((turn + i) % 10 + 1) % 10, [1, 2, 1, 2, 3, 1, 2, 1, 2, 3].getD ((turn + i) % 10) 3))

/-- The waiting packet that an output starts next: by class, then by input in turn, each input's oldest first (R286). -/
def nextPacket (s : State) (h : Nat) : Option (LinkWait × Nat) :=
  let l := linkAt s h
  (classOrder l.turn).findSome? (fun (turn, c) =>
    (List.range 37).findSome? (fun i =>
      let input := (spGet l.lastIn c 36 + 1 + i) % 37
      match l.waits.find? (fun w => w.hdr.cls == c && w.input == input) with
      | some w => if mayStart s h w then some (w, turn) else none
      | none => none))

/-- Starts every waiting packet that an output can. -/
def drainOut : Nat → State → Nat → State
  | 0, s, _ => s
  | f + 1, s, h =>
    match nextPacket s h with
    | none => s
    | some (w, turn) =>
      let s1 := setLink s h (fun l => { l with
        waits := l.waits.erase w, turn := turn, lastIn := spPut l.lastIn w.hdr.cls w.input 36 })
      drainOut f (startPacket s1 h w) h

/-- Drains an output. -/
def drainLink (s : State) (h : Nat) : State := drainOut ((linkAt s h).waits.length) s h
/-- Queues a packet at an output. -/
def queueAt (s : State) (h : Nat) (w : LinkWait) : State :=
  drainLink (setLink s h (fun l => { l with waits := l.waits ++ [{ w with since := s.clock.half }] })) h

/-- nb(u, d), the neighbour along a dimension (R273). -/
def nb (s : State) (u d : Nat) : Nat :=
  let v := u ^^^ 2 ^ d
  if bit (rd s SPR_TOPO) 0 then
    (List.range 16).foldl (fun a i => if 2 * i + 1 < d ∧ bit u (2 * i) then a ^^^ 2 ^ (2 * i + 1) else a) v
  else v

/-- This device is its flask's spare (Table 7.9). -/
def isSpare (s : State) : Bool := bit (rd s SPR_SELF) 29
/-- The flask of this device. -/
def selfFlask (s : State) : Nat := bits (rd s SPR_SELF) 16 13
/-- This device's address; the spare has one only while it serves a failed device's (R283). -/
def ownAddress (s : State) : Option Nat :=
  let v := rd s SPR_SELF
  if bit v 29 && !bit v 30 then none else some (bits v 0 16)
/-- The address that the spare of this flask has taken (R283). -/
def takenAddr (s : State) : Option Nat :=
  let v := rd s SPR_TAKEOVER
  if bit v 3 then some (selfFlask s * 8 + bits v 0 3) else none
/-- The flask's spare as a destination. -/
def spareDest : Nat := 65536

/-- The carrier of an outer dimension for a taken position (R283): the workers that are not its inner neighbours, the
dimensions dealt in ascending order from the lowest. -/
def carrierOf (s : State) (pos d : Nat) : Nat :=
  let inner := (List.range 3).map (fun i => nb s pos i % 8)
  let c := (List.range 8).filter (fun p => p != pos && !inner.contains p)
  c.getD ((d - 3) % 4) 0

/-- The links to a worker at a position, seen from the spare: sprues 2p and 2p + 1 (R272). -/
def spareLinks (p : Nat) : List Nat := [4 * p, 4 * p + 2]
/-- The links of a dimension; on the spare with an address taken, those that stand for it (R283). -/
def linksOf (s : State) (d : Nat) : List Nat :=
  match isSpare s, ownAddress s with
  | true, some a => if d < 3 then spareLinks (nb s (a % 8) d % 8) else spareLinks (carrierOf s (a % 8) d)
  | _, _ => (allLinks s).filter (fun h => linkDim s h == d)
/-- The links to the spare, seen from a worker. -/
def poolLinks (s : State) : List Nat := (allLinks s).filter (fun h => linkDim s h == 16 || linkDim s h == 17)

/-- XOR of every 3-bit field of a number (R148). -/
def fold3 (g : Nat) : Nat := (List.range 16).foldl (fun a i => a ^^^ (g / 8 ^ i % 8)) 0
/-- The link that a packet takes among several: k mod n of those usable (R275). -/
def pickLink (s : State) (p : PktHdr) (l : List Nat) : Option Nat :=
  let u := l.filter (linkUsable s p)
  if u.isEmpty then none else u[fold3 (p.src ^^^ p.dest ^^^ p.cls) % u.length]?

/-- The routing entry of a bank for a destination (Table 7.4). -/
def routeEntry (s : State) (bank dest : Nat) : Nat := (spGet s.sprues.banks (bank % 4 * 65536 + dest % 65536) 0#32).toNat

/-- The key under which packets without a usable route wait. -/
def noLink : Nat := 63

/-- Drops a packet: its input's buffer is freed. -/
def dropPacket (s : State) (w : LinkWait) (counter : Nat) : State :=
  cntAdd (returnCredit s w.input w.key w.hdr.flits) counter 1
/-- A packet that a fence or slice mask stops on a link (R279). -/
def maskedPacket (s : State) (h : Nat) (w : LinkWait) (bySlice : Bool) : State :=
  let s1 := dropPacket s w (SPR_FENCEDROP_CNT_LO (h / 2) (h % 2))
  if bySlice then logUnit s1 0x010C (528 + h) [h / 2, w.hdr.slice, w.hdr.cls] else s1

/-- Puts a packet on a link, unless the link's slice mask stops it (R279). -/
def putOn (s : State) (h : Nat) (w : LinkWait) : State :=
  if sliceAllowed s h w.hdr.slice then queueAt s h w else maskedPacket s h w true

/-- The sprue that counts a packet that is dropped for want of a route: its input, or sprue 0 for the device's own. -/
def noRouteCnt (w : LinkWait) : Nat :=
  if w.input < 36 then SPR_NOROUTE_CNT_LO (w.input / 2) (w.input % 2) else SPR_NOROUTE_CNT_LO 0 0

/-- The next hop on the escape channel (R280): the highest differing dimension, or, that link being down, the lowest
dimension whose link is up with the layer one higher; none where layer 2 meets a down link. -/
def escapeHop (s : State) (p : PktHdr) (layer : Nat) : Option (Nat × Nat) :=
  let cur := (ownAddress s).getD 0
  let diff := cur ^^^ p.dest
  let dims := (List.range 16).filter (fun d => bit diff d)
  match (dims.getLast?).bind (fun d => pickLink s p (linksOf s d)) with
  | some h => some (h, layer)
  | none => if 2 ≤ layer then none else
      ((List.range 16).findSome? (fun d => pickLink s p (linksOf s d))).map (fun h => (h, layer + 1))

/-- A carrier's link for a packet of the taken address that the spare sent it: one of the outer dimensions dealt to it
(R283, log entry 41). -/
def carrierHop (s : State) (w : LinkWait) : Option Nat :=
  match takenAddr s, ownAddress s with
  | some a, some me =>
    if w.input < 36 ∧ 16 ≤ linkDim s w.input ∧ w.hdr.src = a ∧ !isSpare s then
      let dealt := (List.range 16).filter (fun d => decide (3 ≤ d ∧ d < bits (rd s SPR_TOPO) 4 5) &&
        carrierOf s (a % 8) d == me % 8 && bit (me ^^^ w.hdr.dest) d)
      let e := routeEntry s w.hdr.bank w.hdr.dest
      let pick := if dealt.contains (bits e 0 5) then some (bits e 0 5) else dealt.head?
      pick.bind (fun d => pickLink s w.hdr (linksOf s d))
    else none
  | _, _ => none

/-- Routes a packet (R274, R275, R280 to R283): answers the state and whether this device is its destination. -/
def routePacket (s : State) (w : LinkWait) : State × Bool :=
  let p := w.hdr
  let e := routeEntry s p.bank p.dest
  let hold (st : State) : State := setLink st noLink (fun l => { l with waits := l.waits ++ [w] })
  let go (o : Option Nat) : State × Bool := match o with
    | some h => (putOn s h w, false)
    | none => (hold s, false)
  if p.dest = spareDest then
    (if isSpare s then (s, true) else go (pickLink s p (poolLinks s)))
  else if ownAddress s = some p.dest then (s, true)
  else if isSpare s ∧ ownAddress s = none then
    (if p.dest / 8 = selfFlask s then go (pickLink s p (spareLinks (p.dest % 8)))
    else (dropPacket s w (noRouteCnt w), false))
  else if takenAddr s = some p.dest ∧ !isSpare s then go (pickLink s p (poolLinks s))
  else match p.layer with
    | some l => match escapeHop s p l with
      | some (h, n) => (putOn s h { w with hdr := { p with layer := some n } }, false)
      | none => (dropPacket s w (noRouteCnt w), false)
    | none => match carrierHop s w with
      | some h => (putOn s h w, false)
      | none =>
        if !bit e 31 then (dropPacket s w (noRouteCnt w), false)
        else if bit e 10 then (s, true)
        else match pickLink s p (linksOf s (bits e 0 5)) with
          | some h => (putOn s h w, false)
          | none => go (pickLink s p (linksOf s (bits e 5 5)))

/-- The flits of a packet with `n` bytes after its header (R267). -/
def flitsFor (n : Nat) : Nat := (32 + n + 247) / 248
/-- The data bytes of the largest packet: 8 flits, less the header. -/
def packetBytes : Nat := 8 * 248 - 32

/-- Hands a message of the device to the sprues: its content goes to its destination as an output, and its packets take
their route and credits (R276, R285, log entry 40). -/
def sendMsg (s : State) (name : String) (dest : Nat) (words : List Nat) (cls slice bank group bytes : Nat)
    (ctx : Nat := 16) : State :=
  let s1 := emit s (.packet name dest words)
  let cuts := if bytes = 0 then [0] else
    (List.range ((bytes + packetBytes - 1) / packetBytes)).map (fun i => min packetBytes (bytes - i * packetBytes))
  cuts.foldl (fun st n =>
    let hdr : PktHdr := ⟨dest, (ownAddress s).getD spareDest, cls, slice, bank, none, group, flitsFor n⟩
    (routePacket st ⟨hdr, [], 36, 0, st.clock.half, ctx⟩).1) s1

/-- The current phase bank of a context (R277). -/
def phaseOf (s : State) (x : Nat) : Nat := bits (rd s (SPR_CTX_PHASE x)) 0 2
/-- The slice tag of a context. -/
def sliceTag (s : State) (x : Nat) : Nat := bits (rd s (TND_CTX_CTRL x)) 8 4
/-- A flask position as a destination: an address of this flask, or the spare (R336). -/
def posDest (s : State) (p : Nat) : Nat := if p < 8 then selfFlask s * 8 + p else spareDest

end Sys2Proof.Machine
end

