-- ==== Sys2Proof/Machine/Mem.lean ====
section
/-! DEFINITION. The device address map, the tiers with their error correction, the scratchpads with their owner
tags, and the reads and writes that every agent makes of them (R91 to R93, R145 to R150, R184, R185). -/
namespace Sys2Proof.Machine
open Reg

/-- What an address reaches (Table 4.1, R146). -/
inductive Region where
  | near
  | far
  | shakeout
  | casting (k : Nat) (off : Nat)
  | scratch (c : Nat) (off : Nat)
  | window (f : Nat) (off : Nat)
  | unmapped
  | remote
deriving DecidableEq, Repr

/-- RA_SHARE: values 11 to 15 are taken as 10 (R150, Table 4.12). -/
def raShare (s : State) : Nat := min 10 (bits (rd s LDL_CFG) 0 4)

/-- The region of an address (Table 4.1). Beyond the software area a casting's window is unmapped (R150). -/
def region (s : State) (a : Nat) : Region :=
  if 2 ^ 48 ≤ a then .remote
  else if a < 0x8000000000 then .near
  else if a < 0x20000000000 then .unmapped
  else if a < 0x3FFF0000000 then .far
  else if a < 0x40000000000 then .shakeout
  else if a < 0x40010000000 then
    let o := (a - 0x40000000000) % 0x4000000
    if o < (40 - 4 * raShare s) * 0x100000 then .casting ((a - 0x40000000000) / 0x4000000) o else .unmapped
  else if 0x40100000000 ≤ a ∧ a < 0x40140000000 then
    let o := (a - 0x40100000000) % 0x400000
    if o < 0x300000 then .scratch ((a - 0x40100000000) / 0x400000) o else .unmapped
  else if 0x80000000000 ≤ a ∧ a < 0x89000000000 then
    .window ((a - 0x80000000000) / 0x1000000000) ((a - 0x80000000000) % 0x1000000000)
  else .unmapped

/-- The near-tier stack of an address (R148). -/
def nearStack (a : Nat) : Nat := fold3 (a / 2 ^ 11)
/-- The address within the stack (R148). -/
def nearLocal (a : Nat) : Nat := a / 2 ^ 14 * 2 ^ 11 + a % 2 ^ 11
/-- The pseudo-channel of an address (R148). -/
def nearPch (a : Nat) : Nat := ((nearLocal a / 2 ^ 8) ^^^ (nearLocal a / 2 ^ 14)) % 64
/-- The far-tier controller of an address (R149). -/
def farCtl (a : Nat) : Nat := fold3 ((a - 0x20000000000) / 2 ^ 12)
/-- The address within the controller (R149). -/
def farLocal (a : Nat) : Nat := (a - 0x20000000000) / 2 ^ 15 * 2 ^ 12 + (a - 0x20000000000) % 2 ^ 12
/-- The package of an address (R149). -/
def farPkg (a : Nat) : Nat := ((farLocal a / 2 ^ 12) ^^^ (farLocal a / 2 ^ 20)) % 4

/-- Whether a local address lies in the near tier. -/
def inNear (a : Nat) : Bool := decide (a < 0x8000000000)
/-- The register group of the stack or controller that serves a tier address (Table 4.13). -/
def tierGroup (a : Nat) : Nat :=
  if inNear a then MEM_STATUS (nearStack a) else FAR_STATUS (farCtl a)
/-- The risk part of the stack or controller that serves a tier address (R453). -/
def tierPart (a : Nat) : Nat := if inNear a then 264 + nearStack a else 272 + farCtl a

/-- One byte of the tiers or a casting buffer; a byte that nothing has written reads as zero (R519). -/
def byteAt (m : List Host.Cell) (a : Nat) : Byte := spGet m a 0
/-- `n` bytes from an address. -/
def bytesAt (m : List Host.Cell) (a n : Nat) : List Byte := (List.range n).map (fun i => byteAt m (a + i))
/-- A byte written. -/
def putByte (m : List Host.Cell) (a : Nat) (b : Byte) : List Host.Cell := spPut m a b 0
/-- Bytes written from an address. -/
def putBytes (m : List Host.Cell) (a : Nat) : List Byte → List Host.Cell
  | [] => m
  | b :: t => putBytes (putByte m a b) (a + 1) t
/-- Whether a memory has its canonical form. -/
def Memory.wf (m : List Host.Cell) : Bool := spWf m 0

/-- A little-endian number (R11). -/
def leNat : List Byte → Nat
  | [] => 0
  | b :: t => b.toNat + 256 * leNat t
/-- The `n` little-endian bytes of a number (R11). -/
def leBytes (n v : Nat) : List Byte := (List.range n).map (fun i => BitVec.ofNat 8 (v / 256 ^ i))

/-- Cuts the bytes of an access at the multiples of `u`: pairs of address and bytes. -/
def pieces (u : Nat) : Nat → Nat → List Byte → List (Nat × List Byte)
  | 0, _, _ => []
  | f + 1, a, bs =>
    if bs.isEmpty then [] else
    let n := u - a % u
    (a, bs.take n) :: pieces u f (a + n) (bs.drop n)

/-- The extents that an access of `n` bytes has in units of `u` bytes: pairs of address and length. -/
def extents (u a n : Nat) : List (Nat × Nat) :=
  if n = 0 then [] else
  (List.range ((a + n - 1) / u - a / u + 1)).map (fun i =>
    let b := max a ((a / u + i) * u)
    (b, min (a + n) ((a / u + i + 1) * u) - b))

/-- A risk accumulator raised by a weight in units of 2^-16 (R453). The watch and suspect events and the score follow
at the next risk update (R454). -/
def riskAdd (s : State) (u w : Nat) : State := satAdd s (CUP_RISK_ACC u) w

/-- The number of the reader that events 0x0302 and 0x0304 record: item, scrub or host, in that order (R520). -/
inductive Reader where
  | item | scrub | host
deriving DecidableEq, Repr

/-- The code of a reader. -/
def readerCode : Reader → Nat
  | .item => 1 | .scrub => 2 | .host => 3

/-- An uncorrectable unit met by a read: counted, latched and recorded (R184). -/
def tierUe (s : State) (r : Reader) (a : Nat) : State :=
  let g := tierGroup a
  let u := a / 64 * 64
  let s1 := riskAdd (setReg64 (cntAdd s (g + 0x10) 1) (g + 0x18) u) (tierPart a) (2 ^ 16 * 32)
  if inNear a then logUnit s1 0x0302 (nearStack a) ([nearStack a] ++ datum64 u ++ [readerCode r])
  else logUnit s1 0x0304 (farCtl a) ([farCtl a, farPkg a] ++ datum64 u ++ [readerCode r])

/-- A corrected unit: counted and recorded (R184). -/
def tierCe (s : State) (a symbols : Nat) : State :=
  let s1 := riskAdd (cntAdd s (tierGroup a + 0x8) 1) (tierPart a) (2 ^ 16 / 64)
  if inNear a then logUnit s1 0x0301 (nearStack a) ([nearStack a] ++ datum64 (a / 64 * 64) ++ [symbols])
  else logUnit s1 0x0303 (farCtl a) ([farCtl a, farPkg a] ++ datum64 (a / 64 * 64))

/-- Whether the 64-byte unit of an address is poisoned (R184). -/
def isPoisoned (s : State) (a : Nat) : Bool := spGet s.poison (a / 64) 0 == 1
/-- The state with a unit's poison set or cleared. -/
def setPoison (s : State) (a : Nat) (p : Bool) : State := { s with poison := spPut s.poison (a / 64) (b2n p) 0 }

/-- The state with other tier and casting-buffer bytes. -/
def State.withMem (s : State) (m : List Host.Cell) : State := { s with mem := m }

/-- Reads one unit's bytes from a tier: counted; a poisoned unit is reported and delivered as 0xFF (R184). -/
def tierRead (s : State) (r : Reader) (a n : Nat) : State × List Byte × Nat :=
  let s1 := cntAdd s (tierGroup a + 0x20) 1
  if isPoisoned s a then (tierUe s1 r a, List.replicate n 0xFF, 1) else (s1, bytesAt s.mem a n, 0)

/-- Writes bytes within one unit of a tier. A whole unit clears its poison; a partial write reads the unit first, and
fails where it is poisoned (R185). -/
def tierWrite (s : State) (r : Reader) (a : Nat) (bs : List Byte) : State × Nat :=
  let s1 := cntAdd s (tierGroup a + 0x28) 1
  if bs.length = 64 then (setPoison (s1.withMem (putBytes s.mem a bs)) a false, 0)
  else
    let s2 := cntAdd s1 (tierGroup a + 0x20) 1
    if isPoisoned s a then (tierUe s2 r a, 1) else (s2.withMem (putBytes s.mem a bs), 0)

/-- The physical crucible that carries a logical one (TND_PHYS). -/
def physOf (s : State) (c : Nat) : Nat := spGet s.physMap c c
/-- The physical crucible's state. -/
def cruOf (s : State) (p : Nat) : Crucible := spGet s.crus p ⟨none, none, 0, none⟩
/-- The state with a physical crucible changed. -/
def setCru (s : State) (p : Nat) (c : Crucible) : State :=
  { s with crus := spPut s.crus p c ⟨none, none, 0, none⟩ }

/-- A gate counter of a physical crucible by its place in Table 3.14: in its CRU instance, or in the spare window
(R143, R510). -/
def gateCnt (p k : Nat) : Nat :=
  if p < 256 then CRU_BUSY_CNT_LO p + 8 * k
  else GLB_SPARE_BUSY_CNT_LO ((p - 256) / 2) ((p - 256) % 2) + 8 * k
/-- An array counter of a physical crucible by its place in Table 2.6, busy first. -/
def arrCnt (p a k : Nat) : Nat :=
  if p < 256 then CRU_ARR_BUSY_CNT_LO p a + 8 * k
  else GLB_SPARE_ARR_BUSY_CNT_LO ((p - 256) / 2) ((p - 256) % 2) a + 8 * k

/-- The key of a scratchpad byte of a physical crucible. -/
def spadKey (p off : Nat) : Nat := 2 ^ 22 * p + off
/-- The key of a scratchpad line's owner tag. -/
def tagKey (p line : Nat) : Nat := 2 ^ 15 * p + line
/-- The stored bytes of a scratchpad. -/
def spadRaw (s : State) (p off n : Nat) : List Byte := bytesAt s.spad (spadKey p off) n
/-- The state with other scratchpad bytes. -/
def State.withSpad (s : State) (m : List Host.Cell) : State := { s with spad := m }

/-- A context's read within one scratchpad line: zeros, counted, where the tag is not its own (R93). `q` is the
physical crucible that executes the reading item. -/
def spadReadLine (s : State) (q p x off n : Nat) : State × List Byte :=
  if spGet s.tags (tagKey p (off / 128)) 0 = x + 1 then (s, spadRaw s p off n)
  else (cntAdd s (gateCnt q 9) 1, List.replicate n 0)

/-- A context's write within one scratchpad line: a line of another owner is zeroed first, and the tag is set (R93). -/
def spadWriteLine (s : State) (p x off : Nat) (bs : List Byte) : State :=
  let k := tagKey p (off / 128)
  if spGet s.tags k 0 = x + 1 then s.withSpad (putBytes s.spad (spadKey p off) bs)
  else
    let z := putBytes s.spad (spadKey p (off / 128 * 128)) (List.replicate 128 0)
    { s.withSpad (putBytes z (spadKey p off) bs) with tags := spPut s.tags k (x + 1) 0 }

/-- A context's read of `n` scratchpad bytes. -/
def spadRead (s : State) (q p x off n : Nat) : State × List Byte :=
  (extents 128 off n).foldl (fun (st : State × List Byte) e =>
    let r := spadReadLine st.1 q p x e.1 e.2
    (r.1, st.2 ++ r.2)) (s, [])

/-- A context's write of scratchpad bytes. -/
def spadWrite (s : State) (p x off : Nat) (bs : List Byte) : State :=
  (pieces 128 (bs.length + 1) off bs).foldl (fun st e => spadWriteLine st p x e.1 e.2) s

/-- Who makes a memory access: a context's item on a physical crucible, or the host, the management path or a device
unit, whose scratchpad writes follow GLB_BAR2_TAG and whose reads return the stored bytes (R93, R512). -/
structure Agent where
  ctx    : Option Nat
  phys   : Nat
  reader : Reader
deriving DecidableEq, Repr

/-- The context under which a write without an item acts on a scratchpad line (R512). -/
def bar2Tag (s : State) : Option Nat :=
  let t := rd s GLB_BAR2_TAG
  if bit t 4 then some (bits t 0 4) else none

/-- Drops the buffered run-ahead line of an address from every stream, counting each (R182). -/
def raInvalidate (s : State) (a : Nat) : State :=
  let l := a / 128 * 128
  let hits := (s.ladle.streams.map (fun e => e.2.buf.countP (fun b => b.addr == l && b.peek == none))).sum
  if hits = 0 then s else
  let st := s.ladle.streams.map (fun e =>
    (e.1, { e.2 with buf := e.2.buf.filter (fun b => !(b.addr == l && b.peek == none)) }))
  cntAdd { s with ladle := { s.ladle with streams := st } } LDL_RA_INVAL_CNT_LO hits

end Sys2Proof.Machine
end

