-- ==== Sys2Proof/Machine/Access.lean ====
section
/-! DEFINITION. Reads and writes of device memory by every agent: ingot copies first, the window's directory, poison,
owner tags and the invalidation of run-ahead lines (R93, R158, R182, R337, R338, R400, R512). -/
namespace Sys2Proof.Machine
open Reg

/-- The pages that come before range `r` in the map: those of the PRIVATE and REPLICATED ranges below it (R398). -/
def ingRangePages (s : State) (r : Nat) : Nat :=
  let k := bits (rd s (CUP_ING_RNG_KIND r)) 0 2
  if k = 1 ∨ k = 2 then rd s (CUP_ING_RNG_LIMIT r) - rd s (CUP_ING_RNG_BASE r) else 0

/-- The pages of the ranges below `r`. -/
def ingPagesBelow (s : State) (r : Nat) : Nat := ((List.range r).map (ingRangePages s)).sum

/-- The page index of an address, in range and page order; none outside PRIVATE and REPLICATED ranges (R398, R400). -/
def ingPageOf (s : State) (a : Nat) : Option Nat :=
  ((List.range 64).find? (fun r =>
    let k := bits (rd s (CUP_ING_RNG_KIND r)) 0 2
    (k == 1 || k == 2) && decide (rd s (CUP_ING_RNG_BASE r) ≤ a / 65536) && decide (a / 65536 < rd s (CUP_ING_RNG_LIMIT r)))).map
  (fun r => ingPagesBelow s r + (a / 65536 - rd s (CUP_ING_RNG_BASE r)))

/-- Whether the ingot is on (R398). -/
def ingOn (s : State) : Bool := bit (rd s CUP_ING_CTRL) 0

/-- A map half of a page: half 0 or 1 (R398). -/
def mapHalf (s : State) (page half : Nat) : Nat :=
  leNat (bytesAt s.mem (rd64 s CUP_ING_MAP_BASE_LO + 16 * page + 8 * half) 8)
/-- Whether a map half is valid. -/
def halfValid (h : Nat) : Bool := bit h 63
/-- The epoch of a map half, its low 16 bits. -/
def halfEpoch (h : Nat) : Nat := bits h 32 16
/-- The store slot of a map half. -/
def halfSlot (h : Nat) : Nat := bits h 0 32
/-- The address of a store slot. -/
def storeAddr (s : State) (slot : Nat) : Nat := rd64 s CUP_ING_STORE_BASE_LO + 65536 * slot

/-- Writes a map half. Only the Cupola writes the map, and its writes make no copy (R398, R400). -/
def setMapHalf (s : State) (page half v : Nat) : State :=
  s.withMem (putBytes s.mem (rd64 s CUP_ING_MAP_BASE_LO + 16 * page + 8 * half) (leBytes 8 v))

/-- The slots reserved for the register images of two epochs, the first of the store (R399). -/
def imageSlots : Nat := 256

/-- Copies a 64 KiB page, unit by unit, with its poison. -/
def copyPage (s : State) (a b : Nat) : State :=
  (List.range 1024).foldl (fun st i =>
    let u := a + 64 * i
    let v := b + 64 * i
    let st1 := cntAdd (cntAdd st (tierGroup u + 0x20) 1) (tierGroup v + 0x28) 1
    setPoison (st1.withMem (putBytes st1.mem v (bytesAt st1.mem u 64))) v (isPoisoned st u)) s

/-- A free store slot, which one is not stated (log entry 44); none when every slot is in use. The slots in use are listed
in rising order, so that the free slot number `j` is met by passing over those at or below it. -/
def freeSlot (s : State) : Option Nat :=
  let n := rd s CUP_ING_STORE_SLOTS - imageSlots - s.ingot.used.length
  if n = 0 then none
  else some (s.ingot.used.foldl (fun k e => if e.1 ≤ k then k + 1 else k) (imageSlots + Config.freeNat s.draws % n))

/-- The state with the ingot changed. -/
def State.withIngot (s : State) (i : Ingot) : State := { s with ingot := i }

/-- The copy on the first write to a page in an epoch (R400, R401): the page goes to a free slot, then the map half is
written. Before the first cut there is nothing to keep. With no free slot the writer waits (R402). -/
def copyOnWrite (s : State) (a : Nat) : State :=
  if !ingOn s || rd s CUP_ING_EPOCH == 0 then s else
  match ingPageOf s a with
  | none => s
  | some pg =>
    let e := rd s CUP_ING_EPOCH % 65536
    let h0 := mapHalf s pg 0
    let h1 := mapHalf s pg 1
    if (halfValid h0 && halfEpoch h0 == e) || (halfValid h1 && halfEpoch h1 == e) then s else
    match freeSlot s with
    | none => s.withIngot { s.ingot with blocked := true }
    | some k =>
      let b := a / 65536 * 65536
      let s1 := copyPage (drawNat s).2 b (storeAddr s k)
      let s2 := setMapHalf s1 pg (if halfValid h0 then 1 else 0) (k + 2 ^ 32 * e + 2 ^ 63)
      cntAdd (s2.withIngot { s2.ingot with used := spPut s2.ingot.used k 1 0 }) CUP_ING_COW_CNT_LO 1

/-- WIN_SIZE in bytes; 65 to 127 are taken as 64 (Table 9.5). -/
def winBytes (s : State) : Nat := min 64 (bits (rd s FLK_WIN_SIZE) 0 7) * 2 ^ 30
/-- Whether this device exports a window (R337, R341). -/
def winOn (s : State) : Bool := bit (rd s FLK_CTRL) 0 && winBytes s != 0
/-- The offset in this device's own window of a near-tier address in the backing range (R338). -/
def ownWindow (s : State) (a : Nat) : Option Nat :=
  let b := rd64 s FLK_WIN_BACK_LO
  if winOn s && decide (b ≤ a) && decide (a < b + winBytes s) then some (a - b) else none
/-- Whether a near-tier address lies in the directory (R337). -/
def inDirectory (s : State) (a : Nat) : Bool :=
  let b := rd64 s FLK_DIR_BASE_LO
  winBytes s != 0 && decide (b ≤ a) && decide (a < b + winBytes s / 32)

/-- The directory entry of a line (Table 9.1). -/
def dirEntry (s : State) (line : Nat) : Nat := leNat (bytesAt s.mem (rd64 s FLK_DIR_BASE_LO + 4 * line) 4)
/-- Writes a directory entry: state, vector, version. A home write, so ingot copies come first (R400). -/
def setDirEntry (s : State) (line st vec ver : Nat) : State :=
  let a := rd64 s FLK_DIR_BASE_LO + 4 * line
  let e := st + vec % 512 * 4 + ver % 65536 * 65536
  if dirEntry s line = e then s else
  let s1 := copyOnWrite s a
  s1.withMem (putBytes s1.mem a (leBytes 4 e))
/-- STATE of an entry: 0 UNCACHED, 1 SHARED, 2 OWNED. -/
def dirState (e : Nat) : Nat := bits e 0 2
/-- VEC of an entry. -/
def dirVec (e : Nat) : Nat := bits e 2 9
/-- VERSION of an entry. -/
def dirVer (e : Nat) : Nat := bits e 16 16

/-- This device's flask position: ADDR bits 2:0, or 8 for the spare under its own identity (R336). -/
def ownPos (s : State) : Nat :=
  let w := rd s SPR_SELF
  if bit w 29 && !bit w 30 then 8 else bits w 0 3

/-- The directory pass of an access to the own window (R338, R342): a read of an OWNED line, and a write of a SHARED
or OWNED line, must first have the line snooped; a write advances VERSION. -/
def homePass (s : State) (a : Nat) (write : Bool) (x : Nat) : State :=
  match ownWindow s a with
  | none => s
  | some o =>
    let l := o / 128
    let e := dirEntry s l
    if write then
      if dirState e = 0 then setDirEntry s l 0 0 (dirVer e + 1)
      else { s with flask := { s.flask with need := s.flask.need ++ [(l, .homeWrite, x)] } }
    else if dirState e = 2 then { s with flask := { s.flask with need := s.flask.need ++ [(l, .homeRead, x)] } }
    else s

/-- The address that a local access reaches: an offset of this device's own window is its backing address (R337). -/
def ownAddr (s : State) (a : Nat) : Nat :=
  match region s a with
  | .window f o => if f = ownPos s ∧ o < winBytes s then rd64 s FLK_WIN_BACK_LO + o else a
  | _ => a

/-- The context under which an agent's scratchpad accesses act. -/
def agentCtx (s : State) (g : Agent) : Option Nat :=
  match g.ctx with
  | some x => some x
  | none => bar2Tag s

/-- Reads the bytes of one 128-byte piece. Answers the bytes and the poisoned units met. An address with no memory
behind it, or served by another agent, gives nothing here: its callers check it first. -/
def readPiece (s : State) (g : Agent) (a n : Nat) : State × List Byte × Nat :=
  let b := ownAddr s a
  match region s b with
  | .near =>
    let s0 := homePass s b false (g.ctx.getD 0)
    (extents 64 b n).foldl (fun (st : State × List Byte × Nat) e =>
      let r := tierRead st.1 g.reader e.1 e.2
      (r.1, st.2.1 ++ r.2.1, st.2.2 + r.2.2)) (s0, [], 0)
  | .far | .shakeout =>
    (extents 64 b n).foldl (fun (st : State × List Byte × Nat) e =>
      let r := tierRead st.1 g.reader e.1 e.2
      (r.1, st.2.1 ++ r.2.1, st.2.2 + r.2.2)) (s, [], 0)
  | .casting _ _ => (s, bytesAt s.mem b n, 0)
  | .scratch c o =>
    match g.ctx with
    | some x => let r := spadReadLine s g.phys (physOf s c) x o n; (r.1, r.2, 0)
    | none => (s, spadRaw s (physOf s c) o n, 0)
  | _ => (s, List.replicate n 0xFF, 0)

/-- Reads `n` bytes of device memory as an agent. -/
def devRead (s : State) (g : Agent) (a n : Nat) : State × List Byte × Nat :=
  let all := (extents 128 a n).foldl (fun (st : State × List (List Byte) × Nat) e =>
    let r := readPiece st.1 g e.1 e.2
    (r.1, r.2.1 :: st.2.1, st.2.2 + r.2.2)) (s, [], 0)
  (all.1, all.2.1.reverse.flatten, all.2.2)

/-- Writes the bytes of one 128-byte piece; answers the partial writes that failed on a poisoned unit (R185). -/
def writePiece (s : State) (g : Agent) (a : Nat) (bs : List Byte) : State × Nat :=
  let b := ownAddr s a
  match region s b with
  | .near | .far | .shakeout =>
    let s0 := raInvalidate (homePass (copyOnWrite s b) b true (g.ctx.getD 0)) b
    (pieces 64 (bs.length + 1) b bs).foldl (fun (st : State × Nat) e =>
      let r := tierWrite st.1 g.reader e.1 e.2
      (r.1, st.2 + r.2)) (s0, 0)
  | .casting _ _ => (s.withMem (putBytes s.mem b bs), 0)
  | .scratch c o =>
    match agentCtx s g with
    | some x => (spadWriteLine s (physOf s c) x o bs, 0)
    | none => (s.withSpad (putBytes s.spad (spadKey (physOf s c) o) bs), 0)
  | _ => (s, 0)

/-- Writes bytes to device memory as an agent. -/
def devWrite (s : State) (g : Agent) (a : Nat) (bs : List Byte) : State × Nat :=
  (pieces 128 (bs.length + 1) a bs).foldl (fun (st : State × Nat) e =>
    let r := writePiece st.1 g e.1 e.2
    (r.1, st.2 + r.2)) (s, 0)

/-- The host, the management path, or a device unit. -/
def hostAgent : Agent := ⟨none, 0, .host⟩
/-- An item of context `x` on physical crucible `p`. -/
def itemAgent (x p : Nat) : Agent := ⟨some x, p, .item⟩

/-- A device unit's read of one 32-bit word. -/
def devWord (s : State) (a : Nat) : Nat := leNat (bytesAt s.mem a 4)
/-- A device unit's write of little-endian words. -/
def devWords (s : State) (g : Agent) (a : Nat) (ws : List Nat) : State :=
  (devWrite s g a (ws.flatMap (leBytes 4))).1

/-- Snoops that an access of this device must have before it proceeds: each opens a home transaction (R338, R342,
R344). A line that already has one waits for it. -/
def openSnoop (s : State) (l : Nat) (k : WinReq) (x : Nat) : State :=
  if s.flask.home.any (fun t => t.line == l) then s else
  let e := dirEntry s l
  let targets := (List.range 9).filter (fun p => bit (dirVec e) p)
  let name := if dirState e = 2 then (if k = .homeRead then "SNP_SHR" else "SNP_RCL") else "SNP_INV"
  let s1 := targets.foldl (fun st p => sendMsg st name (posDest s p) [l] 1 (sliceTag s x) (phaseOf s x) 0 0 x) s
  let s2 := cntAdd s1 FLK_SNOOP_CNT_LO targets.length
  { s2 with flask := { s2.flask with home := s2.flask.home ++
    [⟨l, 15, k, 0, [], 0, sliceTag s x, phaseOf s x, targets.map (fun p => (p, tickNow s)), false⟩] } }

/-- Completes a command that accessed memory from `s` to `t`, or makes it wait with nothing done: for a store slot
(R402), or for the snoops of lines in the own window (R338), which are sent (log entry 6). -/
def orWait (s t : State) : State :=
  if t.ingot.blocked then s.withIngot { s.ingot with waiting := true }
  else match t.flask.need with
    | [] => if t.ingot.waiting then t.withIngot { t.ingot with waiting := false } else t
    | need => need.foldl (fun st e => openSnoop st e.1 e.2.1 e.2.2) s

end Sys2Proof.Machine
end

