-- ==== Sys2Proof/Machine/Formats.lean ====
section
/-! DEFINITION. The formats of Table 1.1: block scales, block elements, conversions with their slag counts, and
the stochastic-rounding generator (R20 to R42, R54). -/
namespace Sys2Proof.Machine

/-- The slag that a conversion counts against its tensor (R54), and the invalid codes it read. -/
structure Slag where
  nonfin : Nat
  sat    : Nat
  inval  : Nat
deriving DecidableEq, Repr

/-- No slag. -/
def slagZero : Slag := ⟨0, 0, 0⟩
/-- The sum of two slag counts. -/
def slagAdd (a b : Slag) : Slag := ⟨a.nonfin + b.nonfin, a.sat + b.sat, a.inval + b.inval⟩
/-- `n` non-finite values. -/
def slagNonfin (n : Nat) : Slag := ⟨n, 0, 0⟩

/-- The finaliser of R37. -/
def srMix (z : BitVec 64) : BitVec 64 :=
  let a := (z ^^^ (z >>> 30)) * 0xBF58476D1CE4E5B9#64
  let b := (a ^^^ (a >>> 27)) * 0x94D049BB133111EB#64
  b ^^^ (b >>> 31)

/-- The 16-bit draw of one element: a pure function of seed, step, tensor and index (R37, R38). -/
def srBits (seed step tensor index : Nat) : Nat :=
  let key := srMix (BitVec.ofNat 64 seed ^^^
    BitVec.ofNat 64 (step % 2 ^ 32 * 2 ^ 32 + tensor % 2 ^ 24))
  let z := srMix (key + BitVec.ofNat 64 (index % 2 ^ 40) * 0x9E3779B97F4A7C15#64)
  (z >>> 48).toNat

/-- What an operation fixes for the rounding of its elements: the mode bit of R34 and the inputs of R37. -/
structure RoundCtx where
  stochastic : Bool
  seed   : Nat
  step   : Nat
  tensor : Nat
deriving DecidableEq, Repr

/-- Rounding to nearest even throughout. -/
def roundNearest : RoundCtx := ⟨false, 0, 0, 0⟩

/-- The rounding of the element with this linear index (R34, R37). -/
def roundAt (c : RoundCtx) (index : Nat) : Rounding :=
  if c.stochastic then .stochastic (srBits c.seed c.step c.tensor index) else .rne

/-- Converts one value into a scalar format under Table 1.8, saturating or not (R39 to R41). -/
def convScalar (f : FpFormat) (sat : Bool) (md : Rounding) (x : Fp) : Nat × Slag :=
  let signed (neg : Bool) (c : Nat) : Nat := if neg then c + f.signBit else c
  let special (neg : Bool) : Nat :=
    if sat then signed neg f.maxCode
    else if f.infs then signed neg (f.maxCode + 1) else f.nanCode
  match x with
  | .nan => (f.nanCode, slagNonfin 1)
  | .inf neg => (special neg, slagNonfin 1)
  | .fin neg m e =>
    match roundMag f md m 1 e with
    | .code c => (signed neg c, slagZero)
    | .over => (special neg, ⟨if sat then 0 else 1, 1, 0⟩)

/-- The block formats of Table 1.1. -/
inductive BlockKind where
  | kf4 | k4i | mxfp4 | mxfp8e4 | mxfp8e5 | t2
deriving DecidableEq, Repr

/-- The elements of one block (Table 1.1). -/
def BlockKind.size : BlockKind → Nat
  | .t2 => 64
  | _ => 32

/-- Whether the scale is the 10-bit scale of R20; otherwise E8M0 (R21). -/
def BlockKind.tenBit : BlockKind → Bool
  | .kf4 | .k4i | .t2 => true
  | _ => false

/-- A block scale as `m * 2^e`; none is the NaN scale (R20, R21). -/
def scaleValue (tenBit : Bool) (code : Nat) : Option (Nat × Int) :=
  if tenBit then
    let c := code % 1024
    if c / 4 = 255 then none else some (4 + c % 4, (c / 4 : Int) - 129)
  else
    let c := code % 256
    if c = 255 then none else some (1, (c : Int) - 127)

/-- The NaN scale as the device writes it (R20, R21). -/
def nanScale (tenBit : Bool) : Nat := if tenBit then 0x3FF else 0xFF
/-- The scale 1.0 (R30). -/
def oneScale (tenBit : Bool) : Nat := if tenBit then 0x1FC else 0x7F

/-- Emax of Table 1.7; for T2 the clamp bound of R31. -/
def BlockKind.emax : BlockKind → Nat
  | .kf4 => 6 | .k4i => 7 | .mxfp4 => 6 | .mxfp8e4 => 448 | .mxfp8e5 => 57344 | .t2 => 1

/-- The cap of Table 1.7, as a scale code. -/
def BlockKind.cap : BlockKind → Nat
  | .kf4 => 0x3F1 | .k4i => 0x3F0 | .mxfp4 => 0xFC | .mxfp8e4 => 0xF6 | .mxfp8e5 => 0xEF | .t2 => 0x3FB

/-- The exponent of Emax, for the shared-exponent rule of R33. -/
def BlockKind.emaxExp : BlockKind → Int
  | .mxfp8e4 => 8 | .mxfp8e5 => 15 | _ => 2

/-- The layout of a floating-point element; none for the integer elements of K4i and T2. -/
def BlockKind.elem : BlockKind → Option FpFormat
  | .kf4 | .mxfp4 => some fmtE2m1
  | .mxfp8e4 => some fmtE4m3
  | .mxfp8e5 => some fmtE5m2
  | .k4i | .t2 => none

/-- The largest finite magnitude of a block, as `m * 2^e` (R29). -/
def blockAmax (xs : List Fp) : Nat × Int :=
  xs.foldl (fun a x => match x with
    | .fin _ m e => if dyLt a.1 a.2 m e then (m, e) else a
    | _ => a) (0, 0)

/-- The sum of the finite magnitudes of a block, exact (R31). -/
def blockAbsSum (xs : List Fp) : Nat × Int :=
  xs.foldl (fun a x => match x with
    | .fin _ m e => let u := min a.2 e; (a.1 * 2 ^ (a.2 - u).toNat + m * 2 ^ (e - u).toNat, u)
    | _ => a) (0, 0)

/-- The derived scale of R29: the smallest scale whose Emax multiple reaches the largest magnitude, at most the
cap. -/
def derivedScale (k : BlockKind) (amax : Nat × Int) : Nat :=
  leastFrom (fun c => match scaleValue k.tenBit c with
    | some (m, e) => !dyLt (k.emax * m) e amax.1 amax.2
    | none => true) 0 k.cap

/-- The derived T2 scale of R31: nearest to the mean magnitude, a tie to the even code. -/
def derivedT2 (xs : List Fp) : Nat :=
  let s := blockAbsSum xs
  let mean : Nat × Int := (s.1, s.2 - 6)
  let val (c : Nat) : Nat × Int := (scaleValue true c).getD (0, 0)
  let hi := leastFrom (fun c => !dyLt (val c).1 (val c).2 mean.1 mean.2) 0 0x3FB
  if hi = 0 then 0 else
  if dyLt (val hi).1 (val hi).2 mean.1 mean.2 then hi else
  -- the midpoint of the two neighbours, doubled, against the doubled mean
  let lo := hi - 1
  let u := min (val lo).2 (val hi).2
  let mid := (val lo).1 * 2 ^ ((val lo).2 - u).toNat + (val hi).1 * 2 ^ ((val hi).2 - u).toNat
  if dyLt mid u (mean.1) (mean.2 + 1) then hi
  else if dyLt mean.1 (mean.2 + 1) mid u then lo
  else if lo % 2 = 0 then lo else hi

/-- The scale of the shared-exponent rule (R33). -/
def ocpScale (k : BlockKind) (amax : Nat × Int) : Nat :=
  let sh := ratTop amax.1 1 + amax.2 - 1 - k.emaxExp
  if sh < -127 then 0 else (sh + 127).toNat

/-- The zero element of a block format as it is written (R30): trit 0 is digit 1. -/
def zeroElem : BlockKind → Nat
  | .t2 => 1
  | _ => 0

/-- Rounds one finite element at a block scale and clamps it to Emax; tells whether it saturated (R29, R31, R32,
R40). -/
def blockElem (k : BlockKind) (md : Rounding) (scale : Nat × Int) (neg : Bool) (m : Nat) (e : Int) : Nat × Bool :=
  match k.elem with
  | some f =>
    match roundMag f md m scale.1 (e - scale.2) with
    | .code c =>
      let c' := if neg && !(c == 0 && f.expBits == 2) then c + f.signBit else c
      (c', false)
    | .over => (if neg then f.maxCode + f.signBit else f.maxCode, true)
  | none =>
    let beyond := dyLt (k.emax * scale.1) scale.2 m e
    let n := match md with
      | .rne => roundUnits .rne m scale.1 (e - scale.2) 0
      | .stochastic r => if beyond then k.emax + 1 else roundUnits (.stochastic r) m scale.1 (e - scale.2) 0
    let big := decide (k.emax < n)
    let v := if big then k.emax else n
    if k == .t2 then ((if neg then 1 - v else 1 + v), big)
    else (if neg && v != 0 then 16 - v else v, big)

/-- What the caller fixes for a block conversion: a supplied scale (R32), the shared-exponent rule (R33), and the
overflow mode for the non-finite inputs of an MXFP8 block (R30). -/
structure BlockOpts where
  supplied : Option Nat
  ocp      : Bool
  sat      : Bool
deriving DecidableEq, Repr

/-- Whether a block format holds non-finite elements of its own (MXFP8). -/
def BlockKind.mx8 : BlockKind → Bool
  | .mxfp8e4 | .mxfp8e5 => true
  | _ => false

/-- Converts one block. Answers the scale code, the element codes, and the slag (R29 to R36, R54). `rnd` gives the
rounding of the element at a position of the block. -/
def convBlock (k : BlockKind) (o : BlockOpts) (rnd : Nat → Rounding) (xs : List Fp) : Nat × List Nat × Slag :=
  let bad := xs.countP (fun x => !fpFinite x)
  let amax := blockAmax xs
  let derived :=
    if bad ≠ 0 && !k.mx8 then nanScale k.tenBit
    else if amax.1 = 0 then oneScale k.tenBit
    else if k == .t2 then derivedT2 xs
    else if o.ocp && !k.tenBit then ocpScale k amax
    else derivedScale k amax
  let code := o.supplied.getD derived
  match scaleValue k.tenBit code with
  | none =>
    let n := if o.supplied.isSome then k.size else bad
    (code, xs.map (fun _ => zeroElem k), slagNonfin n)
  | some scale =>
    if bad ≠ 0 && !k.mx8 then (code, xs.map (fun _ => zeroElem k), slagNonfin bad) else
    let conv := xs.zipIdx.map (fun (x, i) => match x with
      | .fin neg m e => let r := blockElem k (rnd i) scale neg m e; (r.1, r.2)
      | y => ((convScalar (k.elem.getD fmtE4m3) o.sat .rne y).1, false))
    (code, conv.map (·.1), ⟨bad, if conv.any (·.2) && (k != .t2 || o.supplied.isSome) then 1 else 0, 0⟩)

/-- The exact product of an element value and a block scale; a NaN scale gives NaN (R20). -/
def scaleFp (x : Fp) (scale : Option (Nat × Int)) : Fp :=
  match scale with
  | none => .nan
  | some (m, e) => fpMul x (.fin false m e)

/-- The value of a stored 4-bit, 8-bit or trit element code before its scale; and whether it was an invalid K4i
code (R24). -/
def elemValue (k : BlockKind) (code : Nat) : Fp × Bool :=
  match k with
  | .kf4 | .mxfp4 => (fpDecode fmtE2m1 code, false)
  | .mxfp8e4 => (fpDecode fmtE4m3 code, false)
  | .mxfp8e5 => (fpDecode fmtE5m2 code, false)
  | .k4i =>
    let c := code % 16
    if c = 8 then (.fin false 0 0, true)
    else if c < 8 then (.fin false c 0, false) else (.fin true (16 - c) 0, false)
  | .t2 => (if code = 0 then .fin true 1 0 else if code = 1 then .fin false 0 0 else .fin false 1 0, false)

/-- The low and then the high 4-bit code of each byte (R25). -/
def nibbles (bs : List Nat) : List Nat := bs.flatMap (fun b => [b % 16, b / 16 % 16])

/-- Packs 4-bit codes two to a byte (R25). -/
def packNibbles : List Nat → List Nat
  | a :: b :: t => (a % 16 + 16 * (b % 16)) :: packNibbles t
  | [a] => [a % 16]
  | [] => []

/-- The five digits of a T2 byte; an invalid byte reads as five zeros (R27). -/
def t2Digits (b : Nat) : List Nat × Bool :=
  if 243 ≤ b then ([1, 1, 1, 1, 1], true)
  else ([b % 3, b / 3 % 3, b / 9 % 3, b / 27 % 3, b / 81 % 3], false)

/-- Packs five digits into a byte (R27). -/
def t2Byte (ds : List Nat) : Nat := ds.foldr (fun d a => d + 3 * a) 0

/-- The 64 digits and the invalid bytes of a T2 record (R27, R28). -/
def t2Record (bs : List Nat) : List Nat × Nat :=
  let parts := (bs.take 13).map t2Digits
  ((parts.flatMap (·.1)).take 64, parts.countP (·.2))

/-- The 10-bit scale of a T2 record (R22, R28). -/
def t2Scale (bs : List Nat) : Nat := (bs.getD 13 0 + 256 * bs.getD 14 0) % 1024

/-- Cuts a list into pieces of `n`, as many as `fuel` allows. -/
def chunksOf (n : Nat) (fuel : Nat) (l : List α) : List (List α) :=
  match fuel with
  | 0 => []
  | f + 1 => if l.isEmpty then [] else l.take n :: chunksOf n f (l.drop n)

/-- The 16 bytes of a T2 record from its digits and scale (R28). -/
def t2Pack (digits : List Nat) (scale : Nat) : List Nat :=
  let full := (chunksOf 5 12 (digits.take 60)).map t2Byte
  full ++ [t2Byte (digits.drop 60), scale % 256, scale / 256 % 4, 0]

/-- The decoded values and the invalid codes of one block, given its element codes and scale code (R20 to R27). -/
def decodeBlock (k : BlockKind) (scale : Nat) (codes : List Nat) : List Fp × Nat :=
  let sv := scaleValue k.tenBit scale
  let es := codes.map (elemValue k)
  (es.map (fun e => scaleFp e.1 sv), es.countP (·.2))

end Sys2Proof.Machine
end

