-- ==== Sys2Proof/Machine/Queue.lean ====
section
/-! DEFINITION. Queues, items, completion records, choices and taint: what the gate and every engine share
(R94 to R105, R113 to R115, R137 to R139, R364, R367, R390). -/
namespace Sys2Proof.Machine
open Reg

/-- The key of queue (x, q) of logical crucible c. -/
def qKey (c x q : Nat) : Nat := c * 128 + x * 8 + q
/-- The crucible, context and queue of a key. -/
def qCru (k : Nat) : Nat := k / 128
/-- The context of a queue key. -/
def qCtx (k : Nat) : Nat := k / 8 % 16
/-- The queue index of a queue key. -/
def qIdx (k : Nat) : Nat := k % 8
/-- The queue's state beside its registers. -/
def qOf (s : State) (k : Nat) : QState := spGet s.queues k QState.init
/-- The state with a queue changed. -/
def setQ (s : State) (k : Nat) (q : QState) : State := { s with queues := spPut s.queues k q QState.init }
/-- A register of a queue set by its offset (Table 3.13). -/
def qReg (k off : Nat) : Nat := CRU_Q_CTRL (qCru k) (k % 128) + off

/-- ENABLE of the queue. -/
def qEnabled (s : State) (k : Nat) : Bool := bit (rd s (qReg k 0)) 0
/-- The ring size in words (R94). -/
def qSize (s : State) (k : Nat) : Nat := 2 ^ (10 + min 8 (bits (rd s (qReg k 0)) 4 4))
/-- PUB. -/
def qPub (s : State) (k : Nat) : Nat := rd s (qReg k 0x10)
/-- HEAD. -/
def qHead (s : State) (k : Nat) : Nat := rd s (qReg k 0x14)
/-- The published words at or above HEAD. -/
def qAvail (s : State) (k : Nat) : Nat := (2 ^ 32 + qPub s k - qHead s k) % 2 ^ 32
/-- The address of the ring word with a free-running index. -/
def qWordAddr (s : State) (k i : Nat) : Nat := rd64 s (qReg k 8) + i % qSize s k * 4
/-- The ring word with a free-running index. -/
def qWord (s : State) (k i : Nat) : Nat := devWord s (qWordAddr s k i)

/-- Header fields (Table 3.1). -/
def hOp (w : Nat) : Nat := bits w 0 8
/-- LEN + 1. -/
def hLen (w : Nat) : Nat := bits w 8 4 + 1
/-- BND. -/
def hBnd (w : Nat) : Bool := bit w 12
/-- KEEP. -/
def hKeep (w : Nat) : Bool := bit w 13
/-- ORD. -/
def hOrd (w : Nat) : Bool := bit w 14
/-- CMPL. -/
def hCmpl (w : Nat) : Bool := bit w 15
/-- IRQ. -/
def hIrq (w : Nat) : Bool := bit w 16
/-- RECOMP. -/
def hRecomp (w : Nat) : Bool := bit w 17
/-- SIG. -/
def hSig (w : Nat) : Bool := bit w 18
/-- TAG. -/
def hTag (w : Nat) : Nat := bits w 20 12

/-- Word `n` of an item. -/
def Item.w (i : Item) (n : Nat) : Nat := (i.words.getD n 0).toNat
/-- Words `n` and `n + 1` of an item as a 64-bit number. -/
def Item.w64 (i : Item) (n : Nat) : Nat := i.w n + 2 ^ 32 * i.w (n + 1)
/-- The item's header. -/
def Item.head (i : Item) : Nat := i.w 0
/-- The item's opcode. -/
def Item.op (i : Item) : Nat := hOp i.head
/-- The Ladle or Alloy operation of an item: word 2 bits 7:0 for LDL, word 1 bits 7:0 for ALY. -/
def Item.lop (i : Item) : Nat := bits (i.w 2) 0 8
/-- The tensor of the numerics word. -/
def Item.tensor (i : Item) : Nat := bits (i.w 1) 0 24
/-- The item's signal word, where it carries one. -/
def Item.sig (i : Item) : Option Nat := if hSig i.head then some (i.w (hLen i.head - 1)) else none

/-- Whether an item is done and not yet completed. -/
def Item.isDone (i : Item) : Bool := match i.phase with
  | .done _ _ => true
  | _ => false

/-- The words of the partial item that ends a run of `n` published words from index `i`. -/
def heldGo (s : State) (k : Nat) : Nat → Nat → Nat → Nat
  | 0, _, n => n
  | f + 1, i, n =>
    if n = 0 then 0 else
    let l := hLen (qWord s k i)
    if n < l then n else heldGo s k f (i + l) (n - l)

/-- The number of words held of a partial item (R133). -/
def qHeld (s : State) (k : Nat) : Nat := heldGo s k (qAvail s k) (qHead s k) (qAvail s k)

/-- Counts a timing-dependent choice (R390, R391). -/
def countChoice (s : State) (kind ctx step unit : Nat) : State :=
  let s1 := satAdd (cntAdd s CUP_CHOICE_CNT_LO 1) (CUP_CHOICE_KIND_CNT (kind - 1)) 1
  let s2 := logCtx s1 0x0640 unit ctx step [kind, ctx, step, unit]
  let s3 := if bit (rd s2 CUP_CHOICE_FIRST) 31 then s2
    else setReg (setReg s2 CUP_CHOICE_FIRST (kind + ctx * 16 + 2 ^ 31)) CUP_CHOICE_FIRST_STEP step
  if s3.integ.det && !s3.integ.detBroken then
    logCtx { s3 with integ := { s3.integ with detBroken := true } } 0x0641 unit ctx step [kind, ctx, step]
  else s3

/-- Whether a DEC wait remains unsatisfied once the waits with these targets have been evaluated one after another against
a value (R120; R390, kind 4). -/
def someUnmet : Nat → List Nat → Bool
  | _, [] => false
  | v, t :: l => if t ≤ v then someUnmet (v - t) l else true

/-- Sets a taint cause and records it (R367): 0 parity, 1 memory, 2 remote, 3 adder, 4 fettle, 5 verify mismatch. The
event's cause is the place in the list of R367 (R520). -/
def taint (s : State) (cause step source : Nat) : State :=
  let v := rd s CUP_INT_TAINT
  let s1 := if bit v cause then s else setReg s CUP_INT_TAINT (v + 2 ^ cause)
  logUnit s1 0x0602 source [[1, 2, 2, 3, 4, 1].getD cause 1, step, source]
/-- A packet for the device outside READY: one that arrives during a quench is dropped and counted (R418). -/
def dropArrival (s : State) : State :=
  if s.mode == .quenching || s.mode == .stopped then cntAdd s CUP_QUENCH_DROP_CNT_LO 1 else s
/-- Whether the device is tainted. -/
def tainted (s : State) : Bool := rd s CUP_INT_TAINT != 0

/-- A parity error or verify mismatch found in an item's data: counted by unit code and recorded (R364). The risk
weight falls on the crucible for codes 1 to 5, 11 and 12 (Table 12.7a). -/
def parityFound (s : State) (code unit line index : Nat) : State :=
  let s1 := cntAdd s (CUP_PAR_CNT_LO (code - 1)) 1
  let s2 := logUnit s1 0x0601 unit [code, unit, line, index]
  if code ≤ 5 then riskAdd s2 unit (2 ^ 16 * 32)
  else if code = 11 ∨ code = 12 then riskAdd s2 unit (2 ^ 16 * 64) else s2

/-- The taint cause of a completion status and unit code; none where the completion does not taint (R367). -/
def taintCause (status detail : Nat) : Option Nat :=
  if status = 0x04 then some (if 11 ≤ detail % 256 then 5 else 0)
  else if status = 0x21 ∨ status = 0x22 then none
  else if status = 0x20 then some 1
  else if status = 0x26 ∨ status = 0x2A then some 2
  else none

/-- Whether a cut holds the acceptance of a context's items (R405). -/
def cutHolds (s : State) (x : Nat) : Bool := s.ingot.want.isSome && bit (rd s CUP_ING_CTXMASK) x

/-- The context of the sweep's owner (Table 5.11). -/
def sweepOwner (s : State) : Nat := bits (rd s LDL_SWP_CTRL) 8 4

/-- A cut is requested (R403, R406): 1 a step cut, 2 a migration cut. It is dropped while the device is tainted or a
restore or load runs; a request that is already pending stands. A device of a window announces it to its flask. -/
def requestCut (s : State) (kind step : Nat) : State :=
  if !ingOn s || s.ingot.want.isSome then s
  else if tainted s then logCup s 0x0702 [1]
  else if s.ingot.busy ≠ 0 then logCup s 0x0702 [2]
  else
    let s1 := s.withIngot { s.ingot with want := some (kind, step, tickNow s) }
    if bits (rd s FLK_CTRL) 0 2 = 0 then s1 else
    ((List.range 9).filter (fun p => p != ownPos s)).foldl (fun st p =>
      emit st (.packet "CHILL_ANNOUNCE" (posDest s p) [ownPos s])) s1

/-- The step cut that the completion of the owner's SWEEP requests (R403). -/
def stepCut (s : State) (k : Nat) (i : Item) : State :=
  if i.op = 0x40 ∧ i.lop = 8 ∧ qCtx k = sweepOwner s ∧ bit (rd s CUP_ING_CTRL) 1 then requestCut s 1 i.step else s

/-- Adds to a crucible semaphore, saturating (R113, R115). `item` is 1 for an item, 2 for a register write. -/
def semAdd (s : State) (c x sem n phys item : Nat) : State :=
  let o := CRU_SEM c x sem
  let v := rd s o + n
  if 2 ^ 32 ≤ v then
    logCtx (cntAdd (setReg s o 0xFFFFFFFF) (gateCnt phys 10) 1) 0x0210 (16 + c) x 0 [c, x, sem, item]
  else setReg s o v

/-- Adds to a shared semaphore, saturating; a signal by its holder in lock mode clears HVALID (R245, R246). -/
def ssemAdd (s : State) (x sem n item : Nat) : State :=
  let v := rd s (TND_SSEM_VAL sem) + n
  let s1 := if 2 ^ 32 ≤ v then
      logCtx (cntAdd (setReg s (TND_SSEM_VAL sem) 0xFFFFFFFF) TND_SSEMSAT_CNT_LO 1) 0x0248 x x 0 [sem, x, item]
    else setReg s (TND_SSEM_VAL sem) v
  let ctl := rd s1 (TND_SSEM_CTRL sem)
  if bit ctl 5 && bit ctl 4 && bits ctl 0 4 == x then setReg s1 (TND_SSEM_CTRL sem) (ctl - 16) else s1

/-- Applies a signal word (R113, Table 3.7). -/
def applySignal (s : State) (c x phys w : Nat) : State :=
  if bit w 10 then ssemAdd s x (bits w 0 10) (bits w 16 16) 1
  else semAdd s c x (bits w 0 6) (bits w 16 16) phys 1

/-- The bytes of a completion record (Table 3.10): words 1 to 6 are written first, then words 0 and 7 (R138). -/
def recordWords (k seq : Nat) (r : Record) : List Nat :=
  [seq + 2 ^ 16 * r.tag,
   r.status + r.opcode * 2 ^ 8 + 2 ^ 16 * qIdx k + 2 ^ 19 * qCtx k + 2 ^ 23 * b2n r.bnd,
   r.index, r.time % 2 ^ 32, r.time / 2 ^ 32 % 2 ^ 32, r.detail, r.phys % 512, seq + 2 ^ 16 * r.tag]

/-- The records that the completion ring holds (R137). -/
def cqSize (s : State) (k : Nat) : Nat := 2 ^ (4 + min 11 (bits (rd s (qReg k 0x2C)) 0 4))
/-- Whether the completion ring is enabled (R137). -/
def cqOn (s : State) (k : Nat) : Bool := bit (rd s (qReg k 0x2C)) 4
/-- Whether the ring has no space (R139). -/
def cqFull (s : State) (k : Nat) : Bool :=
  decide (cqSize s k ≤ (2 ^ 32 + rd s (qReg k 0x34) - rd s (qReg k 0x30)) % 2 ^ 32)

/-- Writes one record into the ring, to device or host memory, and raises the vector once it is visible (R137,
R138). -/
def writeRecord (s : State) (k : Nat) (r : Record) : State :=
  let last := rd s (qReg k 0x3C)
  let seq := if last = 65535 then 1 else last + 1
  let tail := rd s (qReg k 0x34)
  let a := rd64 s (qReg k 0x24) + tail % cqSize s k * 32
  let ws := recordWords k seq r
  let s1 := if bit (rd s (qReg k 0x2C)) 5 then
      toHost (toHost s (.hostWrite (a + 4) (((ws.drop 1).take 6).flatMap (leBytes 4))))
        (.hostWrite a (([ws.getD 0 0, ws.getD 7 0]).flatMap (leBytes 4)))
    else devWords s hostAgent a ws
  let s2 := setReg (setReg s1 (qReg k 0x3C) seq) (qReg k 0x34) (tail + 1)
  if r.irq then raiseMsix s2 (bits (rd s (qReg k 0x2C)) 16 11) else s2

/-- Presents a record: none is kept while the ring is off; with the ring full it is held (R137, R139). -/
def putRecord (s : State) (k : Nat) (r : Record) : State :=
  if !cqOn s k then s else
  let q := qOf s k
  if cqFull s k || !q.held.isEmpty then setQ s k { q with held := q.held ++ [r] } else writeRecord s k r

/-- Releases held records while the ring has space (R139). -/
def releaseHeld : Nat → State → Nat → State
  | 0, s, _ => s
  | f + 1, s, k =>
    let q := qOf s k
    match q.held with
    | [] => s
    | r :: t => if cqFull s k then s else releaseHeld f (writeRecord (setQ s k { q with held := t }) k r) k

/-- The record of an item (Table 3.10). -/
def itemRecord (s : State) (i : Item) (status detail : Nat) : Record :=
  ⟨hTag i.head, status, i.op, hBnd i.head, i.index, detail, i.phys, tickNow s, hCmpl i.head && hIrq i.head⟩

/-- The FLUSHED record of a flush or of a discard (R134, R140). -/
def flushRecord (s : State) (k words index : Nat) : Record :=
  ⟨0, 3, 0xFF, false, index, words, physOf s (qCru k), tickNow s, false⟩

/-- The item of a queue with a ring index. -/
def findItem (s : State) (k idx : Nat) : Option Item := (qOf s k).items.find? (fun i => i.index == idx)

/-- The queue with one of its items changed. -/
def setItem (s : State) (k idx : Nat) (f : Item → Item) : State :=
  let q := qOf s k
  setQ s k { q with items := q.items.map (fun i => if i.index = idx then f i else i) }

/-- Marks an item done with a status and detail; ITEM_COMPLETE then completes it. -/
def itemDone (s : State) (k idx status detail : Nat) : State :=
  setItem s k idx (fun i => { i with phase := .done status detail })

/-- Adds slag counts that an item owes to a tensor (R54). -/
def oweSlag (l : List SlagOwed) (t nonfin sat inval : Nat) : List SlagOwed :=
  if nonfin = 0 ∧ sat = 0 ∧ inval = 0 then l else
  if l.any (fun e => e.tensor == t) then
    l.map (fun e => if e.tensor = t then ⟨t, e.nonfin + nonfin, e.sat + sat, e.inval + inval⟩ else e)
  else l ++ [⟨t, nonfin, sat, inval⟩]

end Sys2Proof.Machine
end

