-- ==== Sys2Proof/Machine/Checks.lean ====
section
/-! DEFINITION. The gate's acceptance checks of an item's header and of the fields of its operation, with the reasons
of Table 3.11 (R100 to R117, R126, R129, R130, R245, R246). -/
namespace Sys2Proof.Machine
open Reg

/-- The block layout of a format code (Table 3.4). -/
def blockOf (fmt : Nat) : Option BlockKind :=
  match fmt with
  | 4 => some .mxfp8e4
  | 5 => some .mxfp8e5
  | 6 => some .mxfp4
  | 7 => some .kf4
  | 8 => some .k4i
  | 9 => some .t2
  | _ => none

/-- Elements per block of a format code; 1 for the scalar formats. -/
def blockSize (fmt : Nat) : Nat := match blockOf fmt with
  | some k => k.size
  | none => 1

/-- The bytes that `n` elements of a format take, scales apart (R11, R25, R28). -/
def elemBytes (fmt n : Nat) : Nat :=
  match fmt with
  | 0 => 4 * n
  | 1 => 2 * n
  | 2 | 3 | 4 | 5 => n
  | 9 => (n + 63) / 64 * 16
  | _ => (n + 1) / 2

/-- Whether a format has a scale plane of its own, apart from its elements (KF4, K4i and the MX formats). -/
def hasPlane (fmt : Nat) : Bool := decide (4 ≤ fmt ∧ fmt ≤ 8)
/-- The bytes of one scale in a scale plane: a 16-bit container for the 10-bit scale, one byte for E8M0 (R22). -/
def scaleWidth (fmt : Nat) : Nat := if fmt = 7 ∨ fmt = 8 ∨ fmt = 9 then 2 else 1
/-- The bytes of the scale plane of `n` elements. -/
def planeBytes (fmt n : Nat) : Nat := n / blockSize fmt * scaleWidth fmt

/-- The pairing of a stationary and a streaming format, as PAIRING of Table 2.7 numbers it; none where Table 1.10 does
not list the pair. -/
def pairing (stat strm : Nat) : Option Nat :=
  if (stat = 2 ∨ stat = 3) ∧ (strm = 2 ∨ strm = 3) then some 1
  else if 2 ≤ stat ∧ stat ≤ 5 ∧ 2 ≤ strm ∧ strm ≤ 5 then some 2
  else if (stat = 6 ∨ stat = 7) ∧ (strm = 6 ∨ strm = 7) then some 3
  else if stat = 8 ∧ (strm = 8 ∨ strm = 7) then some 4
  else if stat = 9 ∧ (strm = 6 ∨ strm = 7) then some 5
  else if stat = 1 ∧ strm = 1 then some 6
  else none

/-- Lanes of a cell (Table 2.1). -/
def pairLanes (pr : Nat) : Nat := if pr = 5 then 8 else if pr = 3 ∨ pr = 4 then 4 else 1
/-- Whether riser rows are allowed with a pairing (R71). -/
def riserOk (pr : Nat) : Bool := pr == 3 || pr == 4 || pr == 5
/-- Bytes of one main runner entry (Table 2.1). -/
def mainEntry (pr : Nat) : Nat := if pr = 5 then 4 else if pr = 1 ∨ pr = 2 then 1 else 2
/-- Bytes of one scale runner entry; 0 where the streaming format has no scales. -/
def scaleEntry (strm pr : Nat) : Nat := if hasPlane strm then pairLanes pr * scaleWidth strm else 0
/-- Bytes of the elements section of a plane image (R61). -/
def imageElems (pr : Nat) : Nat := if pr = 1 ∨ pr = 2 then 1024 else 2048
/-- Bytes of the scales section of a plane image. -/
def imageScales (stat pr : Nat) : Nat := if hasPlane stat then 32 * pairLanes pr * scaleWidth stat else 0
/-- Bytes of the riser sections of a plane image. -/
def imageRisers (pr : Nat) : Nat := 260 * pairLanes pr
/-- Bytes of a plane image (Table 2.1). -/
def imageBytes (stat pr : Nat) (riser : Bool) : Nat :=
  imageElems pr + imageScales stat pr + (if riser then imageRisers pr else 0)

/-- The fields of an MMA item (Table 3.5). -/
structure MmaBody where
  statT : Nat
  array : Nat
  riser : Bool
  strmT : Nat
  statF : Nat
  strmF : Nat
  planeLine : Nat
  accInit : Bool
  planeP : Nat
  planeT : Nat
  streamLine : Nat
  streamR : Nat
  streamP : Nat
  streamT : Nat
  m : Nat
  passes : Nat
  tiles : Nat
  dirRows : Bool
  outLine : Nat
  outT : Nat
  outFmt : Nat
  outPitch : Nat
  accLine : Nat
  accT : Nat
  row0 : Nat
  col0 : Nat
  tpitch : Nat
deriving DecidableEq, Repr

/-- The body of an MMA item (Table 3.5). -/
def mmaBody (i : Item) : MmaBody where
  statT := bits (i.w 2) 0 24
  array := bits (i.w 2) 24 3
  riser := bit (i.w 2) 27
  strmT := bits (i.w 3) 0 24
  statF := bits (i.w 3) 24 4
  strmF := bits (i.w 3) 28 4
  planeLine := bits (i.w 4) 0 15
  accInit := bit (i.w 4) 15
  planeP := bits (i.w 4) 16 16
  planeT := bits (i.w 7) 0 16
  streamLine := bits (i.w 5) 0 15
  streamR := bits (i.w 5) 16 16
  streamP := bits (i.w 6) 0 16
  streamT := bits (i.w 6) 16 16
  m := bits (i.w 8) 0 8 + 1
  passes := bits (i.w 8) 8 12 + 1
  tiles := bits (i.w 8) 20 11 + 1
  dirRows := bit (i.w 8) 31
  outLine := bits (i.w 9) 0 15
  outT := bits (i.w 7) 16 16
  outFmt := bits (i.w 9) 15 2
  outPitch := bits (i.w 9) 17 10
  accLine := bits (i.w 10) 0 15
  accT := bits (i.w 10) 16 16
  row0 := bits (i.w 11) 0 24
  col0 := bits (i.w 12) 0 24
  tpitch := bits (i.w 13) 0 24

/-- The pairing of an MMA body. -/
def MmaBody.pair (b : MmaBody) : Nat := (pairing b.statF b.strmF).getD 0
/-- The line of the plane image of a pass of a tile (R110). -/
def MmaBody.plane (b : MmaBody) (t p : Nat) : Nat := b.planeLine + t * b.planeT + p * b.planeP
/-- The line of a runner's stream (R110). -/
def MmaBody.stream (b : MmaBody) (t p r : Nat) : Nat :=
  b.streamLine + t * b.streamT + p * b.streamP + r * b.streamR
/-- Bytes of one output element. -/
def MmaBody.outWidth (b : MmaBody) : Nat := if b.outFmt = 0 then 4 else if b.outFmt = 1 then 2 else 1
/-- The scratchpad byte of output row m, column n of tile t (R111). -/
def MmaBody.outByte (b : MmaBody) (t m n : Nat) : Nat :=
  128 * (b.outLine + t * b.outT) + m * 32 * b.outPitch + n * b.outWidth
/-- The linear index of output row m, column n of tile t (R111). -/
def MmaBody.index (b : MmaBody) (t m n : Nat) : Nat :=
  ((b.row0 + m + (if b.dirRows then t * b.m else 0)) * b.tpitch + b.col0 + n +
    (if b.dirRows then 0 else t * 32)) % 2 ^ 40
/-- Bytes of one entry of a runner: main rows, riser rows, scale runner (R62). -/
def MmaBody.entry (b : MmaBody) (r : Nat) : Nat :=
  if r < 32 then mainEntry b.pair else if r < 34 then 4 * pairLanes b.pair else scaleEntry b.strmF b.pair
/-- The runners that a tile uses (R67). -/
def MmaBody.runners (b : MmaBody) : List Nat :=
  List.range 32 ++ (if b.riser then [32, 33] else []) ++ (if scaleEntry b.strmF b.pair = 0 then [] else [34])

/-- The bytes of a scratchpad (R91). -/
def spadBytes : Nat := 0x300000

/-- Whether every extent of an MMA body lies within the scratchpad (R112). -/
def mmaFits (b : MmaBody) : Bool :=
  let t := b.tiles - 1
  let p := b.passes - 1
  decide (128 * b.plane t p + imageBytes b.statF b.pair b.riser ≤ spadBytes) &&
  b.runners.all (fun r => decide (128 * b.stream t p r + b.m * b.entry r ≤ spadBytes)) &&
  (!b.accInit || decide (128 * (b.accLine + t * b.accT) + 128 * b.m ≤ spadBytes)) &&
  decide (b.outByte t (b.m - 1) 0 + 32 * b.outWidth ≤ spadBytes)

/-- The fields of a VEC item (Table 3.8). -/
structure VecBody where
  vop : Nat
  aFmt : Nat
  dFmt : Nat
  aT : Nat
  count : Nat
  aLine : Nat
  bLine : Nat
  cLine : Nat
  dLine : Nat
  eLine : Nat
  fLine : Nat
  alpha : Word
  beta : Word
  index0 : Nat
deriving DecidableEq, Repr

/-- The body of a VEC item (Table 3.8). -/
def vecBody (i : Item) : VecBody where
  vop := bits (i.w 2) 0 8
  aFmt := bits (i.w 2) 8 4
  dFmt := bits (i.w 2) 12 4
  aT := bits (i.w 3) 0 24
  count := bits (i.w 4) 0 24
  aLine := bits (i.w 5) 0 15
  bLine := bits (i.w 5) 16 15
  cLine := bits (i.w 6) 0 15
  dLine := bits (i.w 6) 16 15
  eLine := bits (i.w 7) 0 15
  fLine := bits (i.w 7) 16 15
  alpha := BitVec.ofNat 32 (i.w 8)
  beta := BitVec.ofNat 32 (i.w 9)
  index0 := i.w 10 + 2 ^ 32 * bits (i.w 11) 0 8

/-- Whether a VOP is in Table 3.9. -/
def vopKnown (v : Nat) : Bool :=
  decide (1 ≤ v ∧ v ≤ 0x0B) || v == 0x10 || v == 0x11 || v == 0x12 || v == 0x20
/-- The VOPs that reduce to one value. -/
def vopReduces (v : Nat) : Bool := v == 0x10 || v == 0x11 || v == 0x12
/-- The VOPs that read B. -/
def vopReadsB (v : Nat) : Bool := v == 1 || v == 2 || v == 3 || v == 5 || v == 6 || v == 7
/-- Whether the output of an item carries its scales in a plane: F_LINE is in use. -/
def usesF (dFmt scl : Nat) : Bool := hasPlane dFmt || (dFmt == 9 && scl == 2)
/-- The SCL field of a numerics word. -/
def sclOf (w1 : Nat) : Nat := bits w1 26 2
/-- Whether SCL is allowed for an output format (R107, R108). -/
def sclOk (fmt scl : Nat) : Bool :=
  match blockOf fmt with
  | none => scl == 0
  | some k => scl == 0 || scl == 2 || (scl == 1 && !k.tenBit)

/-- Whether every extent of a VEC body lies within the scratchpad (R91, R126). -/
def vecFits (b : VecBody) (scl : Nat) : Bool :=
  let fits (line n : Nat) : Bool := decide (128 * line + n ≤ spadBytes)
  fits b.aLine (elemBytes b.aFmt b.count) &&
  (!vopReadsB b.vop || fits b.bLine (4 * b.count)) &&
  (b.vop != 3 || fits b.cLine (4 * b.count)) &&
  fits b.dLine (elemBytes b.dFmt (if vopReduces b.vop then 1 else b.count)) &&
  (!hasPlane b.aFmt || fits b.eLine (planeBytes b.aFmt b.count)) &&
  (!usesF b.dFmt scl || fits b.fLine (planeBytes b.dFmt b.count))

/-- The reserved-bit check of a VEC body, with the unused scale lines (reason 3). -/
def vecReserved (i : Item) (b : VecBody) : Bool :=
  bits (i.w 1) 28 4 != 0 || bits (i.w 2) 16 16 != 0 || bits (i.w 3) 24 8 != 0 || bits (i.w 4) 24 8 != 0 ||
  bit (i.w 5) 15 || bit (i.w 5) 31 || bit (i.w 6) 15 || bit (i.w 6) 31 || bit (i.w 7) 15 || bit (i.w 7) 31 ||
  bits (i.w 11) 8 24 != 0 || (!hasPlane b.aFmt && b.eLine != 0) ||
  (!usesF b.dFmt (sclOf (i.w 1)) && b.fLine != 0)

/-- The reasons for which a VEC item is refused (R126, R127). -/
def vecReasons (i : Item) : List Nat :=
  let b := vecBody i
  let scl := sclOf (i.w 1)
  (if vopKnown b.vop then [] else [1]) ++
  (if vecReserved i b then [3] else []) ++
  (if 9 < b.aFmt ∨ 9 < b.dFmt ∨ (vopReduces b.vop ∧ b.dFmt ≠ 0) then [4] else []) ++
  (if vecFits b scl then [] else [6]) ++
  (if sclOk b.dFmt scl then [] else [8]) ++
  (if b.count = 0 ∨ b.count % blockSize b.aFmt ≠ 0 ∨ (¬ vopReduces b.vop ∧ b.count % blockSize b.dFmt ≠ 0)
    then [11] else [])

/-- The reasons for which an MMA item is refused (R110 to R112). -/
def mmaReasons (i : Item) : List Nat :=
  let b := mmaBody i
  let reserved := bits (i.w 1) 28 4 != 0 || bits (i.w 2) 28 4 != 0 || bit (i.w 5) 15 || bits (i.w 9) 27 5 != 0 ||
    bit (i.w 10) 15 || bits (i.w 11) 24 8 != 0 || bits (i.w 12) 24 8 != 0 || bits (i.w 13) 24 8 != 0
  (if reserved then [3] else []) ++
  (if (pairing b.statF b.strmF).isNone then [4] else []) ++
  (if b.riser && !riserOk b.pair then [5] else []) ++
  (if b.outPitch < b.outWidth || !mmaFits b then [6] else []) ++
  (if sclOf (i.w 1) = 0 then [] else [8])

/-- The fields of a TURN item (R130). -/
structure TurnBody where
  width : Nat
  br : Nat
  bc : Nat
  src : Nat
  srcPitch : Nat
  dst : Nat
  dstPitch : Nat
deriving DecidableEq, Repr

/-- The body of a TURN item (R130): the width in bytes. -/
def turnBody (i : Item) : TurnBody where
  width := 2 ^ bits (i.w 1) 0 2
  br := bits (i.w 1) 8 8 + 1
  bc := bits (i.w 1) 16 8 + 1
  src := bits (i.w 2) 0 15
  srcPitch := bits (i.w 2) 16 16
  dst := bits (i.w 3) 0 15
  dstPitch := bits (i.w 3) 16 16

/-- The reasons for which a TURN item is refused (R129, R130). -/
def turnReasons (i : Item) : List Nat :=
  let b := turnBody i
  let reserved := bits (i.w 1) 2 6 != 0 || bits (i.w 1) 24 8 != 0 || bit (i.w 2) 15 || bit (i.w 3) 15 || i.w 4 != 0
  let fits := decide (128 * b.src + (32 * b.br - 1) * 32 * b.srcPitch + 32 * b.bc * b.width ≤ spadBytes) &&
    decide (128 * b.dst + (32 * b.bc - 1) * 32 * b.dstPitch + 32 * b.br * b.width ≤ spadBytes)
  (if reserved then [3] else []) ++
  (if b.srcPitch < b.bc * b.width || b.dstPitch < b.br * b.width || !fits then [6] else []) ++
  (if bits (i.w 1) 0 2 = 3 then [10] else [])

/-- Whether a context may name a shared semaphore (R246): SLICE_EN restricts it to contexts of its slice. -/
def ssemAllowed (s : State) (x sem : Nat) : Bool :=
  let c := rd s (TND_SSEM_CTRL sem)
  !bit c 12 || bits c 8 4 == ctxSliceOf s x
where
  /-- SLICE of a context. -/
  ctxSliceOf (s : State) (x : Nat) : Nat := bits (rd s (TND_CTX_CTRL x)) 8 4

/-- The reasons for which a signal word is refused (Table 3.7, R246). -/
def signalReasons (s : State) (x w : Nat) : List Nat :=
  (if bits w 11 5 = 0 then [] else [3]) ++
  (if bits w 16 16 = 0 || (!bit w 10 && decide (64 ≤ bits w 0 10)) || (bit w 10 && !ssemAllowed s x (bits w 0 10))
    then [9] else [])

/-- LEN + 1 without a signal word, as the gate checks it (Table 3.2): its least and greatest values. -/
def lenBounds (op : Nat) : Option (Nat × Nat) :=
  match op with
  | 0x00 => some (1, 1)
  | 0x02 => some (2, 2)
  | 0x10 => some (14, 14)
  | 0x20 => some (12, 12)
  | 0x30 => some (5, 5)
  | 0x40 => some (2, 15)
  | 0x50 => some (2, 15)
  | 0x60 => some (2, 2)
  | 0x61 => some (3, 3)
  | 0x62 => some (3, 3)
  | 0x63 => some (3, 3)
  | _ => none

/-- The reasons of the fields of an operation (R101, step 4). -/
def bodyReasons (s : State) (x : Nat) (i : Item) : List Nat :=
  match i.op with
  | 0x10 => mmaReasons i
  | 0x20 => vecReasons i
  | 0x30 => turnReasons i
  | 0x60 => signalReasons s x (i.w 1)
  | 0x61 => if bits (i.w 1) 6 2 = 0 ∧ bits (i.w 1) 9 23 = 0 then [] else [3]
  | 0x62 => (if bits (i.w 1) 10 2 = 0 ∧ bits (i.w 1) 13 19 = 0 then [] else [3]) ++
      (if ssemAllowed s x (bits (i.w 1) 0 10) then [] else [9])
  | 0x63 => if bits (i.w 1) 6 26 = 0 then [] else [3]
  | _ => []

/-- Every reason for which the gate refuses an item (R101, Table 3.11). `first` tells that the item begins a command;
`crossed` that the boundary before it was crossed. -/
def gateReasons (s : State) (x : Nat) (i : Item) (first crossed : Bool) : List Nat :=
  let h := i.head
  match lenBounds i.op with
  | none => [1]
  | some (lo, hi) =>
    let n := hLen h - b2n (hSig h)
    if hLen h < b2n (hSig h) + lo ∨ hi < n then
      (if i.op = 0x20 ∧ 3 ≤ hLen h ∧ ¬ vopKnown (vecBody i).vop then [1] else []) ++ [2]
    else
      (if bit h 19 || (hIrq h && !hCmpl h) then [3] else []) ++
      (if hKeep h && (!first || crossed) then [7] else []) ++
      (match i.sig with
        | some w => signalReasons s x w
        | none => []) ++
      bodyReasons s x i

/-- The lowest-numbered reason (R101). -/
def lowest (l : List Nat) : Option Nat := l.foldl (fun a n => match a with
  | none => some n
  | some m => some (min m n)) none

end Sys2Proof.Machine
end

