-- ==== Sys2Proof/Machine/LadleCheck.lean ====
section
/-! DEFINITION. The Ladle's checks of an item's body: the address map and context ranges, and the checks of Table 4.6 for
every operation (R146, R147, R151, R155, R156, R161 to R163, R173, R179, R200, R337, R352, R354, R355, R360, R383,
R392). -/
namespace Sys2Proof.Machine
open Reg

/-- The end of the mapped region in which a local address lies (Table 4.1, R150, R336); none where it is unmapped. -/
def regionEnd (s : State) (a : Nat) : Option Nat :=
  match region s a with
  | .near => some 0x8000000000
  | .far => some 0x3FFF0000000
  | .shakeout => some 0x40000000000
  | .casting _ o => some (a - o + (40 - 4 * raShare s) * 0x100000)
  | .scratch _ o => some (a - o + 0x300000)
  | .window f o => if f = 8 ∧ bit (rd s SPR_TAKEOVER) 3 then none else some (a - o + 0x1000000000)
  | .unmapped => none
  | .remote => none

/-- Whether an extent of local addresses is mapped throughout (R146). -/
def mappedSpan (s : State) : Nat → Nat → Nat → Bool
  | 0, _, _ => false
  | f + 1, a, e => match regionEnd s a with
    | none => false
    | some r => if e ≤ r then true else mappedSpan s f r e

/-- The limit of a range of a context that grants an access at an address (R151): permission bit 0 READ, 1 WRITE. -/
def rangeAt (s : State) (x a perm : Nat) : Option Nat :=
  ((List.range 8).find? (fun r => decide (65536 * rd s (LDL_RNG_BASE x r) ≤ a) &&
    decide (a < 65536 * rd s (LDL_RNG_LIMIT x r)) && bit (rd s (LDL_RNG_PERM x r)) perm)).map
  (fun r => rd s (LDL_RNG_LIMIT x r) * 65536)

/-- Whether an extent lies in a context's ranges throughout. -/
def rangeSpan (s : State) (x perm : Nat) : Nat → Nat → Nat → Bool
  | 0, _, _ => false
  | f + 1, a, e => match rangeAt s x a perm with
    | none => false
    | some l => if e ≤ l then true else rangeSpan s x perm f l e

/-- Whether two extents meet. -/
def meets (a n b m : Nat) : Bool := decide (a < b + m) && decide (b < a + n)

/-- Whether an item of context x on logical crucible c may make an access (R146, R147, R151, R337, R352): permission bit
0 READ, 1 WRITE; of a remote address FLK_CTX_REMOTE bit `kind`. -/
def accessOk (s : State) (x c perm kind a n : Nat) : Bool :=
  if n = 0 then true else
  if 2 ^ 64 < a + n then false else
  if 2 ^ 48 ≤ a then bit (rd s (FLK_CTX_REMOTE x)) kind && decide (a % 2 ^ 48 + n ≤ 2 ^ 48) else
  let own := 0x40100000000 + c * 0x400000
  mappedSpan s 16 a (a + n) && !meets a n 0x3FFF0000000 0x10000000 &&
  (winBytes s == 0 || !meets a n (rd64 s FLK_DIR_BASE_LO) (winBytes s / 32)) &&
  ((decide (own ≤ a) && decide (a + n ≤ own + spadBytes)) || rangeSpan s x perm 9 a (a + n))

/-- A read by an item. -/
def readOk (s : State) (x c a n : Nat) : Bool := accessOk s x c 0 0 a n
/-- A write by an item. -/
def writeOk (s : State) (x c a n : Nat) : Bool := accessOk s x c 1 1 a n
/-- A read of near-tier memory. -/
def nearReadOk (s : State) (x c a n : Nat) : Bool := inNear (a + n - 1) && readOk s x c a n
/-- A write of near-tier memory. -/
def nearWriteOk (s : State) (x c a n : Nat) : Bool := inNear (a + n - 1) && writeOk s x c a n

/-- The fields of a CONVERT item (Table 4.7). -/
structure ConvBody where
  srcF : Nat
  dstF : Nat
  layout : Nat
  cmp : Bool
  src : Nat
  dst : Nat
  count : Nat
  srcScale : Nat
  dstScale : Nat
  rows : Nat
  row0 : Nat
  stride : Nat
  pstride : Nat
  clen : Nat
  scl : Nat
deriving DecidableEq, Repr

/-- An address moved by a signed 32-bit byte offset. -/
def offsetAddr (a off : Nat) : Nat := if off < 2 ^ 31 then a + off else a + off - 2 ^ 32

/-- The body of a CONVERT item (Table 4.7). -/
def convBody (i : Item) : ConvBody where
  srcF := bits (i.w 2) 8 4
  dstF := bits (i.w 2) 12 4
  layout := bits (i.w 2) 16 3
  cmp := bit (i.w 2) 19
  src := i.w64 3
  dst := i.w64 5
  count := bits (i.w 7) 0 24
  srcScale := offsetAddr (i.w64 3) (i.w 8)
  dstScale := offsetAddr (i.w64 5) (i.w 9)
  rows := bits (i.w 10) 0 20 + 1
  row0 := bits (i.w 11) 0 24
  stride := bits (i.w 12) 0 16
  pstride := bits (i.w 12) 16 16
  clen := i.w 13
  scl := sclOf (i.w 1)

/-- Whether a CONVERT copies bit for bit (R159). -/
def ConvBody.bitCopy (b : ConvBody) : Bool := b.srcF == b.dstF && b.layout == 0 && !b.cmp
/-- The pairing that DST_FMT implies for PLANE and STREAM (R161, log entry 20). -/
def ConvBody.pair (b : ConvBody) : Nat :=
  match b.dstF with
  | 1 => 6
  | 2 | 3 => 1
  | 4 | 5 => 2
  | 6 | 7 => 3
  | 8 => 4
  | 9 => 5
  | _ => 0
/-- Whether the source scales are read from a plane: the block formats but T2, and T2 in a KZD stream (R164, log
entry 20). -/
def ConvBody.srcPlane (b : ConvBody) : Bool := hasPlane b.srcF || (b.srcF == 9 && b.cmp)
/-- Bytes of the source elements. -/
def ConvBody.srcBytes (b : ConvBody) : Nat := if b.cmp then b.clen * 16 else b.rows * elemBytes b.srcF b.count
/-- Bytes of the source scale plane. -/
def ConvBody.srcScaleBytes (b : ConvBody) : Nat := if b.srcPlane then b.rows * planeBytes b.srcF b.count else 0
/-- The row length and the rows of the output matrix before layout (R160). -/
def ConvBody.outCols (b : ConvBody) : Nat := if b.layout = 1 then b.rows else b.count
/-- The rows of the output matrix. -/
def ConvBody.outRows (b : ConvBody) : Nat := if b.layout = 1 then b.count else b.rows
/-- Whether the destination scale plane is read: supplied scales (R32). -/
def ConvBody.readsScale (b : ConvBody) : Bool := !b.bitCopy && b.scl == 2
/-- Whether the destination scale plane is written: derived scales, LINEAR or TRANSPOSE. -/
def ConvBody.writesScale (b : ConvBody) : Bool := hasPlane b.dstF && b.layout ≤ 1 && (b.bitCopy || b.scl != 2)
/-- Bytes of the destination scale plane. -/
def ConvBody.dstScaleBytes (b : ConvBody) : Nat := b.outRows * planeBytes b.dstF b.outCols
/-- Channels of a pass (Table 2.1). -/
def ConvBody.kp (b : ConvBody) : Nat := 32 * pairLanes b.pair

/-- The extents that a CONVERT writes, scales apart (R161, R163). -/
def ConvBody.writes (b : ConvBody) : List (Nat × Nat) :=
  match b.layout with
  | 2 => (List.range (b.rows / 32)).flatMap (fun t => (List.range (b.count / b.kp)).map (fun p =>
      (b.dst + 128 * (t * b.stride + p * b.pstride), imageBytes b.dstF b.pair false)))
  | 3 => (List.range (b.count / b.kp)).flatMap (fun p =>
      ((List.range 32).map (fun r => (b.dst + 128 * (p * b.pstride + r * b.stride), b.rows * mainEntry b.pair))) ++
      (if scaleEntry b.dstF b.pair = 0 then [] else
        [(b.dst + 128 * (p * b.pstride + 34 * b.stride), b.rows * scaleEntry b.dstF b.pair)]))
  | _ => [(b.dst, b.outRows * elemBytes b.dstF b.outCols)]

/-- LEN + 1 without a signal word (Tables 4.5 and 5.4, R354, R360, R383, R392); none for an unknown LOP or SUB. -/
def ladleLen (lop sub : Nat) : Option Nat :=
  match lop with
  | 0x01 => some 8
  | 0x02 => some 11
  | 0x03 => some 9
  | 0x04 => some 14
  | 0x05 => if sub ≤ 6 then some 9 else none
  | 0x06 => if sub = 0 then some 9 else if sub = 1 then some 3 else none
  | 0x08 => some 14
  | 0x09 => some 11
  | 0x0A => some 10
  | 0x0B => some 12
  | 0x0C => some 6
  | 0x0D => some 5
  | 0x0E => some 10
  | _ => none

/-- SUB of an LDL control word. -/
def ladleSub (i : Item) : Nat := bits (i.w 2) 20 4

/-- The operations of Table 5.4. -/
def isSweepOp (lop : Nat) : Bool := lop == 8 || lop == 9 || lop == 0x0A

/-- Check 3 of Table 4.6. -/
def ladleReserved (i : Item) : Bool :=
  let w1 := i.w 1
  let w2 := i.w 2
  let lop := i.lop
  let noFmt := bits w2 8 12 != 0
  let b := convBody i
  bits w2 28 4 != 0 || bits w1 28 4 != 0 ||
  (match lop with
    | 1 => bits w1 24 8 != 0 || bits w2 8 20 != 0
    | 2 => bits w1 24 8 != 0 || bits w2 8 20 != 0
    | 3 => bits w1 24 8 != 0 || bits w2 8 20 != 0 || i.w 3 != 0 || i.w 4 != 0
    | 4 => bits w2 20 8 != 0 || bits (i.w 7) 24 8 != 0 || bits (i.w 11) 24 8 != 0 || bits (i.w 10) 20 12 != 0 ||
        (b.layout ≤ 1 && i.w 12 != 0) || (!b.cmp && i.w 13 != 0) || !sclOk b.dstF b.scl
    | 5 => bits w1 24 8 != 0 || noFmt || bits w2 24 4 != 0 || bits (i.w 7) 17 15 != 0 || bits (i.w 8) 9 7 != 0 ||
        bits (i.w 8) 25 7 != 0 || (1 < ladleSub i && (i.w 5 != 0 || i.w 6 != 0))
    | 6 => bits w1 24 8 != 0 || noFmt || (ladleSub i == 0 && bits (i.w 6) 13 18 != 0)
    | 0x0B => w1 != 0 || bits w2 8 20 != 0 || bits (i.w 5) 4 4 != 0 || bits (i.w 5) 9 23 != 0 ||
        (bits (i.w 5) 0 4 != 7 && (i.w 8 != 0 || i.w 9 != 0)) || (!bit (i.w 5) 8 && (i.w 10 != 0 || i.w 11 != 0))
    | 0x0C => bits w2 8 20 != 0 || bits (i.w 3) 24 8 != 0
    | 0x0E => w1 != 0 || bits w2 8 20 != 0 || bits (i.w 5) 9 23 != 0
    | _ => w1 != 0 || bits w2 8 20 != 0)

/-- Check 4 of Table 4.6. -/
def ladleFormat (i : Item) : Bool :=
  let b := convBody i
  i.lop == 4 && (decide (9 < b.srcF) || decide (9 < b.dstF) || decide (3 < b.layout) ||
    (b.layout == 2 && b.dstF == 0) || (b.layout == 3 && (b.dstF == 0 || b.dstF == 9)))

/-- The rows of a COPY2D, as pairs of source and destination addresses. -/
def copyRows (i : Item) : List (Nat × Nat) :=
  (List.range (i.w 8)).map (fun r => (i.w64 3 + r * i.w 9, i.w64 5 + r * i.w 10))

/-- Check 5 of Table 4.6. -/
def ladleCount (s : State) (i : Item) : Bool :=
  let b := convBody i
  match i.lop with
  | 1 => i.w 7 == 0
  | 2 => i.w 7 == 0 || i.w 8 == 0 || decide (1048576 < i.w 8)
  | 3 => i.w 7 == 0 || i.w 7 % 4 != 0
  | 4 => b.count == 0 || b.count % blockSize b.srcF != 0 || b.outCols % blockSize b.dstF != 0 ||
      (b.layout == 2 && (b.rows % 32 != 0 || b.count % b.kp != 0)) ||
      (b.layout == 3 && (decide (256 < b.rows) || b.count % b.kp != 0))
  | 5 => let n := bits (i.w 7) 0 17
      n == 0 || decide (65536 < n) || decide (512 < bits (i.w 8) 0 9 + bits (i.w 8) 16 9 + 1)
  | 6 => ladleSub i == 0 && (i.w 7 == 0 || bits (i.w 8) 0 16 == 0 ||
      decide (bits (i.w 8) 16 16 < bits (i.w 8) 0 16) || (!bit (i.w 6) 31 && decide (8192 < bits (i.w 6) 0 13 + 1)))
  | 8 => i.w 5 == 0 || decide (65536 < i.w 5)
  | 9 => i.w 6 == 0 || decide (65536 < i.w 6)
  | 0x0A => i.w 5 == 0 || decide (65536 < i.w 5)
  | 0x0B => let a := bits (i.w 5) 0 4
      decide (7 < a) || (s.integ.det && (a == 6 || a == 7 || bit (i.w 5) 8))
  | 0x0E => let n := bits (i.w 5) 0 9
      n == 0 || decide (256 < n)
  | _ => false

/-- Check 6 of Table 4.6. -/
def ladleAlign (i : Item) : Bool :=
  let b := convBody i
  let off (n : Nat) (k : Nat) : Bool := i.w64 n % k != 0
  match i.lop with
  | 3 => off 5 4
  | 4 => ((blockOf b.srcF).isSome && b.src % 16 != 0) || ((blockOf b.dstF).isSome && b.layout ≤ 1 && b.dst % 16 != 0) ||
      (b.srcPlane && scaleWidth b.srcF == 2 && b.srcScale % 2 != 0) ||
      ((b.readsScale || b.writesScale) && scaleWidth b.dstF == 2 && b.dstScale % 2 != 0) ||
      (2 ≤ b.layout && b.dst % 128 != 0)
  | 5 => off 3 4
  | 6 => ladleSub i == 0 && bit (i.w 6) 31 && off 3 4
  | 8 => off 3 64 || off 6 64 || off 8 64 || off 10 64 || off 12 4
  | 9 => off 3 64 || off 7 64 || off 9 64
  | 0x0A => off 3 64 || off 6 64 || off 8 64
  | 0x0B => (if bits (i.w 5) 0 4 = 0 then off 3 4 else off 3 8) || off 10 8
  | 0x0E => off 3 16 || off 6 16 || off 8 16
  | _ => false

/-- Whether an address lies in a scratchpad window. -/
def inScratch (s : State) (a : Nat) : Bool := match region s a with
  | .scratch _ _ => true
  | _ => false

/-- Whether the base of a run-ahead stream lies where the fetcher reads: the far tier or a coherent window (Table 4.10). -/
def raBaseOk (s : State) (a : Nat) : Bool := match region s a with
  | .far => true
  | .window _ _ => true
  | _ => false

/-- Check 7 of Table 4.6, for an item of context x on logical crucible c. -/
def ladleAddrs (s : State) (x c : Nat) (i : Item) : Bool :=
  let b := convBody i
  let n := bits (i.w 7) 0 17
  let data := n * 128 * (bits (i.w 8) 16 9 + 1)
  let ok : Bool := match i.lop with
    | 1 => readOk s x c (i.w64 3) (i.w 7) && writeOk s x c (i.w64 5) (i.w 7)
    | 2 => (copyRows i).all (fun r => readOk s x c r.1 (i.w 7) && writeOk s x c r.2 (i.w 7))
    | 3 => writeOk s x c (i.w64 5) (i.w 7)
    | 4 => readOk s x c b.src b.srcBytes && readOk s x c b.srcScale b.srcScaleBytes &&
        b.writes.all (fun e => writeOk s x c e.1 e.2) &&
        (b.layout < 2 || inScratch s b.dst) &&
        (!b.readsScale || readOk s x c b.dstScale b.dstScaleBytes) &&
        (!b.writesScale || writeOk s x c b.dstScale b.dstScaleBytes)
    | 5 => readOk s x c (i.w64 3) (4 * n) &&
        (ladleSub i != 0 || writeOk s x c (i.w64 5) data) && (ladleSub i != 1 || readOk s x c (i.w64 5) data)
    | 6 => ladleSub i != 0 ||
        (if bit (i.w 6) 31 then readOk s x c (i.w64 3) (4 * i.w 7)
         else raBaseOk s (i.w64 3) &&
           readOk s x c (i.w64 3) (128 * ((i.w 7 - 1) * i.w 5 + bits (i.w 6) 0 13 + 1)))
    | 8 => x == sweepOwner s && nearWriteOk s x c (i.w64 3) (64 * i.w 5) && nearReadOk s x c (i.w64 3) (64 * i.w 5) &&
        nearReadOk s x c (i.w64 6) 64 && nearReadOk s x c (i.w64 8) 64 && nearWriteOk s x c (i.w64 8) 64 &&
        nearWriteOk s x c (i.w64 10) (if bit (rd s CUP_ASSAY_CTRL) 16 then 128 else 64) &&
        (i.w64 12 == 0 || readOk s x c (i.w64 12) 4)
    | 9 => x == sweepOwner s && nearReadOk s x c (i.w64 3 + 64 * i.w 5) (64 * i.w 6) &&
        nearWriteOk s x c (i.w64 3 + 64 * i.w 5) (64 * i.w 6) && nearReadOk s x c (i.w64 7) 64 &&
        nearReadOk s x c (i.w64 9) 64
    | 0x0A => x == sweepOwner s && nearReadOk s x c (i.w64 3) (64 * i.w 5) && nearReadOk s x c (i.w64 6) 64 &&
        nearReadOk s x c (i.w64 8) 64 && nearWriteOk s x c (i.w64 8) 64
    | 0x0B => let w := if bits (i.w 5) 0 4 = 0 then 4 else 8
        (if 2 ^ 48 ≤ i.w64 3 then accessOk s x c 0 2 (i.w64 3) w
         else readOk s x c (i.w64 3) w && writeOk s x c (i.w64 3) w) &&
        (!bit (i.w 5) 8 || (decide (i.w64 10 < 2 ^ 48) && writeOk s x c (i.w64 10) 8))
    | 0x0C => bit (rd s (FLK_CTX_REMOTE x)) 3 && bits (i.w 3) 0 16 != 0
    | 0x0D => readOk s x c (i.w64 3) 64 && writeOk s x c (i.w64 3) 64
    | 0x0E => readOk s x c (i.w64 3) (16 * bits (i.w 5) 0 9) && (i.w64 6 == 0 || readOk s x c (i.w64 6) 48) &&
        writeOk s x c (i.w64 8) 48
    | _ => true
  !ok

/-- Check 8 of Table 4.6: source and destination overlap. -/
def ladleOverlap (i : Item) : Bool :=
  match i.lop with
  | 1 => meets (i.w64 3) (i.w 7) (i.w64 5) (i.w 7)
  | 2 => meets (i.w64 3) ((i.w 8 - 1) * i.w 9 + i.w 7) (i.w64 5) ((i.w 8 - 1) * i.w 10 + i.w 7) &&
      (copyRows i).any (fun r => (copyRows i).any (fun t => meets r.1 (i.w 7) t.2 (i.w 7)))
  | _ => false

/-- The first Ladle check of Table 4.6 that an item fails (R156). -/
def ladleCheck (s : State) (x c : Nat) (i : Item) : Option Nat :=
  match ladleLen i.lop (ladleSub i) with
  | none => some 1
  | some n =>
    if hLen i.head - b2n (hSig i.head) ≠ n then some 2
    else if ladleReserved i then some 3
    else if ladleFormat i then some 4
    else if ladleCount s i then some 5
    else if ladleAlign i then some 6
    else if ladleAddrs s x c i then some 7
    else if ladleOverlap i then some 8
    else none

end Sys2Proof.Machine
end

