-- ==== Sys2Proof/Machine/AlloyCheck.lean ====
section
/-! DEFINITION. The Alloy engine's checks of an item's body (Table 8.2, R298, R299, R304, R305). -/
namespace Sys2Proof.Machine
open Reg

/-- AOP of an ALY item. -/
def Item.aop (i : Item) : Nat := bits (i.w 1) 0 8
/-- GROUP of an ALY item. -/
def Item.group (i : Item) : Nat := bits (i.w 1) 8 8

/-- Whether a group is enabled: IDLE or BUSY (R301). -/
def grpOn (s : State) (g : Nat) : Bool := bit (rd s (ALY_GRP_CTRL g)) 0
/-- OWNER of a group. -/
def grpOwner (s : State) (g : Nat) : Nat := bits (rd s (ALY_GRP_CTRL g)) 4 4
/-- BIND of a group. -/
def grpBind (s : State) (g : Nat) : Nat := bits (rd s (ALY_GRP_CTRL g)) 8 8
/-- DIMS of a group. -/
def grpDims (s : State) (g : Nat) : Nat := bits (rd s (ALY_GRP_DIMS g)) 0 16
/-- The dimensions of a group, ascending (R299). -/
def grpDimList (s : State) (g : Nat) : List Nat := (List.range 16).filter (fun d => bit (grpDims s g) d)
/-- The members of a group are 2^n. -/
def grpN (s : State) (g : Nat) : Nat := (grpDimList s g).length

/-- LEN + 1 of an AOP without a signal word (Table 8.1). -/
def alloyLen (aop : Nat) : Option Nat :=
  match aop with
  | 1 => some 2
  | 2 => some 2
  | 3 => some 7
  | 4 => some 14
  | 5 => some 7
  | 6 => some 2
  | _ => none

/-- COUNT of a REDUCE. -/
def Item.redCount (i : Item) : Nat := i.w 5 + 2 ^ 32 * bits (i.w 6) 0 8
/-- BYTES of a BCAST. -/
def Item.bcBytes (i : Item) : Nat := i.w 5 + 2 ^ 32 * bits (i.w 6) 0 8
/-- LANES of a REDUCE. -/
def Item.lanes (i : Item) : Bool := bit (i.w 2) 2

/-- Check 3 of Table 8.2. -/
def alloyReserved (i : Item) : Bool :=
  bits (i.w 1) 18 14 != 0 || (i.aop != 2 && bits (i.w 1) 16 2 != 0) ||
  (match i.aop with
    | 3 => bits (i.w 2) 8 24 != 0
    | 4 => bits (i.w 2) 3 29 != 0 || bits (i.w 6) 8 24 != 0 || bits (i.w 13) 17 15 != 0 ||
        (!i.lanes && (i.w 9 != 0 || i.w 10 != 0 || i.w 11 != 0 || i.w 12 != 0 || i.w 13 != 0)) ||
        (bits (i.w 2) 0 2 == 2 && (i.w 7 != 0 || i.w 8 != 0))
    | 5 => bits (i.w 2) 1 31 != 0 || bits (i.w 6) 8 24 != 0
    | _ => false)

/-- Check 5 of Table 8.2; the number of distinct lanes is checked at execution. -/
def alloyCount (i : Item) : Bool :=
  match i.aop with
  | 3 => bits (i.w 2) 0 4 ≥ 8 || bits (i.w 2) 4 4 == 0 || decide (8 < bits (i.w 2) 4 4)
  | 4 => bits (i.w 2) 0 2 == 3 || (i.lanes && bits (i.w 2) 0 2 != 0) || i.redCount == 0 ||
      (i.lanes && (bits (i.w 13) 0 17 == 0 || decide (65536 < bits (i.w 13) 0 17)))
  | 5 => i.bcBytes == 0
  | _ => false

/-- Check 6 of Table 8.2. -/
def alloyAlign (i : Item) : Bool :=
  let off (n k : Nat) : Bool := i.w64 n % k != 0
  match i.aop with
  | 3 => off 3 4 || off 5 4
  | 4 => off 3 128 || off 7 128 || off 9 64 || off 11 16
  | 5 => off 3 128
  | _ => false

/-- Whether an ALY item may reach an extent: the near tier, the far tier or the issuing crucible's scratchpad, within
OWNER's ranges (R304). -/
def alloyAddr (s : State) (x c perm a n : Nat) : Bool :=
  decide (a < 2 ^ 48) && accessOk s x c perm perm a n && (match region s a with
    | .near => true
    | .far => true
    | .scratch d _ => d == c
    | _ => false)

/-- Check 7 of Table 8.2. -/
def alloyAddrs (s : State) (x c : Nat) (i : Item) : Bool :=
  let ok : Bool := match i.aop with
    | 3 => let n := 4 * bits (i.w 2) 4 4
        alloyAddr s x c 0 (i.w64 3) n && alloyAddr s x c 1 (i.w64 5) n
    | 4 => let n := 4 * i.redCount
        alloyAddr s x c 0 (i.w64 3) n && alloyAddr s x c 1 (i.w64 3) n &&
        (i.w64 7 == 0 || (alloyAddr s x c 0 (i.w64 7) n && alloyAddr s x c 1 (i.w64 7) n)) &&
        (!i.lanes || (alloyAddr s x c 0 (i.w64 9) 64 && alloyAddr s x c 1 (i.w64 9) 64 &&
          alloyAddr s x c 0 (i.w64 11) (16 * bits (i.w 13) 0 17)))
    | 5 => alloyAddr s x c 0 (i.w64 3) i.bcBytes && alloyAddr s x c 1 (i.w64 3) i.bcBytes
    | _ => true
  !ok

/-- The first Alloy check of Table 8.2 that an item fails. -/
def alloyCheck (s : State) (x c : Nat) (i : Item) : Option Nat :=
  let g := i.group
  match alloyLen i.aop with
  | none => some 1
  | some n =>
    if hLen i.head - b2n (hSig i.head) ≠ n then some 2
    else if alloyReserved i then some 3
    else if !(grpOn s g && grpOwner s g == x && grpBind s g == c) then some 4
    else if alloyCount i then some 5
    else if alloyAlign i then some 6
    else if alloyAddrs s x c i then some 7
    else if i.aop = 5 ∧ bit (i.w 2) 0 ∧ 9 < grpN s g then some 8
    else none

end Sys2Proof.Machine
end

