-- ==== Sys2Proof/Machine/Gate.lean ====
section
/-! DEFINITION. The gate's queue commands: doorbells, flushes, enabling, resets, resumption, completion, semaphores
and step numbers (R94 to R120, R133 to R140, R517, R518). -/
namespace Sys2Proof.Machine
open Reg

/-- The state of a context (Table 6.1): 0 DISABLED, 1 RUNNABLE, 2 STOPPING, 3 STOPPED. -/
def ctxState (s : State) (x : Nat) : Nat := spGet s.tnd.states x 0

/-- An unsatisfied wait: a SEM_WAIT or SEM_WAIT_SHARED item that is not done (R122). -/
def isWait (i : Item) : Bool := (i.op == 0x61 || i.op == 0x62) && !i.isDone

/-- Whether a queue is at a pre-emptible boundary (R122): its last accepted command has completed and no KEEP header is
published at HEAD, or its head item is an unsatisfied wait that begins a command, with which the accepted items behind it
go back to the ring; a wait with KEEP, or behind which an item has issued, is none (log entry 52). -/
def atBoundary (s : State) (k : Nat) : Bool :=
  let q := qOf s k
  let n := qAvail s k
  let keepNext := decide (0 < n) && hKeep (qWord s k (qHead s k))
  match q.items with
  | [] => !q.openCmd && !keepNext
  | i :: rest => isWait i && i.first && !hKeep i.head && rest.all (fun j => j.phase == .accepted)

/-- Discards the whole items of a refused command, up to its BND item, as they become published (R140). Answers the
state and whether the walk has ended. -/
def discardWalk : Nat → State → Nat → State
  | 0, s, _ => s
  | f + 1, s, k =>
    let q := qOf s k
    match q.walk with
    | none => s
    | some n =>
      let av := qAvail s k
      if av = 0 then s else
      let h := qWord s k (qHead s k)
      let l := hLen h
      if av < l then s else
      let s1 := setReg s (qReg k 0x14) (qHead s k + l)
      if hBnd h then
        let total := n + l
        let s2 := setQ s1 k { q with walk := none, openCmd := false, bndIn := false, cmdStart := none }
        let s3 := setReg s2 (qReg k 0x1C) total
        let s4 := putRecord s3 k (flushRecord s3 k total (qHead s3 k))
        logCtx s4 0x0204 (16 + qCru k) (qCtx k) (rd s (qReg k 0x38)) [qCru k, qCtx k, qIdx k, qHead s4 k, total]
      else discardWalk f (setQ s1 k { q with walk := some (n + l) }) k

/-- A walk continues while words are published (R140, R518). -/
def runWalk (s : State) (k : Nat) : State := if qEnabled s k then discardWalk (qAvail s k + 1) s k else s

/-- Event 0x0202 and reason 11 for a discarded doorbell (R96, R514). -/
def discardDoorbell (s : State) (src : Src) (k count off : Nat) : State :=
  let s1 := logSrc s 0x0202 src [qCru k, qCtx k, qIdx k, count, qPub s k, qHead s k, srcDatum src]
  logDiscard s1 src off 4 11

/-- Publishes `count` words of a queue, or discards the doorbell (R96, R98). -/
def doorbell (s : State) (src : Src) (k count off : Nat) : State :=
  if !qEnabled s k then discardDoorbell s src k count off
  else if qSize s k < qAvail s k + count then discardDoorbell s src k count off
  else runWalk (setReg s (qReg k 0x10) (qPub s k + count)) k

/-- Whether the host's requests are answered: GLB shows READY (R498). -/
def isReady (s : State) : Bool := s.mode == .ready

/-- A write of `width` bytes at a BAR4 offset of the doorbell region (R96). -/
def doorbellWrite (s : State) (src : Src) (off width value : Nat) : State :=
  if off % 0x40 ≠ 0 ∨ width ≠ 4 ∨ value % 2 ^ 16 = 0 ∨ 2 ^ 16 ≤ value then logDiscard s src off width 11
  else doorbell s src (off / 0x40) value off

/-- DOORBELL (R96). Before READY it completes as Unsupported Request (R498). -/
def execDoorbell (src : Src) (off width value : Nat) (s : State) : Host.Outcome State Fault Refusal :=
  if !isReady s then .next (emit s (.unsupported src))
  else if 0x200000 ≤ off then .next (logDiscard s src off width 7)
  else .next (doorbellWrite s src off width value)

/-- Counts an item completed on the device, for the driver's watchdog (R424). -/
def countProgress (s : State) : State := cntAdd s CUP_WDT_PROG_CNT_LO 1

/-- Whether a 64-byte unit lies wholly in the near tier and in one readable and writable range of a context. -/
def inRwRange (s : State) (x a n : Nat) : Bool :=
  inNear (a + n - 1) && (List.range 8).any (fun r =>
    let b := 65536 * rd s (LDL_RNG_BASE x r)
    let l := 65536 * rd s (LDL_RNG_LIMIT x r)
    decide (b ≤ a) && decide (a + n ≤ l) && bits (rd s (LDL_RNG_PERM x r)) 0 2 == 3)

/-- Adds an item's slag to the record of its tensor in one read-merge-write, or counts it as lost (R204 to R206). -/
def slagCount (s : State) (x step op : Nat) (e : SlagOwed) (absurd : Nat) : State :=
  let s0 := cntAdd (cntAdd (cntAdd (cntAdd s LDL_SLAG_NONFIN_CNT_LO e.nonfin) LDL_SLAG_SAT_CNT_LO e.sat)
    LDL_SLAG_INVAL_CNT_LO e.inval) LDL_SLAG_ABSURD_CNT_LO absurd
  let s1 := if e.nonfin = 0 then s0 else setReg s0 (LDL_SLAG_NF x) 1
  let s2 := logCtx s1 0x0501 x x step [x, e.tensor, e.nonfin, e.sat, e.inval, absurd, op, step]
  let ents := rd s (LDL_SLAG_ENTRIES x)
  let t := if e.tensor < ents then e.tensor else 0
  let a := rd64 s (LDL_SLAG_BASE_LO x) + 32 * t
  let unit := a / 64 * 64
  let lose (st : State) (why : Nat) : State :=
    logCtx (cntAdd st LDL_SLAG_LOST_CNT_LO (e.nonfin + e.sat + e.inval + absurd)) 0x0502 x x step
      [x, e.tensor, e.nonfin, e.sat, e.inval, absurd, why]
  if ents = 0 then lose s2 1
  else if !inRwRange s x unit 64 then lose s2 2
  else
    let w (i : Nat) : Nat := devWord s2 (a + 4 * i)
    let clear := w 0 == 0 && w 1 == 0 && w 2 == 0 && w 3 == 0
    let add (v n : Nat) : Nat := min (v + n) 0xFFFFFFFF
    let r := devWrite s2 hostAgent a (([add (w 0) e.nonfin, add (w 1) e.sat, add (w 2) e.inval, add (w 3) absurd,
      (if clear then step else w 4), step, 0, 0]).flatMap (leBytes 4))
    if r.2 ≠ 0 then lose r.1 3 else r.1

/-- Applies a pending queue reset (R517): HEAD and RESTART take PUB, the open command, halt and walk go, held records
are dropped, SEQ restarts and the step number is 0, and an unsatisfied shared wait that went back to the ring is
dropped. Run-ahead streams that the queue armed end (R180). -/
def resetQueue (s : State) (k : Nat) : State :=
  let pub := qPub s k
  let s1 := setReg (setReg (setReg (setReg s (qReg k 0x14) pub) (qReg k 0x20) pub) (qReg k 0x3C) 0) (qReg k 0x38) 0
  let s0 := setQ s1 k { QState.init with crossed := true }
  let t := { s0.tnd with waits := s0.tnd.waits.filter (fun w => !(qKey w.crucible w.ctx w.queue == k)) }
  let s2 := { s0 with tnd := t }
  let drop := (s2.ladle.streams.map (fun e => if e.2.queue == k && e.2.state == 1 then
    e.2.buf.countP (fun b => b.ready && !b.used) else 0)).sum
  let st := s2.ladle.streams.map (fun e => if e.2.queue == k && e.2.state == 1 then
    (e.1, { e.2 with state := 2, buf := e.2.buf.filter (fun b => !b.ready) }) else e)
  cntAdd { s2 with ladle := { s2.ladle with streams := st } } LDL_RA_DISCARD_CNT_LO drop

/-- Whether an item of the queue is in flight: issued, not complete, and no unsatisfied wait (R517). -/
def inFlight (q : QState) : Bool := q.items.any (fun i => (i.phase != .accepted) && !isWait i)

/-- The queue after its item with this index has gone. When the command is over (R103) the record of its BND item
follows those of its earlier items, and the boundary is reached (R125, R137). -/
def dropItem (s : State) (k idx : Nat) : State :=
  let q := qOf s k
  let q1 := { q with items := q.items.filter (fun i => i.index != idx) }
  if q1.items.isEmpty && q1.bndIn then
    let keepNext := decide (0 < qAvail s k) && hKeep (qWord s k (qHead s k))
    let s1 := setQ s k { q1 with openCmd := false, bndIn := false, crossed := false, bndRec := none,
                                 cmdStart := if keepNext then q1.cmdStart else none }
    match q1.bndRec with
    | some r => putRecord s1 k r
    | none => s1
  else match (if q1.items.isEmpty then q1.bndRec else none) with
    | some r => putRecord (setQ s k { q1 with bndRec := none }) k r
    | none => setQ s k q1

/-- Writes an item's record, or keeps a BND item's record for the end of its command (R137). -/
def recordItem (s : State) (k : Nat) (i : Item) (r : Record) : State :=
  let q := qOf s k
  if hBnd i.head && decide (1 < q.items.length) then setQ s k { q with bndRec := some r } else putRecord s k r

/-- Completes an item: its signal, then its slag, then its record (R113, R205, R137); a completion that names lost
data taints the device (R367), and the owner's SWEEP requests its cut (R403). -/
def completeItem (s : State) (k : Nat) (i : Item) (status detail : Nat) : State :=
  let x := qCtx k
  let s1 := match i.sig with
    | some w => applySignal s (qCru k) x i.phys w
    | none => s
  let s2 := i.slag.foldl (fun st e => slagCount st x i.step i.op e 0) s1
  let s3 := if hCmpl i.head ∨ status = 1 ∨ status = 2 then recordItem s2 k i (itemRecord s2 i status detail) else s2
  let s4 := match taintCause status detail with
    | some c => taint s3 c i.step i.index
    | none => s3
  let s5 := if 0x20 ≤ status ∧ status < 0x40 then
      logCtx s4 0x0305 (16 + qCru k) x i.step [qCru k, x, qIdx k, i.index, i.lop, status, detail]
    else s4
  let s6 := { s5 with integ := { s5.integ with carried := spPut s5.integ.carried i.phys 1 0 } }
  stepCut (dropItem (countProgress s6) k i.index) k i

/-- ITEM_COMPLETE (R113): completes a done item of a queue. -/
def execItemComplete (c x q idx : Nat) (s : State) : Host.Outcome State Fault Refusal :=
  let k := qKey c x q
  match findItem s k idx with
  | none => .next s
  | some i =>
    match i.phase with
    | .done st d => .next (orWait s (completeItem s k i st d))
    | _ => .next s

/-- The queue's next item to issue: the first that has not issued; every item before it has issued (R102). -/
def nextItem (s : State) (k : Nat) : Option Item := (qOf s k).items.find? (fun i => i.phase == .accepted)

/-- Whether ORD is satisfied: every earlier item of the queue has completed (Table 3.1). -/
def ordOk (q : QState) (i : Item) : Bool :=
  !hOrd i.head || (match q.items with
    | j :: _ => j.index == i.index
    | [] => false)

/-- Whether the device's gates issue nothing new: a limit hold or root change (R142), the cope/drag stop or its record
limit (R389), or a device that is not running. -/
def issueHeld (s : State) : Bool :=
  s.mode != .ready || s.cup.hold || s.clock.changing.isSome ||
  s.integ.cope == 2 || s.integ.cope == 3 || decide (65536 ≤ s.integ.mine.length)

/-- Whether the queue's context runs on its crucible: resident there, no switch or test in progress (R232, R242). The
waits that it has issued are evaluated, under a hold too (R142). -/
def onCrucible (s : State) (k : Nat) : Bool :=
  let p := physOf s (qCru k)
  let cr := cruOf s p
  s.mode == .ready && decide (p < 264) && cr.resident == some (qCtx k) && cr.switching.isNone && cr.testing.isNone &&
  !(qOf s k).resetPend && (ctxState s (qCtx k) == 1 || ctxState s (qCtx k) == 2)

/-- Whether the queue's context may issue on its crucible (R142, R232, R242). -/
def mayIssue (s : State) (k : Nat) : Bool := onCrucible s k && !issueHeld s

/-- The item that an execution command issues: the queue's next item, of this opcode, once R102 lets it issue. -/
def issuable (s : State) (k op : Nat) : Option Item :=
  match nextItem s k with
  | some i => if i.op = op ∧ mayIssue s k ∧ ordOk (qOf s k) i then some i else none
  | none => none

/-- Marks an item issued on the physical crucible that carries its logical one. -/
def issueItem (s : State) (k idx : Nat) : State :=
  setItem s k idx (fun i => { i with phase := .issued, phys := physOf s (qCru k) })

/-- NOP (R104): completes at issue. -/
def execNop (c x q : Nat) (s : State) : Host.Outcome State Fault Refusal :=
  let k := qKey c x q
  match issuable s k 0x00 with
  | none => .next s
  | some i => .next (completeItem s k { i with phys := physOf s c } 0 0)

/-- Whether a STEP item is held for a pending batch-table flip of its context: it begins a command and carries a
value at least the apply step (R250). -/
def flipHolds (s : State) (k : Nat) (i : Item) : Bool :=
  let b := spGet s.tnd.batch (qCtx k) BatchState.init
  b.pending.isSome && bit (rd s (TND_CTX_CTRL (qCtx k))) (12 + qIdx k) && decide (b.apply ≤ i.w 1) &&
  decide ((qOf s k).items.head?.map (·.index) = some i.index)

/-- STEP at issue (R105): it completes; the step number was set when it was accepted. A pending flip holds it
(R250). -/
def execStep (c x q : Nat) (s : State) : Host.Outcome State Fault Refusal :=
  let k := qKey c x q
  match issuable s k 0x02 with
  | none => .next s
  | some i =>
    if flipHolds s k i then .next s else
    let hi := max (spGet s.tnd.issued k 0) (i.w 1)
    let s1 := { s with tnd := { s.tnd with issued := spPut s.tnd.issued k hi 0 } }
    .next (completeItem s1 k { i with phys := physOf s c } 0 0)

/-- SEM_SIGNAL (R113): word 1 is applied at issue, and the item completes. -/
def execSemSignal (c x q : Nat) (s : State) : Host.Outcome State Fault Refusal :=
  let k := qKey c x q
  match issuable s k 0x60 with
  | none => .next s
  | some i =>
    let p := physOf s c
    .next (completeItem (applySignal s c x p (i.w 1)) k { i with phys := p } 0 0)

/-- SEM_SET (R116): word 2 into the crucible semaphore that word 1 bits 5:0 name. -/
def execSemSet (c x q : Nat) (s : State) : Host.Outcome State Fault Refusal :=
  let k := qKey c x q
  match issuable s k 0x63 with
  | none => .next s
  | some i =>
    .next (completeItem (setReg s (CRU_SEM c x (bits (i.w 1) 0 6)) (i.w 2)) k { i with phys := physOf s c } 0 0)

/-- The DEC waits on a crucible semaphore other than one of them, by the order in which they began: their targets. -/
def otherDecWaits (s : State) (c x sem k idx : Nat) : Sparse Nat :=
  (List.range 8).foldl (fun l q => (qOf s (qKey c x q)).items.foldl (fun (m : Sparse Nat) i =>
    if i.op == 0x61 && i.phase == .issued && bits (i.w 1) 0 6 == sem && bit (i.w 1) 8 &&
      !(qKey c x q == k && i.index == idx) then spPut m (i.began * 8 + q) (i.w 2) (2 ^ 32) else m) l) []

/-- Evaluates a wait on a crucible semaphore (R117, R120): when the value reaches TARGET it is satisfied, DEC subtracts
TARGET, and the item completes. -/
def evalWait (s : State) (k : Nat) (i : Item) : State :=
  let c := qCru k
  let x := qCtx k
  let sem := bits (i.w 1) 0 6
  let v := rd s (CRU_SEM c x sem)
  if v < i.w 2 then s else
  let dec := bit (i.w 1) 8
  let s1 := if dec then setReg s (CRU_SEM c x sem) (v - i.w 2) else s
  let s2 := if dec && someUnmet (v - i.w 2) ((otherDecWaits s c x sem k i.index).map (·.2)) then countChoice s1 4 x i.step (16 + c) else s1
  completeItem s2 k i 0 0

/-- SEM_WAIT (R117): issues, and is evaluated at once; unsatisfied, it waits. -/
def execSemWait (c x q : Nat) (s : State) : Host.Outcome State Fault Refusal :=
  let k := qKey c x q
  match issuable s k 0x61 with
  | none => .next s
  | some i =>
    let n := s.tnd.order
    let i1 := { i with phase := .issued, phys := physOf s c, began := n }
    let s1 := setItem { s with tnd := { s.tnd with order := n + 1 } } k i.index (fun _ => i1)
    .next (evalWait s1 k i1)

/-- Whether a DEC wait that began earlier, or as early in a lower queue, is satisfiable too (R120). -/
def earlierWait (s : State) (c x q : Nat) (i : Item) : Bool :=
  (List.range 8).any (fun r => (qOf s (qKey c x r)).items.any (fun j =>
    j.op == 0x61 && j.phase == .issued && bits (j.w 1) 0 6 == bits (i.w 1) 0 6 && bit (j.w 1) 8 &&
    decide (j.w 2 ≤ rd s (CRU_SEM c x (bits (i.w 1) 0 6))) &&
    (decide (j.began < i.began) || (decide (j.began = i.began) && decide (r < q)))))

/-- SEM_WAIT_SATISFIED (R120): a waiting item whose condition holds is satisfied, the earliest DEC wait first. -/
def execSemWaitSatisfied (c x q : Nat) (s : State) : Host.Outcome State Fault Refusal :=
  let k := qKey c x q
  match (qOf s k).items.find? (fun i => i.op == 0x61 && i.phase == .issued) with
  | none => .next s
  | some i =>
    if !onCrucible s k || (bit (i.w 1) 8 && earlierWait s c x q i) then .next s
    else .next (evalWait s k i)

/-- CRU_SEM_WRITE (R119): acts as SEM_SET, and is recorded as an accepted write where it changes the value (R442). -/
def semWrite (s : State) (src : Src) (c x sem value : Nat) : State :=
  let o := CRU_SEM c x sem
  let s1 := setReg s o value
  if rd s o = value then s1 else logAccepted s1 src 0 o value

/-- CRU_SEM_WRITE (R119). -/
def execCruSemWrite (src : Src) (c x sem : Nat) (value : Word) (s : State) : Host.Outcome State Fault Refusal :=
  if !isReady s then .next (emit s (.unsupported src)) else .next (semWrite s src (c % 256) (x % 16) (sem % 64) value.toNat)

/-- Orders a flush with the producer's write index WR (R134, R135). -/
def flush (s : State) (src : Src) (k wr : Nat) : State :=
  if !qEnabled s k then logDiscard s src (qReg k 0x18) 4 8 else
  let s0 := logAccepted (setReg s (qReg k 0x18) wr) src 0 (qReg k 0x18) wr
  let pub := qPub s k
  let back := (2 ^ 32 + wr - pub) % 2 ^ 32
  if 2 ^ 31 ≤ back ∨ qSize s k < (2 ^ 32 + wr - qHead s k) % 2 ^ 32 then
    logCtx s0 0x0203 (16 + qCru k) (qCtx k) (rd s (qReg k 0x38)) [qCru k, qCtx k, qIdx k, wr, pub, qHead s k]
  else
    let start := (2 ^ 32 + pub - qHeld s k) % 2 ^ 32
    let n := (2 ^ 32 + wr - start) % 2 ^ 32
    let s1 := setReg (setReg (setReg s0 (qReg k 0x10) start) (qReg k 0x20) start) (qReg k 0x1C) n
    let s2 := putRecord s1 k (flushRecord s1 k n start)
    logCtx s2 0x0204 (16 + qCru k) (qCtx k) (rd s (qReg k 0x38)) [qCru k, qCtx k, qIdx k, start, n]

/-- CRU_Q_FLUSH (R134). -/
def execCruQFlush (src : Src) (c x q : Nat) (wr : Word) (s : State) : Host.Outcome State Fault Refusal :=
  if !isReady s then .next (emit s (.unsupported src)) else .next (orWait s (flush s src (qKey c x q) wr.toNat))

/-- Whether ENABLE may be set: the base is aligned to the ring, the ring lies in the near tier, and the logical
crucible is available (R518). -/
def enableOk (s : State) (k ctrl : Nat) : Bool :=
  let n := 4 * 2 ^ (10 + min 8 (bits ctrl 4 4))
  let b := rd64 s (qReg k 8)
  b % n == 0 && inNear (b + n - 1) && decide (physOf s (qCru k) < 264)

/-- CRU_Q_ENABLE (R518): sets ENABLE, and SIZE with it; refused and logged where R518 says so. A walk under way
continues. -/
def queueEnable (s : State) (src : Src) (k size : Nat) (note : Bool := true) : State :=
  let o := qReg k 0
  let old := rd s o
  if bit old 0 then (if bits old 4 4 = size then s else logDiscard s src o 4 8) else
  let v := 1 + size * 16
  if 8 < size ∨ !enableOk s k v then logDiscard s src o 4 8
  else runWalk (logAccIf note (setReg s o v) src o v) k

/-- CRU_Q_ENABLE (R518). -/
def execCruQEnable (src : Src) (c x q size : Nat) (s : State) : Host.Outcome State Fault Refusal :=
  if !isReady s then .next (emit s (.unsupported src)) else .next (orWait s (queueEnable s src (qKey c x q) size))

/-- CRU_Q_DISABLE (R518): clears ENABLE; items already accepted go on, and pointers, halt and walk stay. -/
def queueDisable (s : State) (src : Src) (k : Nat) (note : Bool := true) : State :=
  let o := qReg k 0
  let v := rd s o
  if bit v 0 then logAccIf note (setReg s o (v - 1)) src o (v - 1) else s

/-- CRU_Q_DISABLE (R518). -/
def execCruQDisable (src : Src) (c x q : Nat) (s : State) : Host.Outcome State Fault Refusal :=
  if !isReady s then .next (emit s (.unsupported src)) else .next (queueDisable s src (qKey c x q))

/-- Orders a queue reset: at once with nothing in flight, otherwise pending (R517). -/
def orderReset (s : State) (src : Src) (k : Nat) (note : Bool := true) : State :=
  let q := qOf s k
  let s0 := logAccIf note s src (qReg k 0) (rd s (qReg k 0) / 8 * 8 + b2n (qEnabled s k) + 2)
  if q.resetPend then s0
  else if inFlight q then
    setQ s0 k { q with resetPend := true, items := q.items.filter (fun i => i.phase != .accepted && !isWait i) }
  else resetQueue s0 k

/-- CRU_Q_RESET (R517). -/
def execCruQReset (src : Src) (c x q : Nat) (s : State) : Host.Outcome State Fault Refusal :=
  if !isReady s then .next (emit s (.unsupported src)) else .next (orderReset s src (qKey c x q))

/-- CRU_Q_RESET_ACT (R517): a pending reset acts once no item of the queue is in flight. -/
def execCruQResetAct (c x q : Nat) (s : State) : Host.Outcome State Fault Refusal :=
  let k := qKey c x q
  if (qOf s k).resetPend && !inFlight (qOf s k) then .next (resetQueue s k) else .next s

/-- Ends HALTED and starts the discard of the rest of the refused command (R140). With the refused item's own header
lost, a RESUME is discarded and logged (R365). -/
def resume (s : State) (src : Src) (k : Nat) (note : Bool := true) : State :=
  let q := qOf s k
  if !q.halted || q.poisonedHead then logDiscard s src (qReg k 0) 4 8 else
  let s0 := logAccIf note s src (qReg k 0) (rd s (qReg k 0) + 4)
  if q.refBnd then
    let s1 := setQ s0 k { q with halted := false, openCmd := false, bndIn := false, cmdStart := none }
    let s2 := setReg s1 (qReg k 0x1C) 0
    let s3 := putRecord s2 k (flushRecord s2 k 0 (qHead s2 k))
    logCtx s3 0x0204 (16 + qCru k) (qCtx k) (rd s (qReg k 0x38)) [qCru k, qCtx k, qIdx k, qHead s3 k, 0]
  else runWalk (setQ s0 k { q with halted := false, openCmd := true, walk := some 0 }) k

/-- CRU_Q_RESUME (R140). -/
def execCruQResume (src : Src) (c x q : Nat) (s : State) : Host.Outcome State Fault Refusal :=
  if !isReady s then .next (emit s (.unsupported src)) else .next (orWait s (resume s src (qKey c x q)))

/-- CRU_Q_CQ_HEAD_WRITE (R139): frees ring space, and held records are written. -/
def cqHeadWrite (s : State) (src : Src) (k v : Nat) : State :=
  let o := qReg k 0x30
  let s1 := setReg s o v
  let s2 := if rd s o = v then s1 else logAccepted s1 src 0 o v
  releaseHeld ((qOf s2 k).held.length) s2 k

/-- CRU_Q_CQ_HEAD_WRITE (R139). -/
def execCruQCqHeadWrite (src : Src) (c x q : Nat) (v : Word) (s : State) : Host.Outcome State Fault Refusal :=
  if !isReady s then .next (emit s (.unsupported src)) else .next (orWait s (cqHeadWrite s src (qKey c x q) v.toNat))

end Sys2Proof.Machine
end

