-- ==== Sys2Proof/Machine/Tundish.lean ====
section
/-! DEFINITION. The Tundish: arbitration, switches, the cyclic schedule, moves to spares, shared semaphores with
inheritance, and batch-table flips (chapter 6). -/
namespace Sys2Proof.Machine
open Reg

/-- The state with the Tundish changed. -/
def State.withTnd (s : State) (t : Tundish) : State := { s with tnd := t }
/-- The state with a context in another state of Table 6.1. -/
def setCtxState (s : State) (x n : Nat) : State := s.withTnd { s.tnd with states := spPut s.tnd.states x n 0 }

/-- Whether crucible c lies in context x's applied CSET. -/
def inCset (s : State) (x c : Nat) : Bool := bit (rd s (TND_CTX_CSET x (c / 32))) (c % 32)
/-- PRIO. -/
def ctxPrio (s : State) (x : Nat) : Nat := bits (rd s (TND_CTX_CTRL x)) 4 3
/-- SLICE. -/
def ctxSlice (s : State) (x : Nat) : Nat := bits (rd s (TND_CTX_CTRL x)) 8 4
/-- Whether a context has a wait on a shared semaphore whose condition does not hold: issued, or registered while the
context is switched out (R245, R247). -/
def stillWaits (s : State) (x sem : Nat) : Bool :=
  let v := rd s (TND_SSEM_VAL sem)
  s.tnd.waits.any (fun w => w.ctx == x && w.sem == sem && decide (v < w.target)) ||
  s.queues.any (fun e => qCtx e.1 == x && e.2.items.any (fun i => i.op == 0x62 && i.phase == .issued &&
    bits (i.w 1) 0 10 == sem && decide (v < i.w 2)))
/-- Effective priority: 8 under an inheritance of case (b), while its waiter waits (R242, R247). -/
def effPrio (s : State) (x : Nat) : Nat :=
  if s.tnd.gifts.any (fun g => g.holder == x && g.lent.isNone && stillWaits s g.waiter g.sem) then 8 else ctxPrio s x
/-- Whether a logical crucible is available (R371). -/
def available (s : State) (c : Nat) : Bool := decide (physOf s c < 264)
/-- The context resident on a logical crucible. -/
def residentOn (s : State) (c : Nat) : Option Nat := (cruOf s (physOf s c)).resident
/-- The logical crucibles on which a context is resident or coming in. -/
def residentCrus (s : State) (x : Nat) : List Nat :=
  (List.range 256).filter (fun c => available s c &&
    (residentOn s c == some x || (match (cruOf s (physOf s c)).switching with
      | some (some y, _) => y == x
      | _ => false)))

/-- The low word of slot s of bank b (Table 6.2). -/
def slotLo (s : State) (b i : Nat) : Nat := rd s (TND_SLOT_LO b i)
/-- LEN of a slot in units of 10 µs. -/
def slotLen (s : State) (b i : Nat) : Nat := bits (slotLo s b i) 0 12
/-- OWNER of a slot. -/
def slotOwner (s : State) (b i : Nat) : Nat := bits (slotLo s b i) 12 4
/-- EXCL of a slot. -/
def slotExcl (s : State) (b i : Nat) : Bool := bit (slotLo s b i) 16
/-- VALID of a slot. -/
def slotValid (s : State) (b i : Nat) : Bool := bit (slotLo s b i) 17
/-- PAR of a slot. -/
def slotPar (s : State) (b i : Nat) : Bool := bit (slotLo s b i) 18
/-- GUARD of a slot in microseconds. -/
def slotGuard (s : State) (b i : Nat) : Nat := bits (rd s (TND_SLOT_HI b i)) 0 12
/-- The number of slots of a bank's table: it ends at the first entry that is not VALID. -/
def slotCount (s : State) (b : Nat) : Nat := leastFrom (fun i => !slotValid s b i) 0 256
/-- The slots of a bank that begin a parallel group (R238). -/
def groupHeads (s : State) (b : Nat) : List Nat := (List.range (slotCount s b)).filter (fun i => i == 0 || !slotPar s b i)
/-- The first slot of a slot's group. -/
def groupHead (s : State) (b i : Nat) : Nat := ((groupHeads s b).filter (fun h => decide (h ≤ i))).getLastD 0
/-- The cycle length C in units of 10 µs (R238). -/
def cycleLen (s : State) (b : Nat) : Nat := ((groupHeads s b).map (slotLen s b)).sum
/-- The offset of a slot in its cycle, in REFCLK ticks (R238). -/
def slotOffset (s : State) (b i : Nat) : Nat :=
  (((groupHeads s b).filter (fun h => decide (h < groupHead s b i))).map (slotLen s b)).sum * 1000
/-- The tick at which the current cycle began (R238). -/
def cycleStart (s : State) : Nat :=
  let o := rd64 s TND_CYC_ORIGIN_LO
  let c := cycleLen s s.tnd.bank * 1000
  if c = 0 then o else o + (tickNow s - o) / c * c
/-- EN of the schedule (R241). -/
def schedOn (s : State) : Bool := bit (rd s TND_SCHED_CTRL) 0

/-- Whether two contexts' CSETs overlap. -/
def csetsOverlap (s : State) (x y : Nat) : Bool :=
  (List.range 8).any (fun w => (rd s (TND_CTX_CSET x w)) &&& (rd s (TND_CTX_CSET y w)) != 0)

/-- The group before the group of slot i in the cycle: its first slot (R241). -/
def prevGroup (s : State) (b i : Nat) : Nat :=
  match ((groupHeads s b).filter (fun h => decide (h < groupHead s b i))).getLast? with
  | some h => h
  | none => (groupHeads s b).getLastD 0

/-- Condition n of R241 at a slot. -/
def slotFails (s : State) (b n i : Nat) : Bool :=
  let inTable := decide (i < slotCount s b)
  match n with
  | 1 => i == 0 && !slotValid s b 0
  | 2 => inTable && slotLen s b i == 0
  | 3 => inTable && slotPar s b i && slotLen s b i != slotLen s b (groupHead s b i)
  | 4 => i == 0 && inTable && slotPar s b 0
  | 5 => inTable && slotExcl s b i && decide (slotLen s b (prevGroup s b i) * 10 < slotGuard s b i)
  | _ => inTable && slotExcl s b i && (List.range i).any (fun j => slotExcl s b j &&
      groupHead s b j == groupHead s b i &&
      (slotOwner s b j == slotOwner s b i || csetsOverlap s (slotOwner s b j) (slotOwner s b i)))

/-- The first condition of R241 that a bank fails, and the lowest slot at which it holds. -/
def bankFails (s : State) (b : Nat) : Option (Nat × Nat) :=
  (List.range 6).findSome? (fun n => ((List.range 256).find? (slotFails s b (n + 1))).map (fun i => (n + 1, i)))

/-- The owner for whom an exclusive slot in progress reserves a crucible (R239). -/
def reservedFor (s : State) (c : Nat) : Option Nat :=
  (s.tnd.slots.find? (fun e => inCset s (slotOwner s s.tnd.bank e.1) c &&
    ctxState s (slotOwner s s.tnd.bank e.1) == 1)).map (fun e => slotOwner s s.tnd.bank e.1)

/-- Whether an open guard, or a slot in progress, keeps a context from beginning a command on a crucible (R239). A
crucible that is lent counts as its waiter's (R247). -/
def guarded (s : State) (x c : Nat) : Bool :=
  let y := match s.tnd.gifts.find? (fun g => g.lent == some c && g.holder == x) with
    | some g => g.waiter
    | none => x
  s.tnd.guards.any (fun g => slotOwner s s.tnd.bank g.1 != y && inCset s (slotOwner s s.tnd.bank g.1) c &&
    ctxState s (slotOwner s s.tnd.bank g.1) == 1) ||
  (match reservedFor s c with
    | some o => o != y
    | none => false)

/-- Whether a queue has a next item that is published whole, not held by a guard, and, where it is a wait, satisfied
(R242, R245). -/
def queueReady (s : State) (k : Nat) : Bool :=
  let q := qOf s k
  let h := qWord s k (qHead s k)
  let i := qHead s k
  qEnabled s k && !q.halted && !q.resetPend && q.walk.isNone &&
  (!q.items.isEmpty ||
    (decide (0 < qAvail s k) && decide (hLen h ≤ qAvail s k) &&
      !(guarded s (qCtx k) (qCru k) && !hKeep h && !q.openCmd) &&
      !(hOp h == 0x61 && decide (rd s (CRU_SEM (qCru k) (qCtx k) (bits (qWord s k (i + 1)) 0 6)) < qWord s k (i + 2))) &&
      !(hOp h == 0x62 && decide (rd s (TND_SSEM_VAL (bits (qWord s k (i + 1)) 0 10)) < qWord s k (i + 2)))))

/-- Whether a context is ready on a crucible (R242). -/
def ctxReady (s : State) (x c : Nat) : Bool := (List.range 8).any (fun q => queueReady s (qKey c x q))

/-- Whether a context is a candidate for a crucible (R242). -/
def candidate (s : State) (c x : Nat) : Bool :=
  ctxState s x == 1 && inCset s x c && available s c &&
  (match reservedFor s c with
    | some o => o == x
    | none => true) && ctxReady s x c

/-- Whether every live queue of a context on a crucible is at a pre-emptible boundary (R122, R123). -/
def ctxAtBoundary (s : State) (x c : Nat) : Bool :=
  (List.range 8).all (fun q => let k := qKey c x q
    (!qEnabled s k && (qOf s k).items.isEmpty) || atBoundary s k)

/-- The Alloy groups that a context owns and that are bound to a crucible (R243). -/
def groupsOpen (s : State) (x c : Nat) : Nat :=
  min 8 ((List.range 256).countP (fun g => let v := rd s (ALY_GRP_CTRL g)
    bit v 0 && bits v 4 4 == x && bits v 8 8 == c))

/-- N_sw in FCLK cycles for the context that leaves (R243). -/
def nSw (s : State) (c : Nat) (from_ : Option Nat) : Nat :=
  match from_ with
  | none => 96
  | some x => 96 + 18 * (List.range 8).countP (fun q => qEnabled s (qKey c x q)) + 6 * groupsOpen s x c

/-- Whether the next in turn after `cur` among equal candidates is x: the order of R242, ascending and wrapping. -/
def turnOrder (cur : Nat) : List Nat := (List.range 16).map (fun i => (cur + 1 + i) % 16)

/-- The candidate of highest effective priority, the next in turn among equals (R242). -/
def bestCandidate (s : State) (c cur : Nat) (notIt : Option Nat) : Option Nat :=
  (turnOrder cur).foldl (fun (best : Option Nat) x =>
    if candidate s c x && some x != notIt then
      match best with
      | none => some x
      | some y => if effPrio s y < effPrio s x then some x else best
    else best) none

/-- The tick since which the resident context of a crucible has been resident. -/
def residentSince (s : State) (c : Nat) : Nat := spGet s.tnd.since c 0
/-- QUANTUM in REFCLK ticks; 0 is taken as 1 (Table 6.5). -/
def quantum (s : State) : Nat := max 1 (bits (rd s TND_CFG) 0 12) * 1000

/-- Who should be resident on a crucible whose resident context is at a boundary; answers the resident context
itself where it stays (R239, R242, R247). -/
def choose (s : State) (c : Nat) : Option Nat :=
  let cur := residentOn s c
  let gift := s.tnd.gifts.find? (fun g => g.lent == some c && cur != some g.holder && ctxState s g.holder == 1 &&
    stillWaits s g.waiter g.sem)
  match gift with
  | some g => some g.holder
  | none =>
    match cur with
    | none => (match reservedFor s c with
        | some o => some o
        | none => bestCandidate s c 15 none)
    | some x =>
      if s.tnd.gifts.any (fun g => g.lent == some c && g.holder == x) && ctxState s x == 1 then some x else
      let leave := ctxState s x != 1 || !inCset s x c
      match reservedFor s c with
      | some o => if o = x && !leave then some x else some o
      | none =>
        match bestCandidate s c x (some x) with
        | none => if leave then none else some x
        | some y =>
          if leave || decide (effPrio s x < effPrio s y) then some y
          else if effPrio s x = effPrio s y ∧ quantum s ≤ tickNow s - residentSince s c then some y
          else some x

/-- Saves a context's queues on a crucible: an unsatisfied wait goes back to the ring with the items behind it and the
step number at its acceptance, its shared wait stays registered, and the boundary counts as crossed (R122 to R124,
R245). -/
def saveQueues (s : State) (c x : Nat) : State :=
  forEach (List.range 8) s (fun st q =>
    let k := qKey c x q
    let qs := qOf st k
    match qs.items with
    | i :: _ =>
      if isWait i then
        let w : SharedWait := ⟨x, c, q, bits (i.w 1) 0 10, bit (i.w 1) 12, i.w 2, i.began⟩
        let st1 := if i.op = 0x62 then st.withTnd { st.tnd with waits := st.tnd.waits ++ [w] } else st
        setQ (setReg (setReg st1 (qReg k 0x14) i.index) (qReg k 0x38) i.step) k { qs with items := [], openCmd := false, bndIn := false, crossed := true }
      else setQ st k { qs with crossed := true }
    | _ => setQ st k { qs with crossed := true })

/-- Whether a crucible can begin a switch now. -/
def canSwitch (s : State) (c : Nat) : Bool :=
  available s c && (cruOf s (physOf s c)).switching.isNone && (cruOf s (physOf s c)).testing.isNone &&
  (match residentOn s c with
    | some x => ctxAtBoundary s x c
    | none => true)

/-- Begins a switch of a crucible to a context, or to none (R243); `extra` cycles for a move (R244). -/
def beginSwitch (s : State) (c : Nat) (nxt : Option Nat) (extra : Nat) : State :=
  let p := physOf s c
  let from_ := residentOn s c
  let n := nSw s c from_ + extra
  let s1 := match from_ with
    | some x => saveQueues s c x
    | none => s
  setCru s1 p { cruOf s1 p with resident := none, switching := some (nxt, s.clock.half + n * fclkHalf), swCost := n }

/-- The physical crucibles of a casting, its two spares last. -/
def castingPhys (k : Nat) : List Nat := (List.range 64).map (fun i => 64 * k + i) ++ [256 + 2 * k, 256 + 2 * k + 1]
/-- The casting of a physical crucible. -/
def physCasting (p : Nat) : Nat := if p < 256 then p / 64 else (p - 256) / 2
/-- The logical crucible that a physical one carries. -/
def carriedBy (s : State) (p : Nat) : Option Nat :=
  ((List.range 64).map (fun i => 64 * physCasting p + i)).find? (fun c => physOf s c == p)
/-- Whether a physical crucible is a free spare (R244): it carries none, is not being moved to, and is neither under test
nor out of service. -/
def isFreeSpare (s : State) (p : Nat) : Bool :=
  (carriedBy s p).isNone && spGet s.integ.ftl p 0 != 3 && spGet s.integ.ftl p 0 != 5 &&
  (cruOf s p).testing.isNone && !s.tnd.moves.any (fun m => m.target == some p)
/-- A free spare of a crucible's casting: which of two is not stated (R244, log entry 44). -/
def freeSpare (s : State) (c : Nat) : Option Nat := pickAny s ((castingPhys (c / 64)).filter (isFreeSpare s))

/-- Begins a pending move of a crucible whose resident context is at a boundary, the incoming context with it
(R244). -/
def beginMove (s : State) (c : Nat) : State :=
  match s.tnd.moves.find? (fun m => m.logical == c && m.endAt.isNone), freeSpare s c with
  | some m, some t =>
    let nxt := choose s c
    let s0 := match nxt with
      | some y => if residentOn s c = nxt then s else cntAdd (cntAdd s TND_SWITCH_CNT_LO 1) (TND_CTX_SW_CNT_LO y) 1
      | none => s
    let s1 := if available s c then beginSwitch s0 c nxt 64 else s
    let endAt := s.clock.half + ((if available s c then nSw s c (residentOn s c) else 96) + 64) * fclkHalf
    (drawNat s1).2.withTnd { s1.tnd with
      moves := s1.tnd.moves.map (fun e => if e.logical = c ∧ e.endAt.isNone then
        { m with target := some t, endAt := some endAt } else e) }
  | _, _ => s

/-- Evaluates a crucible: a pending move first, then the choice of R242 (R239, R242, R244). -/
def arbitrate (s : State) (c : Nat) : State :=
  if s.mode != .ready then s else
  if !available s c then beginMove s c else
  if !canSwitch s c then s else
  if s.tnd.moves.any (fun m => m.logical == c && m.endAt.isNone) && (freeSpare s c).isSome then beginMove s c
  else
    let nxt := choose s c
    if nxt = residentOn s c then s else beginSwitch s c nxt 0

/-- ARBITRATION (R242): at a pre-emptible boundary, or with a new candidate. -/
def execArbitration (c : Nat) (s : State) : Host.Outcome State Fault Refusal := .next (arbitrate s c)

/-- QUANTUM_EXPIRY (R242): the resident context has reached QUANTUM, and an equal candidate displaces it at its
boundary. -/
def execQuantumExpiry (c : Nat) (s : State) : Host.Outcome State Fault Refusal :=
  if quantum s ≤ tickNow s - residentSince s c then .next (arbitrate s c) else .next s

/-- A STOPPING context that is resident nowhere is STOPPED (Table 6.1). -/
def settleStop (s : State) (x : Nat) : State :=
  if ctxState s x = 2 ∧ residentCrus s x = [] then setCtxState s x 3 else s

/-- REFCLK ticks, rounded down, that a count of FCLK cycles takes at the root point in force. -/
def fclkTicks (s : State) (n : Nat) : Nat := n * fclkHalf / (96 + s.clock.point)

/-- The late entries that the arrival of a slot's owner settles (R240). -/
def settleLate (s : State) (c x cost : Nat) : State :=
  match s.tnd.awaited.find? (fun e => e.2.1 == c && slotOwner s s.tnd.bank e.1 == x) with
  | none => s
  | some e =>
    let s1 := s.withTnd { s.tnd with awaited := s.tnd.awaited.filter (fun f => f != e) }
    match s.tnd.slots.find? (fun f => f.1 == e.1) with
    | none => s1
    | some (_, start, _) =>
      let due := start + fclkTicks s cost + 1
      if due < tickNow s then
        logCtx (cntAdd s1 TND_LATE_CNT_LO 1) 0x0242 (16 + c) x 0 [e.1, x, c, e.2.2, tickNow s - due]
      else s1

/-- CONTEXT_SWITCH_END (R243): after N_sw cycles the incoming context is resident. -/
def execContextSwitchEnd (c : Nat) (s : State) : Host.Outcome State Fault Refusal :=
  let p := physOf s c
  let cr := cruOf s p
  match cr.switching with
  | none => .next s
  | some (nxt, endAt) =>
    if s.clock.half < endAt ∨ s.tnd.moves.any (fun m => m.logical == c && m.endAt.isSome) then .next s else
    let s1 := setCru s p { cr with resident := nxt, switching := none, swCost := 0 }
    let s2 := cntAdd s1 TND_SWITCH_CNT_LO 1
    let s3 := s2.withTnd { s2.tnd with since := spPut s2.tnd.since c (tickNow s) 0 }
    let s4 := match nxt with
      | none => s3
      | some y =>
        let t := cntAdd s3 (TND_CTX_SW_CNT_LO y) 1
        settleLate (t.withTnd { t.tnd with waits := t.tnd.waits.filter (fun w => !(w.ctx == y && w.crucible == c)) }) c y cr.swCost
    .next ((List.range 16).foldl settleStop s4)

/-- MOVE_END (R244): TND_PHYS names the spare, the resident context resumes there, and the crucible left behind takes
its fettle test. -/
def execMoveEnd (c : Nat) (s : State) : Host.Outcome State Fault Refusal :=
  match s.tnd.moves.find? (fun m => m.logical == c && m.endAt.isSome) with
  | none => .next s
  | some m =>
    match m.target, m.endAt with
    | some t, some e =>
      if s.clock.half < e then .next s else
      let p := physOf s c
      let old := cruOf s p
      let nxt := match old.switching with
        | some (y, _) => y
        | none => none
      let s1 := { s with physMap := spPut s.physMap c t c }
      let s2 := setCru s1 t { cruOf s1 t with resident := nxt, switching := none, swCost := 0 }
      let s3 := if p < 264 then
          let u := setCru s2 p ⟨none, none, 0, some (tickNow s)⟩
          { u with integ := { u.integ with ftl := spPut u.integ.ftl p 3 0 } }
        else s2
      let s4 := s3.withTnd { s3.tnd with
        moves := s3.tnd.moves.filter (fun e => e.logical != c)
        since := spPut s3.tnd.since c (tickNow s) 0 }
      let s5 := forEach (List.range 128) s4 (fun st r =>
        let k := c * 128 + r
        setQ st k { qOf st k with crossed := true })
      let cost := if p < 264 then old.swCost else 160
      let s6 := match nxt with
        | none => s5
        | some y => settleLate (s5.withTnd { s5.tnd with
            waits := s5.tnd.waits.filter (fun w => !(w.ctx == y && w.crucible == c)) }) c y cost
      .next ((List.range 16).foldl settleStop
        (logUnit (cntAdd s6 TND_MOVE_CNT_LO 1) 0x0246 (16 + c) [c, p, t, cost]))
    | _, _ => .next s

/-- Orders a move to a spare (R244). It begins at the crucible's pre-emptible boundary, and stays pending until a spare
is free. -/
def orderMove (s : State) (c : Nat) (fettle : Bool) : State :=
  if s.tnd.moves.any (fun m => m.logical == c) then s else
  arbitrate (s.withTnd { s.tnd with moves := s.tnd.moves ++ [⟨c, none, none, fettle⟩] }) c

/-- TND_MOVE_REQ (R244): a write with GO. -/
def execTndMoveReq (src : Src) (c : Nat) (s : State) : Host.Outcome State Fault Refusal :=
  if !isReady s then .next (emit s (.unsupported src)) else
  let s1 := logAccepted (setReg s TND_MOVE_REQ (c % 256)) src 0 TND_MOVE_REQ (2 ^ 31 + c % 256)
  .next (orderMove s1 (c % 256) false)

/-- TND_CTX_STOP (R232): a RUNNABLE context becomes STOPPING, and STOPPED once it is resident nowhere. -/
def ctxStop (s : State) (src : Src) (x : Nat) (note : Bool := true) : State :=
  let o := TND_CTX_CTRL x
  let v := rd s o
  let s1 := if bit v 1 then s else logAccIf note (setReg s o (v + 2)) src o (v + 2)
  if ctxState s x = 1 then
    let s2 := setCtxState s1 x 2
    settleStop ((residentCrus s2 x).foldl arbitrate s2) x
  else s1

/-- TND_CTX_STOP (R232). -/
def execTndCtxStop (src : Src) (x : Nat) (s : State) : Host.Outcome State Fault Refusal :=
  if !isReady s then .next (emit s (.unsupported src)) else .next (ctxStop s src (x % 16))

/-- TND_CTX_UNSTOP (R232): a STOPPING or STOPPED context is RUNNABLE again. -/
def ctxUnstop (s : State) (src : Src) (x : Nat) (note : Bool := true) : State :=
  let o := TND_CTX_CTRL x
  let v := rd s o
  let s1 := if bit v 1 then logAccIf note (setReg s o (v - 2)) src o (v - 2) else s
  if ctxState s x = 2 ∨ ctxState s x = 3 then setCtxState s1 x 1 else s1

/-- TND_CTX_UNSTOP (R232). -/
def execTndCtxUnstop (src : Src) (x : Nat) (s : State) : Host.Outcome State Fault Refusal :=
  if !isReady s then .next (emit s (.unsupported src)) else .next (ctxUnstop s src (x % 16))

/-- The staged word w of a context's CSET (R235). -/
def stagedWord (s : State) (x w : Nat) : Nat := spGet s.tnd.staged (8 * x + w) (rd s (TND_CTX_CSET x w))

/-- The slot and the owner with which a new CSET would overlap in a parallel group of the active bank (R235). -/
def csetConflict (s : State) (x : Nat) : Option (Nat × Nat) :=
  let b := s.tnd.bank
  ((List.range (slotCount s b)).findSome? (fun i =>
    if slotExcl s b i && slotOwner s b i == x then
      ((List.range (slotCount s b)).find? (fun j => j != i && slotExcl s b j && slotOwner s b j != x &&
        groupHead s b j == groupHead s b i &&
        (List.range 8).any (fun w => stagedWord s x w &&& rd s (TND_CTX_CSET (slotOwner s b j) w) != 0))).map
        (fun j => (slotOwner s b j, j))
    else none))

/-- APPLY_CSET (R235): all 256 bits at once, or refused with event 0x0247. -/
def applyCset (s : State) (src : Src) (x : Nat) (note : Bool := true) : State :=
  let s0 := logAccIf note s src (TND_CTX_CTRL x) (rd s (TND_CTX_CTRL x) + 4)
  match csetConflict s x with
  | some (o, j) => logCtx s0 0x0247 x x 0 [x, o, j]
  | none =>
    let s1 := forEach (List.range 8) s0 (fun st w => setReg st (TND_CTX_CSET x w) (stagedWord s x w))
    (residentCrus s1 x).foldl arbitrate s1

/-- APPLY_CSET (R235). -/
def execApplyCset (src : Src) (x : Nat) (s : State) : Host.Outcome State Fault Refusal :=
  if !isReady s then .next (emit s (.unsupported src)) else .next (applyCset s src (x % 16))

/-- SLOT_GUARD_OPEN (R239): from GUARD before an exclusive slot to its start. -/
def execSlotGuardOpen (slot : Nat) (s : State) : Host.Outcome State Fault Refusal :=
  let b := s.tnd.bank
  let c := cycleLen s b * 1000
  let at_ := cycleStart s + slotOffset s b slot
  let start := if tickNow s < at_ then at_ else at_ + c
  if schedOn s && decide (slot < slotCount s b) && slotExcl s b slot &&
      decide (start ≤ tickNow s + slotGuard s b slot * 100) && !s.tnd.guards.any (fun g => g.1 == slot) then
    .next (s.withTnd { s.tnd with guards := s.tnd.guards ++ [(slot, start)] })
  else .next s

/-- A SEC-DED table error met on read (R366): one is corrected, two are not; event 0x0604 names the table and entry. -/
def tableError (s : State) (table entry errors : Nat) : State :=
  if errors = 0 then s else logUnit s 0x0604 0 [table, entry, if errors = 1 then 1 else 2]

/-- SLOT_START (R239): the owner's crucibles are reserved, and those at a boundary begin to switch to it. `ecc` is the
number of errors in the slot's entry: with two, the slot acts as open for the cycle (R366). -/
def execSlotStart (slot ecc : Nat) (s0 : State) : Host.Outcome State Fault Refusal :=
  let s := tableError s0 2 slot ecc
  if 2 ≤ ecc then .next (s.withTnd { s.tnd with guards := s.tnd.guards.filter (fun g => g.1 != slot) }) else
  let b := s.tnd.bank
  let start := cycleStart s + slotOffset s b slot
  let end_ := start + slotLen s b slot * 1000
  let o := slotOwner s b slot
  let s1 := s.withTnd { s.tnd with guards := s.tnd.guards.filter (fun g => g.1 != slot || decide (tickNow s < g.2)) }
  if schedOn s && decide (slot < slotCount s b) && slotExcl s b slot && decide (start ≤ tickNow s) &&
      decide (tickNow s < end_) && !s.tnd.slots.any (fun e => e.1 == slot && e.2.1 == start) then
    let mine := (List.range 256).filter (fun c => ctxState s o == 1 && inCset s o c && available s c)
    let s2 := s1.withTnd { s1.tnd with
      slots := s1.tnd.slots ++ [(slot, start, end_)]
      awaited := s1.tnd.awaited ++ ((mine.filter (fun c => residentOn s c != some o)).map (fun c =>
        (slot, c, (residentOn s c).getD 16))) }
    .next (mine.foldl arbitrate s2)
  else .next s1

/-- SLOT_END (R239): the slot's crucibles return to arbitration; an owner that never arrived is recorded late. -/
def execSlotEnd (slot : Nat) (s : State) : Host.Outcome State Fault Refusal :=
  match s.tnd.slots.find? (fun e => e.1 == slot && decide (e.2.2 ≤ tickNow s)) with
  | none => .next s
  | some e =>
    let o := slotOwner s s.tnd.bank slot
    let late := s.tnd.awaited.filter (fun f => f.1 == slot)
    let s1 := late.foldl (fun st f => logCtx (cntAdd st TND_LATE_CNT_LO 1) 0x0242 (16 + f.2.1) o 0
      [slot, o, f.2.1, (residentOn s f.2.1).getD 16, tickNow s - e.2.1]) s
    .next (s1.withTnd { s1.tnd with
      slots := s1.tnd.slots.filter (fun f => f != e)
      awaited := s1.tnd.awaited.filter (fun f => f.1 != slot) })

/-- TND_SCHED_SWAP (R241): the inactive bank is ordered active at the start of the next cycle. -/
def execTndSchedSwap (src : Src) (s : State) : Host.Outcome State Fault Refusal :=
  if !isReady s then .next (emit s (.unsupported src)) else
  let v := setBits (rd s TND_SCHED_CTRL) 1 1 1
  .next (logAccepted (setReg s TND_SCHED_CTRL v) src 0 TND_SCHED_CTRL v)

/-- SCHED_SWAP_APPLY (R241): at a cycle start the inactive bank is checked, and becomes active or is refused. With no
active table the order is taken at once. -/
def execSchedSwapApply (s : State) : Host.Outcome State Fault Refusal :=
  let v := rd s TND_SCHED_CTRL
  let c := cycleLen s s.tnd.bank * 1000
  let atStart := c == 0 || (tickNow s - rd64 s TND_CYC_ORIGIN_LO) % c == 0
  if !(bit v 1 && atStart) then .next s else
  let nb := 1 - s.tnd.bank
  match bankFails s nb with
  | some (n, i) =>
    let v1 := setBits (setBits v 1 1 0) 2 1 1
    .next (logUnit (setReg s TND_SCHED_CTRL v1) 0x0241 0 [nb, i, n])
  | none =>
    let s1 := setReg64 (setReg s TND_SCHED_CTRL (setBits v 1 1 0)) TND_CYC_ORIGIN_LO (tickNow s)
    .next (s1.withTnd { s1.tnd with bank := nb, slots := [], guards := [], awaited := [] })

/-- TND_SSEM_VAL_WRITE (R245): a write sets the value. -/
def ssemWrite (s : State) (src : Src) (sem v : Nat) : State :=
  let o := TND_SSEM_VAL sem
  let s1 := setReg s o v
  if rd s o = v then s1 else logAccepted s1 src 0 o v

/-- TND_SSEM_VAL_WRITE (R245). -/
def execTndSsemValWrite (src : Src) (sem : Nat) (v : Word) (s : State) : Host.Outcome State Fault Refusal :=
  if !isReady s then .next (emit s (.unsupported src)) else .next (ssemWrite s src (sem % 1024) v.toNat)

/-- The shared semaphores on which a context waits in vain (R247). -/
def waitedSems (s : State) (x : Nat) : List Nat :=
  (((List.range 2048).flatMap (fun r =>
    ((qOf s (qKey (r / 8) x (r % 8))).items.filter (fun i => i.op == 0x62 && i.phase == .issued)).map
      (fun i => bits (i.w 1) 0 10))) ++
  ((s.tnd.waits.filter (fun w => w.ctx == x)).map (fun w => w.sem))).filter (stillWaits s x)

/-- The holder to whom a wait on a semaphore may give its turn: valid, RUNNABLE, another context, resident nowhere. -/
def absentHolder (s : State) (x sem : Nat) : Option Nat :=
  let v := rd s (TND_SSEM_CTRL sem)
  let h := bits v 0 4
  if bit v 4 && h != x && ctxState s h == 1 && (residentCrus s h).isEmpty then some h else none

/-- Follows an inheritance along the holders that themselves wait, at most 15 contexts (R247). `via` waits on `m` for the
holder `h`. Answers the last such triple, or the cycle. -/
def giftChain (s : State) : Nat → List Nat → Nat → Nat → Nat → List Nat → Except (List Nat) (Nat × Nat × Nat)
  | 0, _, via, m, h, _ => .ok (via, m, h)
  | f + 1, seen, via, m, h, sems =>
    match (waitedSems s h).findSome? (fun n => (absentHolder s h n).map (fun g => (n, g))) with
    | none => .ok (via, m, h)
    | some (n, g) =>
      if seen.contains g then .error (seen ++ sems ++ [n]) else giftChain s f (seen ++ [g]) h n g (sems ++ [n])

/-- Whether an inheritance has done its part: the wait that its holder was to satisfy is over (R247). -/
def linkOver (s : State) (g : Inherit) : Bool := !stillWaits s g.via g.viaSem

/-- Whether an inheritance still leads to its holder. -/
def giftHolds (s : State) (g : Inherit) : Bool :=
  let v := rd s (TND_SSEM_CTRL g.viaSem)
  !linkOver s g && bit v 4 && bits v 0 4 == g.holder

/-- PRIORITY_INHERITANCE (R247): an unsatisfied wait gives its holder the next turn: by lending the lowest common
crucible, or by raising its priority to 8. Once the end of a chain has satisfied the wait for which it was given the turn,
the turn passes to the holder that waited, on the crucible that is lent. -/
def inherit_ (s : State) (x sem : Nat) : State :=
  let mine (g : Inherit) : Bool := g.sem == sem && g.waiter == x
  if s.tnd.gifts.any (fun g => mine g && giftHolds s g) then s else
  match absentHolder s x sem with
  | none => s
  | some h0 =>
    match giftChain s 15 [x, h0] x sem h0 [sem] with
    | .error cyc => logCtx s 0x0244 x x 0 cyc
    | .ok (via, m, h) =>
      let kept := s.tnd.gifts.filter (fun g => !mine g &&
        (stillWaits s g.waiter g.sem || g.lent.any (fun c => residentOn s c == some g.holder)))
      let out := ((s.tnd.gifts.filter mine).filterMap (fun g => g.lent)).find? (fun c => inCset s h c)
      let lent := out.or ((residentCrus s x).find? (fun c => inCset s h c))
      let s1 := s.withTnd { s.tnd with gifts := kept ++ [⟨sem, x, h, lent, via, m⟩] }
      let s2 := logCtx (cntAdd s1 TND_INHERIT_CNT_LO 1) 0x0243 x x 0
        [sem, x, h, if lent.isSome then 1 else 2, lent.getD 0]
      match lent with
      | some c => arbitrate s2 c
      | none => s2

/-- Whether another DEC wait on a shared semaphore remains unsatisfied at the value that one of them leaves (R390, kind 4):
a wait that went back to the ring is not evaluated, and the others follow in the order in which they began. -/
def otherSharedDec (s : State) (sem k idx v : Nat) : Bool :=
  s.tnd.waits.any (fun w => w.sem == sem && w.dec) ||
  someUnmet v ((s.queues.foldl (fun (l : Sparse Nat) e => e.2.items.foldl (fun (m : Sparse Nat) i =>
    if i.op == 0x62 && i.phase == .issued && bits (i.w 1) 0 10 == sem && bit (i.w 1) 12 && !(e.1 == k && i.index == idx)
    then spPut m (i.began * 2 ^ 15 + e.1) (i.w 2) (2 ^ 32) else m) l) []).map (·.2))

/-- Evaluates a shared wait (R245): satisfied at TARGET or above; DEC subtracts, and in lock mode the waiter becomes the
holder (R246). A raised priority for this wait ends (R247). -/
def evalShared (s : State) (k : Nat) (i : Item) : State :=
  let x := qCtx k
  let sem := bits (i.w 1) 0 10
  let v := rd s (TND_SSEM_VAL sem)
  if v < i.w 2 then inherit_ s x sem else
  let dec := bit (i.w 1) 12
  let s1 := if dec then setReg s (TND_SSEM_VAL sem) (v - i.w 2) else s
  let ctl := rd s1 (TND_SSEM_CTRL sem)
  let s2 := if dec && bit ctl 5 then setReg s1 (TND_SSEM_CTRL sem) (setBits (setBits ctl 0 4 x) 4 1 1) else s1
  let s3 := if dec && otherSharedDec s sem k i.index (v - i.w 2) then countChoice s2 4 x i.step x else s2
  let s4 := s3.withTnd { s3.tnd with gifts := s3.tnd.gifts.filter (fun g => !(g.sem == sem && g.waiter == x && g.lent.isNone)) }
  completeItem s4 k i 0 0

/-- SEM_WAIT_SHARED (R245): issues, and is evaluated at once; unsatisfied, it waits, and R247 applies. -/
def execSemWaitShared (c x q : Nat) (s : State) : Host.Outcome State Fault Refusal :=
  let k := qKey c x q
  match issuable s k 0x62 with
  | none => .next s
  | some i =>
    let n := s.tnd.order
    let i1 := { i with phase := .issued, phys := physOf s c, began := n }
    let s1 := setItem (s.withTnd { s.tnd with order := n + 1 }) k i.index (fun _ => i1)
    .next (evalShared s1 k i1)

/-- Whether an older satisfiable DEC wait on the semaphore comes first: by beginning, context, crucible, queue
(R245). -/
def earlierShared (s : State) (k : Nat) (i : Item) : Bool :=
  let sem := bits (i.w 1) 0 10
  s.queues.any (fun e => onCrucible s e.1 && e.2.items.any (fun j =>
    j.op == 0x62 && j.phase == .issued && bits (j.w 1) 0 10 == sem && bit (j.w 1) 12 &&
    decide (j.w 2 ≤ rd s (TND_SSEM_VAL sem)) &&
    (decide (j.began < i.began) || (decide (j.began = i.began) &&
      (decide (qCtx e.1 < qCtx k) || (qCtx e.1 == qCtx k && decide (e.1 < k)))))))

/-- SSEM_WAIT_SATISFIED (R245): the oldest satisfiable wait is evaluated. A wait of a context that is switched out makes
the context ready there, or, while it is unsatisfied, gives its holder the next turn (R247). -/
def execSsemWaitSatisfied (c x q : Nat) (s : State) : Host.Outcome State Fault Refusal :=
  let k := qKey c x q
  match (qOf s k).items.find? (fun i => i.op == 0x62 && i.phase == .issued) with
  | none => match s.tnd.waits.find? (fun w => w.ctx == x && w.crucible == c && w.queue == q) with
    | some w => .next (if stillWaits s x w.sem then inherit_ s x w.sem else arbitrate s c)
    | none => .next s
  | some i =>
    if !onCrucible s k || (bit (i.w 1) 12 && earlierShared s k i) then .next s else .next (evalShared s k i)

/-- LEND_RETURN (R247): once the waiter is satisfied and the holder is at a boundary, the crucible switches back. -/
def execLendReturn (c : Nat) (s : State) : Host.Outcome State Fault Refusal :=
  match s.tnd.gifts.find? (fun g => g.lent == some c && residentOn s c == some g.holder) with
  | none => .next s
  | some g =>
    if stillWaits s g.waiter g.sem || !canSwitch s c then .next s else
    let s1 := s.withTnd { s.tnd with gifts := s.tnd.gifts.filter (fun h => h != g) }
    .next (if ctxState s1 g.waiter = 1 then beginSwitch s1 c (some g.waiter) 0 else arbitrate s1 c)

/-- The queues that take part in a context's batch-table flips: enabled, on a crucible of its CSET, named by BT_QMASK
(R250). -/
def participants (s : State) (x : Nat) : List Nat :=
  ((List.range 256).filter (fun c => inCset s x c)).flatMap (fun c =>
    ((List.range 8).map (qKey c x)).filter (fun k => qEnabled s k && bit (rd s (TND_CTX_CTRL x)) (12 + qIdx k)))

/-- BT_EN of a context. -/
def btOn (s : State) (x : Nat) : Bool := bit (rd s (TND_CTX_CTRL x)) 20
/-- A context's batch-table state. -/
def batchOf (s : State) (x : Nat) : BatchState := spGet s.tnd.batch x BatchState.init
/-- The state with a context's batch-table state changed. -/
def setBatch (s : State) (x : Nat) (b : BatchState) : State :=
  s.withTnd { s.tnd with batch := spPut s.tnd.batch x b BatchState.init }
/-- The base of buffer b of a context. -/
def btBase (s : State) (x b : Nat) : Nat := if b = 0 then rd64 s (TND_CTX_BT_A_LO x) else rd64 s (TND_CTX_BT_B_LO x)

/-- Applies or refuses the pending flip of a context (R250): the header's GEN follows the one last applied, NSEQ is at
most MAXSEQ, and the header's zero bits are zero. -/
def applyFlip (s : State) (x : Nat) : State :=
  let bs := batchOf s x
  match bs.pending with
  | none => s
  | some b =>
    let a := btBase s x b
    let gen := devWord s a
    let w1 := devWord s (a + 4)
    let want := (rd s (TND_CTX_BT_GEN x) + 1) % 2 ^ 32
    if gen = want ∧ w1 < 2 ^ 16 ∧ w1 ≤ rd s (TND_CTX_BT_MAXSEQ x) then
      let seq := if bs.seq = 65535 then 1 else bs.seq + 1
      let s1 := devWords s hostAgent (rd64 s (TND_CTX_BT_ANCHOR_LO x))
        ([seq, bs.apply] ++ datum64 a ++ [gen, w1] ++ List.replicate 9 0 ++ [seq])
      let s2 := setReg (setReg s1 (TND_CTX_BT_GEN x) gen) (TND_CTX_BT_STEP x) bs.apply
      setBatch (cntAdd s2 TND_BTAPPLY_CNT_LO 1) x ⟨none, bs.apply, b, false, seq⟩
    else
      logCtx (setBatch (cntAdd s TND_BTREF_CNT_LO 1) x { bs with pending := none, refused := true }) 0x0245 x x bs.apply
        [x, b, gen, bits w1 0 16]

/-- TND_CTX_BT_FLIP (R250): the flip becomes pending and the apply step is set; counted as a choice where the participants
have not all issued the same highest step (R390). A flip with no participant, or without BT_EN, is applied at once
(R251). -/
def btFlip (s : State) (src : Src) (x b : Nat) : State :=
  let o := TND_CTX_BT_FLIP x
  let s0 := logAccepted (setReg s o b) src 0 o b
  let ps := participants s x
  let bs := batchOf s x
  if bs.pending.isSome then setBatch s0 x { bs with pending := some b } else
  let steps := ps.map (fun k => spGet s.tnd.issued k 0)
  let hi := steps.foldl max 0
  let s1 := setBatch s0 x { bs with pending := some b, apply := hi + 1 }
  if ps.isEmpty || !btOn s x then applyFlip s1 x
  else if steps.any (fun v => v != hi) then countChoice s1 1 x hi x else s1

/-- TND_CTX_BT_FLIP (R250). -/
def execTndCtxBtFlip (src : Src) (x b : Nat) (s : State) : Host.Outcome State Fault Refusal :=
  if !isReady s then .next (emit s (.unsupported src)) else .next (orWait s (btFlip s src (x % 16) (b % 2)))

/-- BT_FLIP_APPLY (R250): when every participant holds its STEP item. -/
def execBtFlipApply (x : Nat) (s : State) : Host.Outcome State Fault Refusal :=
  let ready := (participants s x).all (fun k => match nextItem s k with
    | some i => i.op == 2 && flipHolds s k i
    | none => false)
  if (batchOf s x).pending.isSome && ready then .next (orWait s (applyFlip s x)) else .next s

end Sys2Proof.Machine
end

