-- ==== Sys2Proof/Machine/Accept.lean ====
section
/-! DEFINITION. Acceptance and refusal of items (R99 to R101, R105, R121, R124, R132, R139, R140, R239, R365, R371,
R389, R405). -/
namespace Sys2Proof.Machine
open Reg

/-- Whether an item of Table 5.4 with this operation is accepted and incomplete anywhere. -/
def sweepOpOpen (s : State) (lop : Nat) : Bool :=
  s.queues.any (fun e => e.2.items.any (fun i => i.op == 0x40 && i.lop == lop))

/-- Whether the queue's next item may be accepted at all (R101, R139, R140, R371, R405). -/
def mayAccept (s : State) (k : Nat) : Bool :=
  let q := qOf s k
  let p := physOf s (qCru k)
  let cr := cruOf s p
  let x := qCtx k
  s.mode == .ready && qEnabled s k && !q.halted && q.walk.isNone && !q.resetPend && q.held.isEmpty &&
  decide (p < 264) && cr.resident == some x && cr.switching.isNone && cr.testing.isNone &&
  (ctxState s x == 1 || (ctxState s x == 2 && q.openCmd)) && !cutHolds s x && decide (0 < qAvail s k)

/-- Whether the next item begins a command, and whether it may then be taken: the previous command is complete, and no
open guard of another owner holds it (R101, R239). -/
def beginsCommand (q : QState) : Bool := !q.openCmd || q.bndIn

/-- The record of a refused item (R137, R140). -/
def refusalRecord (s : State) (k : Nat) (i : Item) (status detail : Nat) : Record :=
  itemRecord s { i with phys := physOf s (qCru k) } status detail

/-- Refuses an item: HEAD passes it, the queue is HALTED, the record and event 0x0201 are written (R140), the record of a
BND item once the earlier items of its command have theirs (R137); `len` is 0 where its length is unknown (R365). The
command of an item without BND is open until its discard ends, also where that item begins it (log entry 56). -/
def refuse (s : State) (k : Nat) (i : Item) (len status detail : Nat) : State :=
  let q := qOf s k
  let s1 := setReg s (qReg k 0x14) (qHead s k + len)
  let last := decide (0 < len) && hBnd i.head
  let r := refusalRecord s k i status detail
  let q1 := { q with halted := true, refBnd := last, poisonedHead := decide (len = 0), openCmd := q.openCmd || (!last && decide (0 < len)),
                     crossed := if beginsCommand q then false else q.crossed }
  let s3 := if last && !q.items.isEmpty then setQ s1 k { q1 with bndRec := some r } else putRecord (setQ s1 k q1) k r
  logCtx s3 0x0201 (16 + qCru k) (qCtx k) i.step [qCru k, qCtx k, qIdx k, i.index, i.op, detail % 256]

/-- Refuses an item whose words were lost (R365): DATA_ERROR of unit code 10, and taint. -/
def refuseLost (s : State) (k : Nat) (i : Item) (len : Nat) (parity : Bool) : State :=
  let s1 := refuse s k i len 4 10
  let s2 := if parity then parityFound s1 10 (physOf s (qCru k)) 0 i.index else s1
  taint s2 0 i.step i.index

/-- The state with a checked item in its queue (R99, R101, R105, R125). -/
def takeItem (s : State) (k : Nat) (i : Item) (first : Bool) : State :=
  let q := qOf s k
  let s1 := setReg s (qReg k 0x14) (qHead s k + hLen i.head)
  let s2 := if i.op = 2 then setReg s1 (qReg k 0x38) (i.w 1) else s1
  let late := i.op == 0x40 && i.lop == 9 && sweepOpOpen s 8
  let i1 := { i with first := first, found := if late then (0x29, 0) else (0, 0) }
  setQ s2 k { q with
    items := q.items ++ [i1]
    openCmd := true
    bndIn := hBnd i.head
    crossed := if first then false else q.crossed
    cmdStart := if first && !(hKeep i.head && q.cmdStart.isSome) then some (tickNow s) else q.cmdStart }

/-- Accepts the next item of a queue, whose words were read without loss, or refuses it (R101, R132, R140). -/
def checkItem (s : State) (k : Nat) (i : Item) (first : Bool) : State :=
  let x := qCtx k
  let c := qCru k
  let len := hLen i.head
  match lowest (gateReasons s x i first (first && (qOf s k).crossed)) with
  | some r => refuse s k i len 1 r
  | none =>
    if i.op = 0x40 then
      match ladleCheck s x c i with
      | some n => refuse s k i len 1 (12 + n * 256)
      | none => takeItem s k i first
    else if i.op = 0x50 then
      match alloyCheck s x c i with
      | some n => logCtx (refuse s k i len 1 (12 + n * 256)) 0x0406 (16 + c) x i.step
          [c, x, qIdx k, i.index, i.aop, n]
      | none => takeItem s k i first
    else takeItem s k i first

/-- Reads the words of an item, from ring index `idx`, each memory unit once: the state, the words, and the units lost. -/
def itemWords (s : State) (k idx len : Nat) : State × List Nat × Nat :=
  let g := itemAgent (qCtx k) (physOf s (qCru k))
  let n := min len (qSize s k - idx % qSize s k)
  let a := devRead s g (qWordAddr s k idx) (4 * n)
  let b := devRead a.1 g (qWordAddr s k (idx + n)) (4 * (len - n))
  (b.1, (chunksOf 4 len (a.2.1 ++ b.2.1)).map leNat, a.2.2 + b.2.2)

/-- The item of these words as the gate's buffer takes it: its index, and the seed and step that it uses (R37, R105). -/
def newItem (s : State) (k : Nat) (ws : List Nat) : Item :=
  ⟨ws.map (BitVec.ofNat 32), qHead s k, rd64 s (TND_CTX_SEED_LO (qCtx k)), rd s (qReg k 0x38), tickNow s, .accepted,
    physOf s (qCru k), 0, beginsCommand (qOf s k), [], none, false, (0, 0), 0⟩

/-- Whether acceptance of an operation waits: LDL and ALY for a cope/drag stop, ALY for a test of the adders (R389,
R371). -/
def acceptStopped (s : State) (op : Nat) : Bool :=
  let stop := s.integ.cope == 2 || s.integ.cope == 3
  (op == 0x40 && stop) || (op == 0x50 && (stop || s.integ.alyTest.isSome))

/-- ITEM_ACCEPT (R101): the gate accepts the next whole item of a queue, or refuses it. `itemParity` is a parity error
in the gate's item buffer (R365). -/
def execItemAccept (c x q : Nat) (itemParity : Bool) (s : State) : Host.Outcome State Fault Refusal :=
  let k := qKey c x q
  let first := beginsCommand (qOf s k)
  if !mayAccept s k || (first && !(qOf s k).items.isEmpty) then .next s else
  let head := devRead s (itemAgent x (physOf s c)) (qWordAddr s k (qHead s k)) 4
  let h := leNat head.2.1
  if head.2.2 ≠ 0 then .next (orWait s (refuseLost head.1 k (newItem s k [h]) 0 false))
  else if qAvail s k < hLen h then .next s
  else if first && guarded s x c && !hKeep h then .next s
  else if acceptStopped s (hOp h) then .next s
  else
    let r := itemWords s k (qHead s k) (hLen h)
    let i := newItem s k r.2.1
    if r.2.2 ≠ 0 then .next (orWait s (refuseLost r.1 k i (hLen h) false))
    else if itemParity then .next (orWait s (refuseLost r.1 k i (hLen h) true))
    else .next (orWait s (checkItem r.1 k i first))

end Sys2Proof.Machine
end

