-- ==== Sys2Proof/Machine/Elementary.lean ====
section
/-! DEFINITION. EXP, LOG and RSQRT (R127): any answer within the stated bound, the same for an operand on every crucible
and device. The bound is tested against a fixed-point value of 192 fraction bits. -/
namespace Sys2Proof.Machine

/-- One in the fixed point of this file. -/
def fixOne : Int := 2 ^ 192

/-- Adds the terms 2 p / (2k + 1) of a logarithm, where p goes from one power of z to the next but one. -/
def atanhGo (z2 : Int) : Nat → Nat → Int → Int → Int
  | 0, _, _, acc => acc
  | f + 1, k, p, acc => atanhGo z2 f (k + 1) (p * z2 / fixOne) (acc + 2 * p / (2 * (k : Int) + 1))

/-- ln ((1 + z) / (1 - z)), by `n` terms of its series. -/
def atanhSum (z : Int) (n : Nat) : Int := atanhGo (z * z / fixOne) n 0 z 0

/-- The natural logarithm of 2 in fixed point. -/
def fixLn2 : Int := atanhSum (fixOne / 3) 80

/-- Adds the terms of the exponential series from the n-th on. -/
def expGo (r : Int) : Nat → Nat → Int → Int → Int
  | 0, _, _, acc => acc
  | f + 1, n, t, acc =>
    let t1 := t * r / fixOne / (n : Int)
    expGo r f (n + 1) t1 (acc + t1)

/-- The exponential of a fixed-point number from 0 to 1. -/
def expSeries (r : Int) : Int := expGo r 60 1 fixOne fixOne

/-- A finite value in fixed point, bits below 2^-192 cut. -/
def toFix (neg : Bool) (m : Nat) (e : Int) : Int :=
  let mag : Int := if 0 ≤ e + 192 then (m : Int) * 2 ^ (e + 192).toNat else (m : Int) / 2 ^ (-(e + 192)).toNat
  if neg then -mag else mag

/-- e^a, near enough that its rounding and its distance from a candidate are settled. -/
def expNear (neg : Bool) (m : Nat) (e : Int) : Fp :=
  if dyLt 200 0 m e then (if neg then .fin false 1 (-400) else .fin false 1 400) else
  let x := toFix neg m e
  let k := x / fixLn2
  .fin false (expSeries (x - k * fixLn2)).toNat (k - 192)

/-- ln a for a positive value. -/
def logNear (m : Nat) (e : Int) : Fp :=
  let l := Nat.log2 m
  let y : Int := (m : Int) * 2 ^ 192 / 2 ^ l
  let z := (y - fixOne) * fixOne / (y + fixOne)
  fpOfInt (atanhSum z 80 + (e + l) * fixLn2) (-192)

/-- 1 / √a for a positive value. -/
def rsqrtNear (m : Nat) (e : Int) : Fp :=
  let odd := e % 2 ≠ 0
  let m1 := if odd then 2 * m else m
  let e1 := if odd then e - 1 else e
  .fin false (isqrt (2 ^ 400 / m1)) (-(e1 / 2) - 200)

/-- Whether a word is a finite number within `n` units in the last place of a value. -/
def withinUlp (n : Nat) (w : Word) (r : Fp) : Bool :=
  match r with
  | .fin _ m e =>
    let u := max (ratTop m 1 + e - 1) (-126) - 23
    fp32Finite w && !fpLt (.fin false n u) (fpAbs (fpAdd (fp32 w) (fpNeg r)))
  | _ => false

/-- The operation's answer where it is within `n` units of the value, otherwise the value rounded. A value beyond the
FP32 range is rounded. -/
def bounded (vop n : Nat) (a : Word) (r : Fp) : Word :=
  let ref := fpToFp32 r
  if fp32Finite ref && withinUlp n (Config.vecApprox vop a) r then Config.vecApprox vop a else ref

/-- The canonical NaN. -/
def canonNan : Word := 0x7FC00000#32
/-- An infinity. -/
def infWord (neg : Bool) : Word := if neg then 0xFF800000#32 else 0x7F800000#32

/-- EXP: e^a within 2 ulp (Table 3.9). -/
def vecExp (a : Word) : Word :=
  match fp32 a with
  | .nan => canonNan
  | .inf neg => if neg then 0#32 else infWord false
  | .fin neg m e => bounded 0x08 2 a (expNear neg m e)

/-- LOG: ln a within 2 ulp; NaN for a < 0; −∞ for ±0. -/
def vecLog (a : Word) : Word :=
  match fp32 a with
  | .nan => canonNan
  | .inf neg => if neg then canonNan else infWord false
  | .fin neg m e => if m = 0 then infWord true else if neg then canonNan else bounded 0x09 2 a (logNear m e)

/-- RSQRT: 1 / √a within 1 ulp; NaN for a < 0; +∞ for +0; −∞ for −0. -/
def vecRsqrt (a : Word) : Word :=
  match fp32 a with
  | .nan => canonNan
  | .inf neg => if neg then canonNan else 0#32
  | .fin neg m e => if m = 0 then infWord neg else if neg then canonNan else bounded 0x0B 1 a (rsqrtNear m e)

end Sys2Proof.Machine
end

