-- ==== Sys2Proof/Machine/Encode.lean ====
section
/-! DEFINITION. Streams of elements as the vector unit, the Ladle and the drains read and write them: decoding to FP32
with its slag, encoding under a numerics word, and the poison mark (R17, R22, R25 to R28, R54, R107, R126, R159, R364). -/
namespace Sys2Proof.Machine

/-- A byte of a stream; none is lost data (R184, R364). -/
abbrev OByte := Option Byte
/-- An FP32 element; none is fed by lost data. -/
abbrev OWord := Option Word

/-- The byte that is written: the poison mark for lost data (R17). -/
def markByte (b : OByte) : Byte := b.getD 0xFF#8

/-- The numbers of a run of bytes; none where one of them is lost. -/
def obNats (bs : List OByte) : Option (List Nat) := bs.foldr (fun b acc => match b, acc with
  | some v, some l => some (v.toNat :: l)
  | _, _ => none) (some [])

/-- A little-endian number of a run of bytes. -/
def obNum (bs : List OByte) : Option Nat := (obNats bs).map (fun l => l.foldr (fun b a => b + 256 * a) 0)

/-- A decoded stream: its elements, the invalid codes and the non-finite elements (R54). -/
structure Decoded where
  elems : List OWord
  inval : Nat
  nonfin : Nat
deriving DecidableEq, Repr

/-- A layout of a scalar format code. -/
def scalarFmt (fmt : Nat) : FpFormat :=
  match fmt with
  | 1 => fmtBf16
  | 2 => fmtE4m3
  | 3 => fmtE5m2
  | _ => fmtFp32
/-- Bytes of a scalar element. -/
def scalarWidth (fmt : Nat) : Nat := if fmt = 0 then 4 else if fmt = 1 then 2 else 1

/-- The elements that are not finite. -/
def countNonfin (l : List OWord) : Nat := l.countP (fun w => match w with
  | some v => !fp32Finite v
  | none => false)

/-- Bytes of one block's elements, scales apart. -/
def blockBytes (k : BlockKind) : Nat :=
  match k with
  | .t2 => 16
  | .mxfp8e4 | .mxfp8e5 => 32
  | _ => 16

/-- Decodes one block from its element bytes and, where it has a plane, its scale bytes. -/
def decodeOne (k : BlockKind) (plane : Bool) (es sc : List OByte) : List OWord × Nat :=
  let lost := List.replicate k.size (none : OWord)
  match k, obNats es with
  | .t2, some bs =>
    let r := t2Record bs
    if plane then
      match obNum sc with
      | some c => ((decodeBlock .t2 (c % 1024) r.1).1.map (fun x => some (fpToFp32 x)), r.2)
      | none => (lost, 0)
    else ((decodeBlock .t2 (t2Scale bs) r.1).1.map (fun x => some (fpToFp32 x)), r.2)
  | _, none => (lost, 0)
  | k, some bs =>
    match obNum sc with
    | none => (lost, 0)
    | some c =>
      let codes := if k.mx8 then bs else nibbles bs
      let r := decodeBlock k (if k.tenBit then c % 1024 else c) codes
      (r.1.map (fun x => some (fpToFp32 x)), r.2)

/-- Decodes a stream of `n` elements of a format code; `plane` tells that a T2 stream takes its scales from a plane. -/
def decodeStream (fmt n : Nat) (plane : Bool) (es sc : List OByte) : Decoded :=
  match blockOf fmt with
  | none =>
    let l := (chunksOf (scalarWidth fmt) n es).map (fun c => (obNum c).map (fun v =>
      if fmt = 0 then BitVec.ofNat 32 v else fpToFp32 (fpDecode (scalarFmt fmt) v)))
    ⟨l, 0, countNonfin l⟩
  | some k =>
    let m := n / k.size
    let w := scaleWidth fmt
    let per := if k == .t2 && plane then 13 else blockBytes k
    let parts := (List.range m).map (fun b =>
      decodeOne k plane ((es.drop (b * per)).take per) ((sc.drop (b * w)).take w))
    let l := parts.flatMap (·.1)
    ⟨l, (parts.map (·.2)).sum, countNonfin l⟩

/-- The conversion that a numerics word asks for (Table 3.3): rounding inputs, saturation, scale mode. -/
structure Numerics where
  ctx : RoundCtx
  sat : Bool
  scl : Nat
deriving DecidableEq, Repr

/-- The conversion of an item. -/
def Item.numerics (i : Item) : Numerics :=
  ⟨⟨bit (i.w 1) 24, i.seed, i.step, i.tensor⟩, !bit (i.w 1) 25, sclOf (i.w 1)⟩

/-- An encoded stream: element bytes, scale bytes, slag. -/
structure Encoded where
  elems : List OByte
  scales : List OByte
  slag : Slag
deriving DecidableEq, Repr

/-- The bytes of a number, none of them lost. -/
def someBytes (n v : Nat) : List OByte := (leBytes n v).map some

/-- Encodes one block. `idx` gives the linear index of a position; a lost element or supplied scale loses the block. -/
def encodeOne (k : BlockKind) (fmt : Nat) (nm : Numerics) (supplied : Option OWord) (idx : Nat → Nat)
    (xs : List OWord) : Encoded :=
  let lostScale := List.replicate (scaleWidth fmt) (none : OByte)
  let lost : Encoded := ⟨List.replicate (blockBytes k) none, lostScale, slagZero⟩
  if xs.any (fun x => x.isNone) || supplied == some none then lost else
  let sup := (supplied.getD none).map (fun w => if k.tenBit then w.toNat % 1024 else w.toNat % 256)
  let r := convBlock k ⟨sup, nm.scl == 1, nm.sat⟩ (fun j => roundAt nm.ctx (idx j)) (xs.map (fun x => fp32 (x.getD 0)))
  let es := match k with
    | .t2 => t2Pack r.2.1 r.1
    | .mxfp8e4 | .mxfp8e5 => r.2.1
    | _ => packNibbles r.2.1
  ⟨es.map (fun b => some (BitVec.ofNat 8 b)), someBytes (scaleWidth fmt) r.1, r.2.2⟩

/-- The exact conversions between MXFP4 and KF4 (R21, R159, Table 1.9): block `n` of a stream keeps its element codes
and its scale, where the scale has a code in the other format that is not above its cap. A NaN scale is carried, and
code 1000 is written as 0000 (R18). None where the block is decoded and converted again: other formats, a supplied
scale, or a scale rule of the item's own (log entry 22). -/
def recodeBlock (sf df scl : Nat) (es sc : List OByte) (n : Nat) : Option Encoded :=
  match obNats ((es.drop (16 * n)).take 16), obNum ((sc.drop (scaleWidth sf * n)).take (scaleWidth sf)) with
  | some bs, some c =>
    let code : Option Nat :=
      if sf = 6 ∧ df = 7 ∧ scl ≠ 2 then some (if c = 255 then nanScale true else 4 * c)
      else if sf = 7 ∧ df = 6 ∧ scl = 0 then
        (if c % 1024 / 4 = 255 then some (nanScale false)
         else if c % 4 = 0 ∧ c % 1024 / 4 ≤ BlockKind.mxfp4.cap then some (c % 1024 / 4) else none)
      else none
    code.map (fun v => ⟨(packNibbles ((nibbles bs).map (fun x => if x = 8 then 0 else x))).map
      (fun x => some (BitVec.ofNat 8 x)), someBytes (scaleWidth df) v, slagZero⟩)
  | _, _ => none

/-- Encodes a stream of FP32 elements into a format code. `supplied` gives the supplied scale of a block under SCL 2,
and `exact` the blocks that are converted without rounding. A NaN is written in its canonical form (R17). -/
def encodeWith (exact : Nat → Option Encoded) (fmt : Nat) (nm : Numerics) (supplied : Nat → OWord) (idx : Nat → Nat)
    (xs : List OWord) : Encoded :=
  match blockOf fmt with
  | none =>
    let conv (p : OWord × Nat) : List OByte × Slag := match p.1 with
      | none => (List.replicate (scalarWidth fmt) none, slagZero)
      | some w =>
        if fmt = 0 then (someBytes 4 (fpToFp32 (fp32 w)).toNat, slagNonfin (if fp32Finite w then 0 else 1))
        else
          let r := convScalar (scalarFmt fmt) nm.sat (roundAt nm.ctx (idx p.2)) (fp32 w)
          (someBytes (scalarWidth fmt) r.1, r.2)
    let parts := xs.zipIdx.map conv
    ⟨parts.flatMap (·.1), [], parts.foldl (fun a p => slagAdd a p.2) slagZero⟩
  | some k =>
    let blocks := (chunksOf k.size xs.length xs).zipIdx
    let parts := blocks.map (fun (b, n) =>
      match (exact n).filter (fun _ => b.all (·.isSome)) with
      | some e => e
      | none => encodeOne k fmt nm (if nm.scl = 2 then some (supplied n) else none) (fun j => idx (n * k.size + j)) b)
    ⟨parts.flatMap (·.elems), parts.flatMap (·.scales), parts.foldl (fun a p => slagAdd a p.slag) slagZero⟩

/-- Encodes a stream of FP32 elements that no exact conversion covers. -/
def encodeStream (fmt : Nat) (nm : Numerics) (supplied : Nat → OWord) (idx : Nat → Nat) (xs : List OWord) : Encoded :=
  encodeWith (fun _ => none) fmt nm supplied idx xs

/-- Elements with a run of lost ones, as a parity error feeds them (R364). -/
def loseElems (err : Option DataErr) (xs : List OWord) : List OWord :=
  match err with
  | none => xs
  | some e => xs.zipIdx.map (fun (x, j) => if e.first ≤ j ∧ j < e.first + e.count then none else x)

/-- VERIFY (R380). -/
def verifyOn (s : State) : Bool := bit (rd s Reg.CUP_INT_CTRL) 0

/-- A parity error as a unit can meet it: a unit code of the unit, and a verify mismatch in verify mode only (R364,
R380). -/
def errFor (s : State) (codes : List Nat) (err : Option DataErr) : Option DataErr :=
  err.filter (fun e => codes.contains e.code && (decide (e.code < 11) || verifyOn s))

/-- DETAIL of a DATA_ERROR: the unit code, and the line for codes 1 to 3 (R364). -/
def errDetail (e : DataErr) : Nat := e.code + (if e.code ≤ 3 then e.line * 256 else 0)

end Sys2Proof.Machine
end

