-- ==== Sys2Proof/Machine/Vector.lean ====
section
/-! DEFINITION. The vector unit (R126 to R128). -/
namespace Sys2Proof.Machine
open Reg

/-- Whether an item holds its unit: issued, or done and not yet completed. -/
def holdsUnit (i : Item) : Bool := i.phase != .accepted

/-- Whether the single slot of a unit of a logical crucible is free (Table 3.2). -/
def unitFree (s : State) (c op : Nat) : Bool :=
  (List.range 128).all (fun r => !((qOf s (c * 128 + r)).items.any (fun i => i.op == op && holdsUnit i)))

/-- The next item of a queue, where it is one of this VOP, may issue and finds the unit free. -/
def vecReady (s : State) (k vop : Nat) : Option Item :=
  (issuable s k 0x20).filter (fun i => (vecBody i).vop == vop && unitFree s (qCru k) 0x20)

/-- A stream that a VEC item reads from its crucible's scratchpad. -/
def vecStream (s : State) (k : Nat) (line n : Nat) : State × List OByte :=
  let p := physOf s (qCru k)
  let r := spadRead s p p (qCtx k) (128 * line) n
  (r.1, r.2.map some)

/-- The larger or smaller of two numbers, with −0 below +0; canonical NaN if either is NaN. -/
def fpMaxMin (isMax : Bool) (a b : Word) : Word :=
  let x := fp32 a
  let y := fp32 b
  if fpIsNan x || fpIsNan y then canonNan
  else
    let aLess := fpLt x y || (fpEq x y && a.getLsbD 31)
    if isMax then (if aLess then b else a) else (if aLess then a else b)

/-- |a|. -/
def absWord (a : Word) : Word := if fpIsNan (fp32 a) then canonNan else a &&& 0x7FFFFFFF#32

/-- The result of an elementwise operation (Table 3.9). -/
def vecOp (b : VecBody) (x y z : Word) : Word :=
  match b.vop with
  | 0x01 => fp32Add x y
  | 0x02 => fp32Mul x y
  | 0x03 => fp32Fma x y z
  | 0x04 => fp32Fma b.alpha x b.beta
  | 0x05 => fp32Fma b.alpha x (fp32Mul b.beta y)
  | 0x06 => fpMaxMin true x y
  | 0x07 => fpMaxMin false x y
  | 0x08 => vecExp x
  | 0x09 => vecLog x
  | 0x0A => fp32Div 0x3F800000#32 x
  | 0x0B => vecRsqrt x
  | _ => x

/-- Adjacent pairs added. -/
def addPairs : List Word → List Word
  | a :: b :: t => fp32Add a b :: addPairs t
  | l => l

/-- SUM and SUMSQ in the order of R128: 256 lanes, then a fixed pairwise tree. -/
def vsum (sq : Bool) (xs : List Word) : Word :=
  let lanes := (chunksOf 256 xs.length xs).foldl (fun (l : List Word) c =>
    l.zipIdx.map (fun (a, k) => match (c.drop k).head? with
      | some x => if sq then fp32Fma x x a else fp32Add a x
      | none => a)) (List.replicate 256 0#32)
  ((List.range 8).foldl (fun l _ => addPairs l) lanes).headD 0#32

/-- The result of a reduction. -/
def vecReduce (vop : Nat) (xs : List Word) : Word :=
  if vop = 0x12 then xs.foldl (fun a x => fpMaxMin true a (absWord x)) 0#32 else vsum (vop == 0x11) xs

/-- Runs a VEC item: reads its streams, forms the results, writes them and their scales, and marks the item done (R126,
R364, R380). -/
def runVec (s : State) (k : Nat) (i : Item) (err : Option DataErr) : State :=
  let b := vecBody i
  let nm := i.numerics
  let e := errFor s [1, 4, 12] err
  let p := physOf s (qCru k)
  let x := qCtx k
  let ra := vecStream s k b.aLine (elemBytes b.aFmt b.count)
  let re := if hasPlane b.aFmt then vecStream ra.1 k b.eLine (planeBytes b.aFmt b.count) else (ra.1, [])
  let rb := if vopReadsB b.vop then vecStream re.1 k b.bLine (4 * b.count) else (re.1, [])
  let rc := if b.vop = 3 then vecStream rb.1 k b.cLine (4 * b.count) else (rb.1, [])
  let supplied := usesF b.dFmt nm.scl && nm.scl == 2
  let rf := if supplied then vecStream rc.1 k b.fLine (planeBytes b.dFmt b.count) else (rc.1, [])
  let da := decodeStream b.aFmt b.count false ra.2 re.2
  let db := (decodeStream 0 b.count false rb.2 []).elems
  let dc := (decodeStream 0 b.count false rc.2 []).elems
  let res : List OWord :=
    if vopReduces b.vop then [some (vecReduce b.vop (da.elems.map (fun w => w.getD 0)))]
    else da.elems.zipIdx.map (fun (w, j) =>
      w.map (fun v => vecOp b v ((db.getD j none).getD 0) ((dc.getD j none).getD 0)))
  let res1 := if vopReduces b.vop && e.isSome then [none] else loseElems e res
  let w := scaleWidth b.dFmt
  let sup (n : Nat) : OWord := (obNum ((rf.2.drop (n * w)).take w)).map (BitVec.ofNat 32)
  let exact := if b.vop = 0x20 then recodeBlock b.aFmt b.dFmt nm.scl ra.2 re.2 else fun _ => none
  let out := encodeWith exact b.dFmt nm sup (fun j => (b.index0 + j) % 2 ^ 40) res1
  let s1 := spadWrite rf.1 p x (128 * b.dLine) (out.elems.map markByte)
  let s2 := if hasPlane b.dFmt && nm.scl != 2 then spadWrite s1 p x (128 * b.fLine) (out.scales.map markByte) else s1
  let slag := oweSlag (oweSlag i.slag b.aT da.nonfin 0 da.inval) i.tensor out.slag.nonfin out.slag.sat out.slag.inval
  let s3 := setItem (issueItem s2 k i.index) k i.index (fun j => { j with slag := slag, acted := true })
  match e with
  | none => itemDone s3 k i.index 0 0
  | some d => itemDone (parityFound s3 d.code p d.line i.index) k i.index 4 (errDetail d)

/-- Runs the next item of a queue where it has this VOP. -/
def vecCommand (s : State) (c x q vop : Nat) (err : Option DataErr) : State :=
  match vecReady s (qKey c x q) vop with
  | none => s
  | some i => runVec s (qKey c x q) i err

/-- ADD (R127): a + b. -/
def execAdd (c x q : Nat) (err : Option DataErr) (s : State) : Host.Outcome State Fault Refusal :=
  .next (vecCommand s c x q 0x01 err)
/-- MUL (R127): a × b. -/
def execMul (c x q : Nat) (err : Option DataErr) (s : State) : Host.Outcome State Fault Refusal :=
  .next (vecCommand s c x q 0x02 err)
/-- FMA (R127): a × b + c, one rounding. -/
def execFma (c x q : Nat) (err : Option DataErr) (s : State) : Host.Outcome State Fault Refusal :=
  .next (vecCommand s c x q 0x03 err)
/-- AXPB (R127): α × a + β, one rounding. -/
def execAxpb (c x q : Nat) (err : Option DataErr) (s : State) : Host.Outcome State Fault Refusal :=
  .next (vecCommand s c x q 0x04 err)
/-- AXPBY (R127): α × a + β × b, rounded twice. -/
def execAxpby (c x q : Nat) (err : Option DataErr) (s : State) : Host.Outcome State Fault Refusal :=
  .next (vecCommand s c x q 0x05 err)
/-- MAX (R127). -/
def execMax (c x q : Nat) (err : Option DataErr) (s : State) : Host.Outcome State Fault Refusal :=
  .next (vecCommand s c x q 0x06 err)
/-- MIN (R127). -/
def execMin (c x q : Nat) (err : Option DataErr) (s : State) : Host.Outcome State Fault Refusal :=
  .next (vecCommand s c x q 0x07 err)
/-- EXP (R127): e^a within 2 ulp. -/
def execExp (c x q : Nat) (err : Option DataErr) (s : State) : Host.Outcome State Fault Refusal :=
  .next (vecCommand s c x q 0x08 err)
/-- LOG (R127): ln a within 2 ulp. -/
def execLog (c x q : Nat) (err : Option DataErr) (s : State) : Host.Outcome State Fault Refusal :=
  .next (vecCommand s c x q 0x09 err)
/-- RECIP (R127): 1 / a, correctly rounded. -/
def execRecip (c x q : Nat) (err : Option DataErr) (s : State) : Host.Outcome State Fault Refusal :=
  .next (vecCommand s c x q 0x0A err)
/-- RSQRT (R127): 1 / √a within 1 ulp. -/
def execRsqrt (c x q : Nat) (err : Option DataErr) (s : State) : Host.Outcome State Fault Refusal :=
  .next (vecCommand s c x q 0x0B err)
/-- SUM (R128). -/
def execSum (c x q : Nat) (err : Option DataErr) (s : State) : Host.Outcome State Fault Refusal :=
  .next (vecCommand s c x q 0x10 err)
/-- SUMSQ (R128). -/
def execSumsq (c x q : Nat) (err : Option DataErr) (s : State) : Host.Outcome State Fault Refusal :=
  .next (vecCommand s c x q 0x11 err)
/-- AMAX (R127): largest |a|, exact. -/
def execAmax (c x q : Nat) (err : Option DataErr) (s : State) : Host.Outcome State Fault Refusal :=
  .next (vecCommand s c x q 0x12 err)
/-- CVT (R127): a, converted from A_FMT to D_FMT. -/
def execCvt (c x q : Nat) (err : Option DataErr) (s : State) : Host.Outcome State Fault Refusal :=
  .next (vecCommand s c x q 0x20 err)

end Sys2Proof.Machine
end

