-- ==== Sys2Proof/Machine/Array.lean ====
section
/-! DEFINITION. The matrix arrays: the MMA command, plane fills, runners, passes, the accumulate stage and the drain
(R43 to R48, R55 to R83, R90, R110, R111, R364, R380, R388, R389). -/
namespace Sys2Proof.Machine
open Reg

/-- The key of an array. -/
def arrKey (p a : Nat) : Nat := p % 264 * 8 + a % 8
/-- An array's state. -/
def arrOf (s : State) (p a : Nat) : ArrayState := spGet s.arrays (arrKey p a) ArrayState.init
/-- The state with an array changed. -/
def setArr (s : State) (p a : Nat) (r : ArrayState) : State :=
  { s with arrays := spPut s.arrays (arrKey p a) r ArrayState.init }

/-- MMA at issue (R110): the named array takes the command; in verify mode the other array of its pair too, and both must
be free (R380). -/
def execMma (c x q : Nat) (s : State) : Host.Outcome State Fault Refusal :=
  let k := qKey c x q
  match issuable s k 0x10 with
  | none => .next s
  | some i =>
    let p := physOf s c
    let a := (mmaBody i).array
    let pair := verifyOn s
    if (arrOf s p a).cmd.isSome || (pair && (arrOf s p (a ^^^ 4)).cmd.isSome) then .next s else
    let fresh := { ArrayState.init with cmd := some (k, i.index), banks := [[], []] }
    let s1 := setArr (issueItem s k i.index) p a fresh
    .next (if pair then setArr s1 p (a ^^^ 4) fresh else s1)

/-- The item in an array, where the array is the one it names: the queue, the item, its body. -/
def arrItem (s : State) (p a : Nat) : Option (Nat × Item × MmaBody) :=
  match (arrOf s p a).cmd with
  | none => none
  | some (k, idx) => match findItem s k idx with
    | none => none
    | some i => if (mmaBody i).array = a % 8 ∧ i.phase = .issued then some (k, i, mmaBody i) else none

/-- A byte of an image or a stream as a number. -/
def imgByte (l : List Byte) (n : Nat) : Nat := (l.getD n 0).toNat
/-- A little-endian number of `w` bytes of an image or a stream. -/
def imgNum (l : List Byte) (n w : Nat) : Nat := leNat ((l.drop n).take w)

/-- The stationary scale code of column n, lane q; none without scales (R61). -/
def statScale (b : MmaBody) (img : List Byte) (n q : Nat) : Option Nat :=
  if b.statF = 9 then some (imgNum img (n * 64 + 16 * (q / 2) + 13) 2 % 1024)
  else if hasPlane b.statF then
    let w := scaleWidth b.statF
    let v := imgNum img (imageElems b.pair + (n * pairLanes b.pair + q) * w) w
    some (if w = 2 then v % 1024 else v)
  else none

/-- The stationary element code of column n, lane q, channel i of the group (R61). -/
def statCode (b : MmaBody) (img : List Byte) (n q i : Nat) : Nat :=
  match b.pair with
  | 1 | 2 => imgByte img (n * 32 + i)
  | 6 => imgNum img (n * 64 + 2 * i) 2
  | 5 =>
    let base := n * 64 + 16 * (q / 2)
    (t2Record ((List.range 16).map (fun j => imgByte img (base + j)))).1.getD (32 * (q % 2) + i) 1
  | _ => let v := imgByte img (n * 64 + 16 * q + i / 2)
    if i % 2 = 0 then v % 16 else v / 16

/-- The value of an element code in an operand format, scales apart. -/
def operandValue (fmt code : Nat) : Fp :=
  match blockOf fmt with
  | some k => (elemValue k code).1
  | none => fpDecode (scalarFmt fmt) code

/-- The factor of a scale code: 1 without a scale, none for the NaN scale (R20, R43). -/
def scaleFactor (fmt : Nat) (code : Option Nat) : Option (Nat × Int) :=
  match code with
  | none => some (1, 0)
  | some c => scaleValue (scaleWidth fmt == 2) c

/-- The map word of a lane (R72). -/
def mapWord (b : MmaBody) (img : List Byte) (q : Nat) : Nat :=
  if b.riser then imgNum img (imageElems b.pair + imageScales b.statF b.pair + 4 * q) 4 else 0
/-- A stationary riser word (R61). -/
def statRiser (b : MmaBody) (img : List Byte) (n q k : Nat) : Nat :=
  let l := pairLanes b.pair
  imgNum img (imageElems b.pair + imageScales b.statF b.pair + 4 * l + ((n * l + q) * 2 + k) * 4) 4
/-- The channels that a map word names, ascending. -/
def mapChannels (w : Nat) : List Nat := (List.range 32).filter (fun c => bit w c)
/-- VALID of a riser word (Table 1.11). -/
def riserValid (w : Nat) : Bool := bit w 23
/-- CHANNEL of a riser word. -/
def riserChannel (w : Nat) : Nat := bits w 18 5
/-- Whether a riser word agrees with the channel of its slot; none is the empty slot (R73, R76). -/
def riserAgrees (slot : Option Nat) (w : Nat) : Bool :=
  match slot with
  | some ch => riserValid w && riserChannel w == ch
  | none => !riserValid w
/-- The value of a riser word: VALUE times SCALE (R47). -/
def riserValue (w : Nat) : Fp := scaleFp (fpDecode fmtE4m3 (bits w 0 8)) (scaleValue true (bits w 8 10))

/-- The first map word or stationary riser word that R72 or R73 refuses: its group and the word. -/
def riserFault (b : MmaBody) (img : List Byte) : Option (Nat × Nat) :=
  if !b.riser then none else
  let l := pairLanes b.pair
  match (List.range l).find? (fun q => decide (2 < (mapChannels (mapWord b img q)).length)) with
  | some q => some (q, mapWord b img q)
  | none =>
    ((List.range (32 * l * 2)).find? (fun j =>
      let q := j / 2 % l
      !riserAgrees (mapChannels (mapWord b img q))[j % 2]? (statRiser b img (j / 2 / l) q (j % 2)))).map
    (fun j => (j / 2 % l, statRiser b img (j / 2 / l) (j / 2 % l) (j % 2)))

/-- The non-finite elements and invalid codes of one group of 32 element codes (R24, R63). -/
def groupSlag (fmt : Nat) (scale : Option (Nat × Int)) (codes : List Nat) : Nat × Nat :=
  let inval := if fmt = 8 then codes.countP (fun c => c == 8) else 0
  match scale with
  | none => (codes.length, inval)
  | some _ => (codes.countP (fun c => !fpFinite (operandValue fmt c)), inval)

/-- The slag of a plane image: non-finite elements and invalid codes (R63). -/
def planeSlag (b : MmaBody) (img : List Byte) : Nat × Nat :=
  let l := pairLanes b.pair
  let g := (List.range (32 * l)).map (fun j =>
    groupSlag b.statF (scaleFactor b.statF (statScale b img (j / l) (j % l)))
      ((List.range 32).map (statCode b img (j / l) (j % l))))
  let t2 := if b.pair = 5 then ((List.range 128).map (fun r =>
    (t2Record ((List.range 16).map (fun j => imgByte img (16 * r + j)))).2)).sum else 0
  ((g.map (·.1)).sum, (g.map (·.2)).sum + t2)

/-- Adds slag to an item. -/
def addSlag (s : State) (k idx t nonfin sat inval : Nat) : State :=
  setItem s k idx (fun i => { i with slag := oweSlag i.slag t nonfin sat inval })

/-- Frees the arrays of a command and marks its item done. -/
def endMma (s : State) (p a k idx status detail : Nat) : State :=
  let other := (arrOf s p (a ^^^ 4)).cmd == some (k, idx)
  let s1 := setArr s p a ArrayState.init
  itemDone (if other then setArr s1 p (a ^^^ 4) ArrayState.init else s1) k idx status detail

/-- Ends a command whose tiles have all drained, or been refused (R74, R83, R364). -/
def settleMma (s : State) (p a : Nat) : State :=
  let r := arrOf s p a
  match arrItem s p a with
  | none => s
  | some (k, i, b) =>
    if !r.drains.isEmpty then s else
    match r.refused with
    | some d => endMma s p a k i.index 2 d
    | none =>
      if r.tile < b.tiles then s else
      match r.failed with
      | some e => endMma s p a k i.index 4 (errDetail e)
      | none => endMma s p a k i.index 0 0

/-- PLANE_FILL (R63, R64, R72 to R74): the fill port stages the next pass's plane image, counts its slag, and refuses the
tile on a bad riser word. `err` is a parity error of codes 1 or 2. -/
def execPlaneFill (p a : Nat) (err : Option DataErr) (s : State) : Host.Outcome State Fault Refusal :=
  let r := arrOf s p a
  match arrItem s p a with
  | none => .next s
  | some (k, i, b) =>
    if r.shadow.isSome || r.refused.isSome || b.tiles ≤ r.tile then .next s else
    let n := imageBytes b.statF b.pair b.riser
    let rr := spadRead s (p % 264) (p % 264) (qCtx k) (128 * b.plane r.tile r.pass) n
    let slag := planeSlag b rr.2
    let s1 := addSlag rr.1 k i.index b.statT slag.1 0 slag.2
    let e := errFor s1 [1, 2] err
    let s2 := match e with
      | some d => parityFound s1 d.code (p % 264) d.line i.index
      | none => s1
    match riserFault b rr.2 with
    | some (g, w) =>
      let s3 := logCtx s2 0x0231 (16 + qCru k) (qCtx k) i.step [p % 264, a % 8, r.pass, g, w]
      .next (settleMma (setArr s3 p a { r with refused := some (r.pass + 65536 * g) }) p a)
    | none =>
      .next (setArr s2 p a { r with shadow := some rr.2, lost := r.lost.or e, failed := r.failed.or e })

/-- The entries of a refill unit of a runner (R68). -/
def refillUnit (b : MmaBody) (n : Nat) : Nat := min 32 (128 / max 1 (b.entry n))

/-- RUNNER_REFILL_REQUEST (R68): a runner requests a refill unit when its free space, counting outstanding requests,
allows, with at most two outstanding. -/
def execRunnerRefillRequest (p a n : Nat) (s : State) : Host.Outcome State Fault Refusal :=
  let r := arrOf s p a
  match arrItem s p a with
  | none => .next s
  | some (_, _, b) =>
    let u := refillUnit b n
    let w := spGet r.runners n ⟨0, [], 0⟩
    if b.runners.contains n && decide (w.pendings.length < 2) && decide (w.held + (w.pendings.length + 1) * u ≤ 64) &&
        decide (w.asked < b.m) then
      let w1 : Runner := { w with asked := w.asked + u, pendings := w.pendings ++ [tickNow s] }
      .next (setArr s p a { r with runners := spPut r.runners n w1 ⟨0, [], 0⟩ })
    else .next s

/-- RUNNER_REFILL_RETURN (R67, R68): the oldest outstanding request returns, and the runner holds its entries. -/
def execRunnerRefillReturn (p a n : Nat) (s : State) : Host.Outcome State Fault Refusal :=
  let r := arrOf s p a
  match arrItem s p a with
  | none => .next s
  | some (_, _, b) =>
    let w := spGet r.runners n ⟨0, [], 0⟩
    match w.pendings with
    | [] => .next s
    | _ :: t =>
      let w1 : Runner := { w with pendings := t, held := min 64 (w.held + refillUnit b n) }
      .next (setArr s p a { r with runners := spPut r.runners n w1 ⟨0, [], 0⟩ })

/-- Whether every runner in use holds a refill unit, or its whole stream where that is shorter (R70). -/
def runnersReady (b : MmaBody) (r : ArrayState) : Bool :=
  b.runners.all (fun n => decide (min b.m (refillUnit b n) ≤ (spGet r.runners n ⟨0, [], 0⟩).held))

/-- The streams of a pass: the bytes of each runner by its number. -/
abbrev Streams := List (Nat × List Byte)
/-- A runner's bytes. -/
def streamOf (l : Streams) (n : Nat) : List Byte := ((l.find? (fun e => e.1 == n)).map (·.2)).getD []

/-- Reads the streams of a pass from the scratchpad. -/
def readStreams (s : State) (p x : Nat) (b : MmaBody) (t ps : Nat) : State × Streams :=
  b.runners.foldl (fun (st : State × Streams) n =>
    let r := spadRead st.1 p p x (128 * b.stream t ps n) (b.m * b.entry n)
    (r.1, st.2 ++ [(n, r.2)])) (s, [])

/-- The streaming element code of vector m, row i, lane q (R62). -/
def strmCode (b : MmaBody) (l : Streams) (m i q : Nat) : Nat :=
  let st := streamOf l i
  match b.pair with
  | 1 | 2 => imgByte st m
  | 6 => imgNum st (2 * m) 2
  | _ => imgNum st (m * mainEntry b.pair) (mainEntry b.pair) / 16 ^ q % 16
/-- The streaming scale code of vector m, lane q. -/
def strmScale (b : MmaBody) (l : Streams) (m q : Nat) : Option Nat :=
  if hasPlane b.strmF then
    let w := scaleWidth b.strmF
    let v := imgNum (streamOf l 34) (m * scaleEntry b.strmF b.pair + q * w) w
    some (if w = 2 then v % 1024 else v)
  else none
/-- The streaming riser word of vector m, slot k, lane q. -/
def strmRiser (b : MmaBody) (l : Streams) (m k q : Nat) : Nat :=
  imgNum (streamOf l (32 + k)) (m * 4 * pairLanes b.pair + 4 * q) 4

/-- A fixed-point term: an exact zero carries no sign and is +0 (R45). -/
def plainZero (x : Fp) : Fp := match x with
  | .fin _ m e => if m = 0 then .fin false 0 0 else .fin (match x with
    | .fin n _ _ => n
    | _ => false) m e
  | y => y

/-- The exact group term G of lane q (R44, R77); channels named in the map count as zero (R75). -/
def groupTerm (b : MmaBody) (img : List Byte) (l : Streams) (m n q : Nat) : Fp :=
  let out := mapChannels (mapWord b img q)
  let sum := (List.range 32).foldl (fun acc i =>
    if out.contains i then acc else
    fpAdd acc (fpMul (operandValue b.statF (statCode b img n q i)) (operandValue b.strmF (strmCode b l m i q))))
    (.fin false 0 0)
  plainZero (scaleFp (scaleFp (plainZero sum) (scaleFactor b.statF (statScale b img n q)))
    (scaleFactor b.strmF (strmScale b l m q)))

/-- The riser terms of lane q, for the occupied slots: NaN at a mismatch (R75, R76). -/
def riserTerms (b : MmaBody) (img : List Byte) (l : Streams) (m n q : Nat) : List Fp :=
  if !b.riser then [] else
  let chans := mapChannels (mapWord b img q)
  (List.range 2).filterMap (fun k =>
    let w := strmRiser b l m k q
    if !riserAgrees chans[k]? w then some .nan
    else if k < chans.length then some (plainZero (fpMul (riserValue (statRiser b img n q k)) (riserValue w)))
    else none)

/-- The accumulate stage (R45, R46, R77, R79): one output's value after a pass. -/
def accumulate (b : MmaBody) (img : List Byte) (l : Streams) (m n : Nat) (acc : Word) : Word :=
  if b.pair = 6 then
    (List.range 32).foldl (fun a i =>
      fpToFp32 (fpAdd (fp32 a) (fpMul (operandValue 1 (statCode b img n 0 i)) (operandValue 1 (strmCode b l m i 0))))) acc
  else
    (List.range (pairLanes b.pair)).foldl (fun a q =>
      (groupTerm b img l m n q :: riserTerms b img l m n q).foldl (fun v t => fpToFp32 (fpAdd (fp32 v) t)) a) acc

/-- The streaming riser words that disagree with the map: vector, lane, slot, word (R76). -/
def riserMismatches (b : MmaBody) (img : List Byte) (l : Streams) : List (Nat × Nat × Nat × Nat) :=
  if !b.riser then [] else
  let n := pairLanes b.pair
  ((List.range (b.m * n * 2)).map (fun j => (j / (2 * n), j / 2 % n, j % 2, strmRiser b l (j / (2 * n)) (j % 2) (j / 2 % n)))).filter
    (fun e => !riserAgrees (mapChannels (mapWord b img e.2.1))[e.2.2.1]? e.2.2.2)

/-- The slag of the streams of a pass (R63). -/
def streamSlag (b : MmaBody) (l : Streams) : Nat × Nat :=
  let n := pairLanes b.pair
  let g := (List.range (b.m * n)).map (fun j =>
    groupSlag b.strmF (scaleFactor b.strmF (strmScale b l (j / n) (j % n)))
      ((List.range 32).map (fun i => strmCode b l (j / n) i (j % n))))
  ((g.map (·.1)).sum, (g.map (·.2)).sum)

/-- The bank of a tile before its first pass: +0, or loaded from the scratchpad (R80). -/
def bankStart (s : State) (p x : Nat) (b : MmaBody) (t : Nat) : State × List Word :=
  if b.accInit then
    let r := spadRead s p p x (128 * (b.accLine + t * b.accT)) (128 * b.m)
    (r.1, (List.range (b.m * 32)).map (fun j => BitVec.ofNat 32 (imgNum r.2 (4 * j) 4)))
  else (s, List.replicate (b.m * 32) 0#32)

/-- A list with its n-th element replaced. -/
def putAt (l : List α) (n : Nat) (v : α) : List α := l.zipIdx.map (fun e => if e.2 = n then v else e.1)

/-- PASS_START (R65, R66, R69, R70, R76 to R80, R82): the next pass runs, from the swap to the last accumulation.
`stalls` are its freezes, as pairs of runner and cycles; `waits` its cycles of waiting beyond R66; `err` a parity error
of codes 1, 2 or 3. -/
def execPassStart (p a : Nat) (stalls : List (Nat × Nat)) (waits : Nat) (err : Option DataErr) (s : State) :
    Host.Outcome State Fault Refusal :=
  let r := arrOf s p a
  let pp := p % 264
  match arrItem s p a, r.shadow with
  | some (k, i, b), some img =>
    -- the bank of the next tile but one still drains, or the runners are short at the start of the command
    if (r.pass = 0 ∧ 2 ≤ r.drains.length) ∨ (!r.started ∧ !runnersReady b r) then .next s else
    let x := qCtx k
    let st := readStreams s pp x b r.tile r.pass
    let init := if r.pass = 0 then bankStart st.1 pp x b r.tile else (st.1, r.banks.getD r.bank [])
    let out := init.2.zipIdx.map (fun (v, j) => accumulate b img st.2 (j / 32) (j % 32) v)
    let slag := streamSlag b st.2
    let s1 := addSlag init.1 k i.index b.strmT slag.1 0 slag.2
    let mm := riserMismatches b img st.2
    let s2 := mm.foldl (fun t e =>
      logCtx t 0x0232 (16 + qCru k) x i.step [pp, a % 8, e.1, e.2.1, e.2.2.1, e.2.2.2])
      (cntAdd s1 (arrCnt pp (a % 8) 4) mm.length)
    let frozen := (stalls.map (·.2)).sum
    let busy := if b.pair = 6 then 4 * b.m else b.m
    let least := if b.pair = 6 then max (4 * b.m) 140 else max b.m 32
    let s3 := cntAdd (cntAdd (cntAdd s2 (arrCnt pp (a % 8) 0) busy) (arrCnt pp (a % 8) 1) (least - busy + waits))
      (arrCnt pp (a % 8) 2) frozen
    let s4 := match stalls.getLast? with
      | some (n, _) => setReg s3 (arrCnt pp (a % 8) 0 - 4) (n % 64)
      | none => s3
    let e := errFor s4 [1, 2, 3] err
    let s5 := match e with
      | some d => parityFound s4 d.code pp (if d.code = 3 then b.outLine + r.tile * b.outT else d.line) i.index
      | none => s4
    let e1 := e.map (fun d => if d.code = 3 then { d with line := b.outLine + r.tile * b.outT } else d)
    let lost := r.lost.or e1
    let r1 := { r with started := true, shadow := none, runners := [], banks := putAt r.banks r.bank out,
                       frozen := false, failed := r.failed.or e1 }
    if r.pass + 1 < b.passes then .next (setArr s5 p a { r1 with pass := r.pass + 1, lost := lost })
    else .next (setArr s5 p a { r1 with
      pass := 0, tile := r.tile + 1, bank := 1 - r.bank, lost := none, drains := r.drains ++ [(r.tile, lost)] })
  | _, _ => .next s

/-- The digest of a drained tile (R388). -/
def tileDigest (key : Nat) (out : List Nat) : Nat :=
  (out.zipIdx.foldl (fun (d : BitVec 64) (e : Nat × Nat) =>
    d + srMix (srMix (BitVec.ofNat 64 (key + e.2)) ^^^ BitVec.ofNat 64 e.1)) 0#64).toNat

/-- The key of a tile's digest (Table 10.7). -/
def tileKey (k idx tile : Nat) : Nat :=
  idx + 2 ^ 32 * (tile % 2048 + qIdx k * 2 ^ 11 + qCru k * 2 ^ 14 + qCtx k * 2 ^ 22)

/-- The state with the integrity unit changed. -/
def State.withInteg (s : State) (i : Integ) : State := { s with integ := i }

/-- Matches own and partner's digests of a key (R389): equal digests count a matched tile; unequal ones stop both sides,
the first divergence only. -/
def matchDigest (s : State) (key : Nat) : State :=
  let g := s.integ
  match g.mine.find? (fun e => e.1 == key), g.theirs.find? (fun e => e.1 == key) with
  | some m, some t =>
    let s1 := s.withInteg { g with mine := g.mine.filter (fun e => e.1 != key), theirs := g.theirs.filter (fun e => e.1 != key) }
    if m.2.1 = t.2.1 then cntAdd s1 CUP_COPE_TILE_CNT_LO 1
    else if g.cope = 1 then
      let s2 := setReg64 (setReg64 (setReg64 s1 CUP_COPE_KEY_LO key) CUP_COPE_OWN_LO m.2.1) CUP_COPE_PART_LO t.2.1
      logUnit (s2.withInteg { s2.integ with cope := 2 }) 0x0630 0 (datum64 key ++ datum64 m.2.1 ++ datum64 t.2.1)
    else s1
  | _, _ => s

/-- Forms the digest record of a drained tile in cope/drag mode and sends it (R388, R389). -/
def copeTile (s : State) (key digest : Nat) : State :=
  if s.integ.cope = 0 ∨ s.integ.cope = 4 then s else
  let dim := bits (rd s CUP_COPE_CTRL) 4 5
  let h := ((linksOf s dim).find? (fun h => linkState s h == 2 || linkState s h == 4)).getD noLink
  let s1 := emit s (.link h "DIGEST" (datum64 key ++ datum64 digest))
  matchDigest (s1.withInteg { s1.integ with mine := s1.integ.mine ++ [(key, digest, tickNow s)] }) key

/-- TILE_DRAIN (R81 to R83, R111, R388): the oldest waiting tile is converted and written, its slag counted; a tile that
met lost data is written as 0xFF. `err` is a parity error of code 3, or a verify mismatch (code 11). -/
def execTileDrain (p a : Nat) (err : Option DataErr) (s : State) : Host.Outcome State Fault Refusal :=
  let r := arrOf s p a
  let pp := p % 264
  match arrItem s p a, r.drains with
  | some (k, i, b), (t, lost) :: rest =>
    let bank := t % 2
    let e := (errFor s [3, 11] err).map (fun d => if d.code = 3 then { d with line := b.outLine + t * b.outT } else d)
    let s0 := match e with
      | some d => parityFound s d.code pp d.line i.index
      | none => s
    let bad := (lost.or e).isSome
    let vals := (r.banks.getD bank []).take (b.m * 32)
    let nm := { i.numerics with scl := 0 }
    let enc := encodeStream b.outFmt nm (fun _ => none) (fun j => b.index t (j / 32) (j % 32))
      (vals.map (fun v => if bad then none else some v))
    let bytes := enc.elems.map markByte
    let w := b.outWidth
    let s1 := (List.range b.m).foldl (fun st m =>
      spadWrite st pp (qCtx k) (b.outByte t m 0) ((bytes.drop (m * 32 * w)).take (32 * w))) s0
    let s2 := addSlag s1 k i.index i.tensor enc.slag.nonfin enc.slag.sat 0
    let codes := (chunksOf w (b.m * 32) bytes).map leNat
    let s3 := copeTile s2 (tileKey k i.index t) (tileDigest (tileKey k i.index t) codes)
    let s4 := cntAdd s3 (arrCnt pp (a % 8) 3) 1
    .next (settleMma (setArr s4 p a { r with drains := rest, failed := r.failed.or e }) p a)
  | _, _ => .next s

/-- The transposed matrix of rows of elements. -/
def transpose (rows cols : Nat) (l : List (List α)) : List (List α) :=
  (List.range cols).map (fun c => (List.range rows).filterMap (fun r => (l.getD r [])[c]?))

/-- TURN (R129 to R131): transposes a matrix of 32 × 32 blocks. `err` is a parity error of codes 1 or 5; its elements are
those of the destination in row-major order. -/
def execTurn (c x q : Nat) (err : Option DataErr) (s : State) : Host.Outcome State Fault Refusal :=
  let k := qKey c x q
  match (issuable s k 0x30).filter (fun _ => unitFree s c 0x30) with
  | none => .next s
  | some i =>
    let b := turnBody i
    let p := physOf s c
    let e := errFor s [1, 5] err
    let rows := 32 * b.br
    let cols := 32 * b.bc
    let rd_ := (List.range rows).foldl (fun (st : State × List (List (List Byte))) r =>
      let v := spadRead st.1 p p x (128 * b.src + r * 32 * b.srcPitch) (cols * b.width)
      (v.1, st.2 ++ [chunksOf b.width cols v.2])) (s, [])
    let out := (transpose rows cols rd_.2).zipIdx.map (fun (row, n) => row.zipIdx.map (fun (v, m) =>
      match e with
      | some d => if d.first ≤ n * rows + m ∧ n * rows + m < d.first + d.count then List.replicate b.width 0xFF#8 else v
      | none => v))
    let s1 := out.zipIdx.foldl (fun st (row, n) =>
      spadWrite st p x (128 * b.dst + n * 32 * b.dstPitch) row.flatten) rd_.1
    let s2 := issueItem s1 k i.index
    match e with
    | none => .next (itemDone s2 k i.index 0 0)
    | some d => .next (itemDone (parityFound s2 d.code p d.line i.index) k i.index 4 (errDetail d))

end Sys2Proof.Machine
end

