-- ==== Sys2Proof/Machine/Crypto.lean ====
section
/-! DEFINITION. CRC-32C, SHA-384 and ECDSA P-384, as the images, streams and digests of the specification use them
(R165, R300, R392, R428 to R431). -/
namespace Sys2Proof.Machine

/-- One byte of a reflected CRC-32C, polynomial 0x82F63B78 (Castagnoli). -/
def crcByte (c b : Nat) : Nat :=
  (List.range 8).foldl (fun v _ => if v % 2 = 1 then v / 2 ^^^ 0x82F63B78 else v / 2) (c ^^^ b % 256)

/-- CRC-32C with initial and final value 0xFFFFFFFF (R165). -/
def crc32c (bs : List Nat) : Nat := bs.foldl crcByte 0xFFFFFFFF ^^^ 0xFFFFFFFF

/-- The first half of the round constants of SHA-384 (FIPS 180-4). -/
def shaK0 : List Nat :=
  [0x428A2F98D728AE22, 0x7137449123EF65CD, 0xB5C0FBCFEC4D3B2F, 0xE9B5DBA58189DBBC,
   0x3956C25BF348B538, 0x59F111F1B605D019, 0x923F82A4AF194F9B, 0xAB1C5ED5DA6D8118,
   0xD807AA98A3030242, 0x12835B0145706FBE, 0x243185BE4EE4B28C, 0x550C7DC3D5FFB4E2,
   0x72BE5D74F27B896F, 0x80DEB1FE3B1696B1, 0x9BDC06A725C71235, 0xC19BF174CF692694,
   0xE49B69C19EF14AD2, 0xEFBE4786384F25E3, 0x0FC19DC68B8CD5B5, 0x240CA1CC77AC9C65,
   0x2DE92C6F592B0275, 0x4A7484AA6EA6E483, 0x5CB0A9DCBD41FBD4, 0x76F988DA831153B5,
   0x983E5152EE66DFAB, 0xA831C66D2DB43210, 0xB00327C898FB213F, 0xBF597FC7BEEF0EE4,
   0xC6E00BF33DA88FC2, 0xD5A79147930AA725, 0x06CA6351E003826F, 0x142929670A0E6E70,
   0x27B70A8546D22FFC, 0x2E1B21385C26C926, 0x4D2C6DFC5AC42AED, 0x53380D139D95B3DF,
   0x650A73548BAF63DE, 0x766A0ABB3C77B2A8, 0x81C2C92E47EDAEE6, 0x92722C851482353B]
/-- The second half of the round constants. -/
def shaK1 : List Nat :=
  [0xA2BFE8A14CF10364, 0xA81A664BBC423001, 0xC24B8B70D0F89791, 0xC76C51A30654BE30,
   0xD192E819D6EF5218, 0xD69906245565A910, 0xF40E35855771202A, 0x106AA07032BBD1B8,
   0x19A4C116B8D2D0C8, 0x1E376C085141AB53, 0x2748774CDF8EEB99, 0x34B0BCB5E19B48A8,
   0x391C0CB3C5C95A63, 0x4ED8AA4AE3418ACB, 0x5B9CCA4F7763E373, 0x682E6FF3D6B2B8A3,
   0x748F82EE5DEFB2FC, 0x78A5636F43172F60, 0x84C87814A1F0AB72, 0x8CC702081A6439EC,
   0x90BEFFFA23631E28, 0xA4506CEBDE82BDE9, 0xBEF9A3F7B2C67915, 0xC67178F2E372532B,
   0xCA273ECEEA26619C, 0xD186B8C721C0C207, 0xEADA7DD6CDE0EB1E, 0xF57D4F7FEE6ED178,
   0x06F067AA72176FBA, 0x0A637DC5A2C898A6, 0x113F9804BEF90DAE, 0x1B710B35131C471B,
   0x28DB77F523047D84, 0x32CAAB7B40C72493, 0x3C9EBE0A15C9BEBC, 0x431D67C49C100D4C,
   0x4CC5D4BECB3E42B6, 0x597F299CFC657E2A, 0x5FCB6FAB3AD6FAEC, 0x6C44198C4A475817]
/-- The initial hash value of SHA-384. -/
def shaInit : List (BitVec 64) :=
  [0xCBBB9D5DC1059ED8, 0x629A292A367CD507, 0x9159015A3070DD17, 0x152FECD8F70E5939,
   0x67332667FFC00B31, 0x8EB44A8768581511, 0xDB0C2E0D64F98FA7, 0x47B5481DBEFA4FA4]

/-- A 64-bit rotation to the right. -/
def rotr (x : BitVec 64) (n : Nat) : BitVec 64 := (x >>> n) ||| (x <<< (64 - n))

/-- The message schedule: the words so far, newest first, extended by `n`. -/
def shaExpand : Nat → List (BitVec 64) → List (BitVec 64)
  | 0, w => w
  | n + 1, w =>
    let a := w.getD 14 0
    let b := w.getD 1 0
    let s0 := rotr a 1 ^^^ rotr a 8 ^^^ (a >>> 7)
    let s1 := rotr b 19 ^^^ rotr b 61 ^^^ (b >>> 6)
    shaExpand n ((s1 + w.getD 6 0 + s0 + w.getD 15 0) :: w)

/-- One round on the eight working variables. -/
def shaRound (v : List (BitVec 64)) (k : Nat) (w : BitVec 64) : List (BitVec 64) :=
  let g (n : Nat) : BitVec 64 := v.getD n 0
  let s1 := rotr (g 4) 14 ^^^ rotr (g 4) 18 ^^^ rotr (g 4) 41
  let ch := (g 4 &&& g 5) ^^^ (~~~ (g 4) &&& g 6)
  let t1 := g 7 + s1 + ch + BitVec.ofNat 64 k + w
  let s0 := rotr (g 0) 28 ^^^ rotr (g 0) 34 ^^^ rotr (g 0) 39
  let mj := (g 0 &&& g 1) ^^^ (g 0 &&& g 2) ^^^ (g 1 &&& g 2)
  [t1 + s0 + mj, g 0, g 1, g 2, g 3 + t1, g 4, g 5, g 6]

/-- A big-endian number. -/
def beNat (bs : List Nat) : Nat := bs.foldl (fun a b => a * 256 + b) 0
/-- The `n` big-endian bytes of a number. -/
def beBytes (n v : Nat) : List Nat := ((List.range n).map (fun i => v / 256 ^ i % 256)).reverse

/-- The first `n` pieces of `w` numbers of a list. -/
def piecesOf (w : Nat) : Nat → List Nat → List (List Nat)
  | 0, _ => []
  | n + 1, l => l.take w :: piecesOf w n (l.drop w)

/-- The compression of one block of 128 bytes. -/
def shaBlock (h : List (BitVec 64)) (blk : List Nat) : List (BitVec 64) :=
  let w0 := ((piecesOf 8 16 blk).map (fun p => BitVec.ofNat 64 (beNat p))).reverse
  let w := (shaExpand 64 w0).reverse
  let r := ((shaK0 ++ shaK1).zip w).foldl (fun v e => shaRound v e.1 e.2) h
  (h.zip r).map (fun e => e.1 + e.2)

/-- SHA-384 of a message of bytes (FIPS 180-4). -/
def sha384 (m : List Nat) : List Nat :=
  let n := m.length
  let pad := (128 - (n + 17) % 128) % 128
  let full := m ++ [0x80] ++ List.replicate pad 0 ++ beBytes 16 (8 * n)
  let h := (piecesOf 128 (full.length / 128) full).foldl shaBlock shaInit
  (h.take 6).flatMap (fun x => beBytes 8 x.toNat)

/-- The field prime of P-384. -/
def p384P : Nat := 2 ^ 384 - 2 ^ 128 - 2 ^ 96 + 2 ^ 32 - 1
/-- The order of its base point. -/
def p384N : Nat := 0xFFFFFFFFFFFFFFFFFFFFFFFFFFFFFFFFFFFFFFFFFFFFFFFFC7634D81F4372DDF581A0DB248B0A77AECEC196ACCC52973
/-- The coefficient b. -/
def p384B : Nat := 0xB3312FA7E23EE7E4988E056BE3F82D19181D9C6EFE8141120314088F5013875AC656398D8A2ED19D2A85C8EDD3EC2AEF
/-- The base point. -/
def p384G : Nat × Nat :=
  (0xAA87CA22BE8B05378EB1C71EF320AD746E1D3B628BA79B9859F741E082542A385502F25DBF55296C3A545E3872760AB7,
   0x3617DE4A96262C6F5D9E98BF9292DC29F8F41DBD289A147CE9DA3113B5F0B8C00A60B1CE1D7E819D7A431D7C90EA0E5F)

/-- A power modulo m, by the bits of an exponent of at most `f` bits. -/
def powMod (m : Nat) : Nat → Nat → Nat → Nat
  | 0, _, _ => 1 % m
  | f + 1, b, e =>
    let h := powMod m f (b * b % m) (e / 2)
    if e % 2 = 1 then h * b % m else h

/-- The inverse modulo a prime of at most 384 bits. -/
def invMod (m a : Nat) : Nat := powMod m 384 (a % m) (m - 2)

/-- The sum of two points of the curve; none is the point at infinity. -/
def ecAdd (a b : Option (Nat × Nat)) : Option (Nat × Nat) :=
  match a, b with
  | none, y => y
  | x, none => x
  | some (x1, y1), some (x2, y2) =>
    if x1 = x2 ∧ (y1 + y2) % p384P = 0 then none else
    let l := if x1 = x2 then (3 * x1 * x1 + (p384P - 3)) * invMod p384P (2 * y1) % p384P
      else (y2 + p384P - y1) * invMod p384P (x2 + p384P - x1) % p384P
    let x := (l * l + 2 * p384P - x1 - x2) % p384P
    some (x, (l * (x1 + p384P - x) + p384P - y1) % p384P)

/-- A multiple of a point, by the bits of a factor of at most `f` bits. -/
def ecMul : Nat → Nat → Option (Nat × Nat) → Option (Nat × Nat)
  | 0, _, _ => none
  | f + 1, k, p =>
    let h := ecMul f (k / 2) (ecAdd p p)
    if k % 2 = 1 then ecAdd h p else h

/-- Whether a point lies on the curve, in the field's range. -/
def onCurve (x y : Nat) : Bool :=
  decide (x < p384P) && decide (y < p384P) &&
  y * y % p384P == (x * x * x + (p384P - 3) * x + p384B) % p384P

/-- ECDSA P-384 verification (FIPS 186) of a 48-byte hash, with a public key X, Y and a signature r, s. -/
def ecdsaVerify (hash : List Nat) (x y r s : Nat) : Bool :=
  onCurve x y && decide (0 < r) && decide (r < p384N) && decide (0 < s) && decide (s < p384N) &&
  (let w := invMod p384N s
   let u1 := beNat hash * w % p384N
   let u2 := r * w % p384N
   match ecAdd (ecMul 384 u1 (some p384G)) (ecMul 384 u2 (some (x, y))) with
   | none => false
   | some (px, _) => px % p384N == r)

end Sys2Proof.Machine
end

