-- ==== Sys2Proof/Machine/LadleIo.lean ====
section
/-! DEFINITION. How a Ladle item reads and writes: through the run-ahead area, local memory, the window cache, and
requests to other agents (R153, R158, R179 to R183, R188, R340, R341, R348, R349, R352 to R357). -/
namespace Sys2Proof.Machine
open Reg

/-- The state with the Ladle changed. -/
def State.withLadle (s : State) (l : Ladle) : State := { s with ladle := l }
/-- The state with the flask fabric changed. -/
def State.withFlask (s : State) (f : Flask) : State := { s with flask := f }

/-- The casting of a physical crucible, and so the slice of its items (R153). -/
def castingOf (p : Nat) : Nat := if p < 256 then p / 64 else (p - 256) / 2

/-- The key of a line of another device's window: its position and line. -/
def winKey (f line : Nat) : Nat := 2 ^ 29 * f + line
/-- CACHE_EN, with a cache. -/
def cacheOn (s : State) : Bool := bit (rd s FLK_CTRL) 1 && bits (rd s FLK_CACHE_SIZE) 0 4 != 0

/-- Whether another agent serves an address: remote, or the window of another position. -/
def foreign (s : State) (a : Nat) : Bool := match region s a with
  | .remote => true
  | .window f _ => f != ownPos s
  | _ => false

/-- Whether an extent lies in this device's own window and beyond its size (R339). -/
def beyondOwn (s : State) (a n : Nat) : Bool := match region s a with
  | .window f o => f == ownPos s && decide (winBytes s < o + n)
  | _ => false

/-- The requests of an item. -/
def itemReqs (s : State) (k idx : Nat) : List LReq := s.ladle.reqs.filter (fun r => r.queue == k && r.index == idx)

/-- A cached line of another window. -/
def cached (s : State) (f line : Nat) : Option CacheLine :=
  (s.flask.cache.find? (fun e => e.1 == winKey f line)).map (·.2)

/-- Whether the byte at an address is lost in an answered request: its unit was poisoned, or the request got no data
(R357). -/
def lostAt (r : LReq) (a : Nat) : Bool := match r.answer with
  | some (0, _) => false
  | some (1, m) => bit m (a / 64 - r.addr / 64)
  | _ => true

/-- The bytes of an extent of an answered request. -/
def reqBytes (r : LReq) (a n : Nat) : List OByte :=
  let d := (r.data.drop (a - r.addr)).take n
  (d ++ List.replicate (n - d.length) 0).zipIdx.map (fun (b, j) => if lostAt r (a + j) then none else some b)

/-- The bytes of a foreign extent within one line that an item has at hand: from the window cache, or from its answered
requests (R357). -/
def foreignBytes (s : State) (k idx a n : Nat) : Option (List OByte) :=
  let fromReq := ((itemReqs s k idx).find? (fun r => (r.kind == 0 || r.kind == 10 || r.kind == 11 || r.kind == 12 || r.kind == 17) &&
    decide (r.addr ≤ a) && decide (a + n ≤ r.addr + r.bytes) && r.answer.isSome)).map (fun r => reqBytes r a n)
  match region s a with
  | .window f o => match cached s f (o / 128) with
    | some c => some (((c.data.drop (o % 128)).take n).map some)
    | none => fromReq
  | _ => fromReq

/-- The far slot, near slot and other fields of a KV page-table entry (Table 4.9a). -/
def kvState (e : Nat) : Nat := bits e 0 2
/-- NEAR_SLOT. -/
def kvNear (e : Nat) : Nat := bits e 8 24
/-- FAR_SLOT. -/
def kvFar (e : Nat) : Nat := bits e 32 26
/-- An entry of a context's page table (R171). -/
def kvEntry (s : State) (x pg : Nat) : Nat := leNat (bytesAt s.mem (rd64 s (LDL_KV_PT_BASE_LO x) + 8 * pg) 8)
/-- The entries of a context's page table; none while its KV cache is not enabled (log entry 23). -/
def kvEntries (s : State) (x : Nat) : Nat := if bit (rd s (LDL_KV_CTRL x)) 0 then rd s (LDL_KV_PT_ENTRIES x) else 0
/-- The address of a near slot. -/
def kvNearAddr (s : State) (x n : Nat) : Nat := rd64 s (LDL_KV_NEAR_BASE_LO x) + 65536 * n
/-- The address of a far slot. -/
def kvFarAddr (s : State) (x n : Nat) : Nat := rd64 s (LDL_KV_FAR_BASE_LO x) + 65536 * n

/-- The chunk of a stream in which a line lies (R179): the highest, where chunks overlap. -/
def streamChunk (s : State) (st : RaStream) (a : Nat) : Option Nat :=
  if st.kv then
    (List.range st.nchunk).find? (fun i =>
      let e := kvEntry s st.ctx (devWord s (st.base + 4 * i))
      let f := kvFarAddr s st.ctx (kvFar e)
      kvState e == 2 && decide (f ≤ a) && decide (a < f + 65536))
  else if a < st.base then none else
    let off := (a - st.base) / 128
    let i := if st.stride = 0 then 0 else min (off / st.stride) (st.nchunk - 1)
    if off - i * st.stride < st.lines then some i else none

/-- A line of a chunk by its number: its address; none for a page that is not FAR. -/
def chunkLine (s : State) (st : RaStream) (chunk line : Nat) : Option Nat :=
  if st.kv then
    let e := kvEntry s st.ctx (devWord s (st.base + 4 * chunk))
    if kvState e = 2 then some (kvFarAddr s st.ctx (kvFar e) + 128 * line) else none
  else some (st.base + 128 * (chunk * st.stride + line))

/-- The state with a stream changed. -/
def setStream (s : State) (n : Nat) (r : RaStream) : State :=
  s.withLadle { s.ladle with streams := spPut s.ladle.streams n r RaStream.init }
/-- A stream. -/
def streamAt (s : State) (n : Nat) : RaStream := spGet s.ladle.streams n RaStream.init

/-- Ends a stream (R180, R183): its buffered lines are dropped and counted; lines in flight are dropped when they
arrive. -/
def endStream (s : State) (n : Nat) : State :=
  let r := streamAt s n
  if r.state ≠ 1 then s else
  let drop := r.buf.countP (fun b => b.ready && !b.used)
  cntAdd (setStream s n { r with state := 2, buf := r.buf.filter (fun b => !b.ready), disc := r.disc + drop })
    LDL_RA_DISCARD_CNT_LO drop

/-- A read of a chunk by an item moves the stream's position; chunks below it are discarded, and the read of its last
line ends the stream (R180). -/
def touchChunk (s : State) (n chunk : Nat) (last : Bool) : State :=
  let r := streamAt s n
  let pos := max r.pos (chunk + 1)
  let gone (b : RaLine) : Bool := b.ready && decide (b.chunk + 1 < pos)
  let drop := r.buf.countP (fun b => gone b && !b.used)
  let s1 := cntAdd (setStream s n { r with pos := pos, buf := r.buf.filter (fun b => !gone b), disc := r.disc + drop })
    LDL_RA_DISCARD_CNT_LO drop
  if last then endStream s1 n else s1

/-- A read of a line by an item of context x through the run-ahead area (R181): answers the line's bytes where they come
from there. -/
def raServe (s : State) (x a : Nat) (recomp : Bool) : State × Option (List Byte) :=
  let line := a / 128 * 128
  match s.ladle.streams.find? (fun e => e.2.state == 1 && e.2.ctx == x && (streamChunk s e.2 line).isSome) with
  | none => (s, none)
  | some (n, r) =>
    let chunk := (streamChunk s r line).getD 0
    let last := chunkLine s r (r.nchunk - 1) ((if r.kv then 512 else r.lines) - 1) == some line
    let entry := r.buf.find? (fun b => b.addr == line && b.peek.isNone && !b.poisoned)
    let res : State × Option (List Byte) := match entry with
      | none => (if recomp then s else cntAdd s LDL_RA_MISS_CNT_LO 1, none)
      | some b =>
        if b.ready then
          let buf := r.buf.map (fun c => if c.addr = line then { c with used := true } else c)
          (cntAdd (setStream s n { r with buf := buf }) LDL_RA_HIT_CNT_LO 1, some b.data)
        else if isPoisoned s line || isPoisoned s (line + 64) then (s, none)
        else
          (cntAdd (setStream s n { r with late := if recomp then r.late else r.late + 1 }) LDL_RA_LATE_CNT_LO 1,
            some (bytesAt s.mem line 128))
    (touchChunk res.1 n chunk last, res.2)

/-- A Ladle read within one line: bytes, and the poisoned units met (R181, R184). -/
def readLine (s : State) (k : Nat) (i : Item) (a n : Nat) : State × List OByte × Nat :=
  if foreign s a then
    let byPeek := (itemReqs s k i.index).any (fun r => r.kind == 17 && r.addr == a / 128 * 128)
    let s1 := if byPeek || 2 ^ 48 ≤ a then s else (raServe s (qCtx k) a (hRecomp i.head)).1
    (s1, (foreignBytes s k i.index a n).getD (List.replicate n none), 0) else
  let g := itemAgent (qCtx k) i.phys
  let ra := if a < 2 ^ 42 then raServe s (qCtx k) a (hRecomp i.head) else (s, none)
  match ra.2 with
  | some l => (ra.1, ((l.drop (a % 128)).take n).map some, 0)
  | none =>
    let unit := match region s a with
      | .scratch _ _ => 128
      | _ => 64
    (extents unit a n).foldl (fun (st : State × List OByte × Nat) e =>
      let r := devRead st.1 g e.1 e.2
      (r.1, st.2.1 ++ (if r.2.2 = 0 then r.2.1.map some else List.replicate e.2 none), st.2.2 + r.2.2)) (ra.1, [], 0)

/-- A Ladle read: bytes, and the poisoned units met. -/
def ladleRead (s : State) (k : Nat) (i : Item) (a n : Nat) : State × List OByte × Nat :=
  let all := (extents 128 a n).foldl (fun (st : State × List (List OByte) × Nat) e =>
    let r := readLine st.1 k i e.1 e.2
    (r.1, r.2.1 :: st.2.1, st.2.2 + r.2.2)) (s, [], 0)
  (all.1, all.2.1.reverse.flatten, all.2.2)

/-- Adds a request of an item. -/
def addReq (s : State) (k : Nat) (i : Item) (kind a n : Nat) (data : List Byte) : State :=
  let l := s.ladle
  let lines := (a + n + 127) / 128 - a / 128
  let slots := if kind = 0 then lines else 1
  s.withLadle { l with
    nextReq := l.nextReq + 1
    reqs := l.reqs ++ [⟨l.nextReq, castingOf i.phys, k, i.index, kind, a, n, data, slots, none, none⟩] }

/-- A Ladle write within one line: local memory; a line held in M; or a store for its home or target. -/
def writeLine (s : State) (k : Nat) (i : Item) (a : Nat) (bs : List OByte) : State × Nat :=
  let data := bs.map markByte
  let s0 := cntAdd (cntAdd s LDL_MOVED_CNT_LO 1) (MTR_SLICE_CNT_LO (sliceTag s (qCtx k)) 3) 1
  match region s a with
  | .remote => (addReq s0 k i 1 a data.length data, 0)
  | .window f o =>
    if f = ownPos s then devWrite s0 (itemAgent (qCtx k) i.phys) a data else
    match cached s f (o / 128) with
    | some c =>
      if c.modified then
        let d := c.data.take (o % 128) ++ data ++ c.data.drop (o % 128 + data.length)
        (s0.withFlask { s0.flask with cache := s0.flask.cache.map (fun e =>
          if e.1 = winKey f (o / 128) then (e.1, { c with data := d }) else e) }, 0)
      else (addReq s0 k i 13 a data.length data, 0)
    | none => (addReq s0 k i 13 a data.length data, 0)
  | _ => devWrite s0 (itemAgent (qCtx k) i.phys) a data

/-- Cuts a run of bytes at the lines. -/
def linePieces : Nat → Nat → List OByte → List (Nat × List OByte)
  | 0, _, _ => []
  | f + 1, a, bs =>
    if bs.isEmpty then [] else
    let n := 128 - a % 128
    (a, bs.take n) :: linePieces f (a + n) (bs.drop n)

/-- A Ladle write: answers the partial writes that failed on a poisoned unit (R185). -/
def ladleWrite (s : State) (k : Nat) (i : Item) (a : Nat) (bs : List OByte) : State × Nat :=
  (linePieces (bs.length + 1) a bs).foldl (fun (st : State × Nat) e =>
    let r := writeLine st.1 k i e.1 e.2
    (r.1, st.2 + r.2)) (s, 0)

/-- A buffered peeked line of a context's streams (R349): the stream and its entry. -/
def peekedLine (s : State) (x a : Nat) : Option (Nat × RaLine) :=
  (s.ladle.streams.find? (fun e => e.2.state == 1 && e.2.ctx == x &&
    e.2.buf.any (fun b => b.addr == a / 128 * 128 && b.peek.isSome && b.ready))).bind (fun e =>
      (e.2.buf.find? (fun b => b.addr == a / 128 * 128 && b.peek.isSome && b.ready)).map (fun b => (e.1, b)))

/-- Requests for the foreign extents that an item must read or own before it acts; none where all are at hand. `write`
extents of windows are taken in M while the cache is on (R341). -/
def fetchExtent (s : State) (k : Nat) (i : Item) (a n : Nat) (write : Bool) : State :=
  if n = 0 || !foreign s a then s else
  match region s a with
  | .remote =>
    if write then s else
    (extents 4096 a n).foldl (fun st e =>
      if (itemReqs st k i.index).any (fun r => r.kind == 0 && r.addr == e.1 && r.bytes == e.2) then st
      else addReq st k i 0 e.1 e.2 []) s
  | _ =>
    (extents 128 a n).foldl (fun st e =>
      let line := e.1 / 128 * 128
      let held := match region st line with
        | .window f o => cached st f (o / 128)
        | _ => none
      let asked := (itemReqs st k i.index).any (fun r => decide (10 ≤ r.kind) && r.kind != 13 && r.addr == line)
      if asked then st
      else if write then
        if !cacheOn st || (match held with
          | some c => c.modified
          | none => false) then st else addReq st k i 11 line 128 []
      else if held.isSome then st
      else if (peekedLine st (qCtx k) line).isSome then addReq st k i 17 line 128 []
      else addReq st k i (if cacheOn st then 10 else 12) line 128 []) s

/-- Whether an item has requests without an answer. -/
def waitingReqs (s : State) (k idx : Nat) : Bool := (itemReqs s k idx).any (fun r => r.answer.isNone)

/-- The 64-byte units of a request that its answer loses. -/
def reqUnits (r : LReq) : Nat := (extents 64 r.addr r.bytes).countP (fun e => lostAt r e.1)

/-- The status that the answers of an item's requests give it (R339, R356, R357): refused, out of the window, timed
out, poisoned. -/
def reqStatus (s : State) (l : List LReq) : Nat × Nat :=
  let of_ (n : Nat) : List LReq := l.filter (fun r => r.answer.map (·.1) == some n)
  let units (n : Nat) : Nat := ((of_ n).map reqUnits).sum
  match (of_ 3).head?, (of_ 4).head?, (of_ 2).head? with
  | some r, _, _ => (0x2B, (r.answer.getD (0, 0)).2)
  | none, some _, _ => (0x25, 0)
  | none, none, some r =>
    let target := match region s r.addr with
      | .window f _ => rd s SPR_SELF % 2 ^ 16 / 8 * 8 + f % 8
      | _ => rd s SPR_SELF % 2 ^ 16 ^^^ r.addr / 2 ^ 48
    (0x2A, min (units 2) 65535 + target % 2 ^ 16 * 65536)
  | none, none, none => if (of_ 1).isEmpty then (0, 0) else (0x26, units 1)

end Sys2Proof.Machine
end

