-- ==== Sys2Proof/Machine/Convert.lean ====
section
/-! DEFINITION. CONVERT: decompression of KZD streams, decoding, transposition, encoding and layout (R159 to R170). -/
namespace Sys2Proof.Machine
open Reg

/-- What acting on a Ladle item found: a status and detail, the uncorrectable units met, and whether the item must wait
and go on later. -/
structure Act where
  st : State
  status : Nat
  detail : Nat
  ue : Nat
  wait : Bool

/-- A run of bytes with the lost ones of a parity error, by position (R364). -/
def loseBytes (err : Option DataErr) (first : Nat) (bs : List OByte) : List OByte :=
  match err with
  | none => bs
  | some e => bs.zipIdx.map (fun (b, j) => if e.first ≤ first + j ∧ first + j < e.first + e.count then none else b)

/-- How a chunk of a KZD stream fails: bytes of it are lost, its form is wrong (R167), or its CRC (R168). -/
inductive KzdFail where
  | lost | malformed | crc
deriving DecidableEq, Repr

/-- The output of DICT codes (R166). -/
def dictOut (dict : List Nat) : List Nat → List Nat → List Nat
  | [], _ => []
  | c :: t, lits => if c = 15 then lits.headD 0 :: dictOut dict t lits.tail else dict.getD c 0 :: dictOut dict t lits

/-- One chunk of `n` output bytes for plane `k` (R165 to R168): its output bytes and its length in the stream. -/
def kzdChunk (k n : Nat) (bs : List OByte) : Except KzdFail (List Nat × Nat) :=
  if bs.length < 32 then .error .malformed else
  match obNats (bs.take 32) with
  | none => .error .lost
  | some h =>
    let at_ (j : Nat) : Nat := h.getD j 0
    let mode := at_ 0
    let nlit := at_ 24 + 256 * at_ 25
    let half := (n + 1) / 2
    let dictZero := if mode = 2 then true else if mode = 1 then ((h.drop 9).take 14).all (· == 0)
      else ((h.drop 8).take 15).all (· == 0)
    let payload := if mode = 0 then n else if mode = 1 then 0 else half + nlit
    let whole := 32 + (payload + 15) / 16 * 16
    if 2 < mode ∨ at_ 1 ≠ k ∨ at_ 2 + 256 * at_ 3 + 1 ≠ n ∨ !dictZero ∨ at_ 23 ≠ 0 ∨ (mode ≠ 2 ∧ nlit ≠ 0) ∨
        !((h.drop 26).all (· == 0)) ∨ bs.length < whole then .error .malformed
    else match obNats ((bs.drop 32).take (whole - 32)) with
      | none => .error .lost
      | some pl =>
        let codes := (nibbles (pl.take half)).take n
        if !((pl.drop payload).all (· == 0)) ∨
            (mode = 2 ∧ (codes.count 15 ≠ nlit ∨ (n % 2 = 1 ∧ pl.getD (half - 1) 0 / 16 ≠ 0))) then .error .malformed
        else
          let out := if mode = 0 then pl.take n else if mode = 1 then List.replicate n (at_ 8)
            else dictOut ((h.drop 8).take 15) codes (pl.drop half)
          if crc32c out ≠ at_ 4 + 256 * at_ 5 + 65536 * at_ 6 + 16777216 * at_ 7 then .error .crc else .ok (out, whole)

/-- The chunks of one group, one for each byte plane. -/
def kzdPlanes (n : Nat) : List Nat → List OByte → Except KzdFail (List (List Nat) × List OByte × Nat)
  | [], bs => .ok ([], bs, 0)
  | k :: t, bs => match kzdChunk k n bs with
    | .error e => .error e
    | .ok (out, len) => match kzdPlanes n t (bs.drop len) with
      | .error e => .error e
      | .ok (rest, left, m) => .ok (out :: rest, left, len + m)

/-- A decompressed stream: the bytes of the groups before the first failing one, how that one failed with its index, and
the stream bytes read. -/
structure Kzd where
  out : List OByte
  fail : Option (KzdFail × Nat)
  used : Nat

/-- Decompresses groups: `w` planes, `total` units of w bytes in all, 4,096 to a group (R164). -/
def kzdRun (w : Nat) : Nat → Nat → Nat → List OByte → Kzd
  | 0, _, _, _ => ⟨[], none, 0⟩
  | f + 1, g, left, bs =>
    if left = 0 then ⟨[], none, 0⟩ else
    let n := min left 4096
    match kzdPlanes n (List.range w) bs with
    | .error e => ⟨[], some (e, g), 0⟩
    | .ok (planes, rest, m) =>
      let out := (List.range n).flatMap (fun j => planes.map (fun p => some (BitVec.ofNat 8 (p.getD j 0))))
      let r := kzdRun w f (g + 1) (left - n) rest
      ⟨out ++ r.out, r.fail, m + r.used⟩

/-- The bytes of element data that a CONVERT's source holds (R164, log entry 20). -/
def ConvBody.dataBytes (b : ConvBody) : Nat :=
  if b.srcF = 9 ∧ b.cmp then b.rows * b.count / 64 * 13 else b.rows * elemBytes b.srcF b.count
/-- Byte planes of the source format (R164). -/
def ConvBody.planes (b : ConvBody) : Nat := if b.srcF ≤ 1 then scalarWidth b.srcF else 1
/-- The first source element whose data are not whole in `n` bytes of element data. -/
def ConvBody.limit (b : ConvBody) (n : Nat) : Nat :=
  match blockOf b.srcF with
  | none => n / scalarWidth b.srcF
  | some k => n / (if b.srcF = 9 ∧ b.cmp then 13 else blockBytes k) * k.size

/-- Whether a TRANSPOSE runs through a turn port (R161): its scalar elements are moved bit for bit. -/
def ConvBody.viaTurn (b : ConvBody) (s : State) : Bool :=
  b.layout == 1 && b.srcF == b.dstF && decide (b.srcF ≤ 3) && (inScratch s b.src || inScratch s b.dst)

/-- Joins runs that follow each other, so that each destination unit is written whole (R158). -/
def joinRuns : List (Nat × List OByte) → List (Nat × List OByte)
  | [] => []
  | e :: t => match joinRuns t with
    | f :: u => if e.1 + e.2.length = f.1 then (e.1, e.2 ++ f.2) :: u else e :: f :: u
    | [] => [e]

/-- Writes runs of bytes: answers the state and the partial writes that failed. -/
def writeRuns (s : State) (k : Nat) (i : Item) (l : List (Nat × List OByte)) : State × Nat :=
  (joinRuns (l.filter (fun e => !e.2.isEmpty))).foldl (fun (st : State × Nat) e =>
    let r := ladleWrite st.1 k i e.1 e.2
    (r.1, st.2 + r.2)) (s, 0)

/-- Reads the element data of a CONVERT, through decompression: the bytes, the first group that failed, and the units
lost. -/
def convSource (s : State) (k : Nat) (i : Item) (b : ConvBody) : State × List OByte × Option (KzdFail × Nat) × Nat :=
  let r := ladleRead s k i b.src b.srcBytes
  if !b.cmp then (r.1, r.2.1, none, r.2.2) else
  let w := b.planes
  let z := kzdRun w (b.dataBytes / w + 1) 0 (b.dataBytes / w) r.2.1
  let s1 := cntAdd (cntAdd r.1 LDL_CMP_IN_CNT_LO z.used) LDL_CMP_OUT_CNT_LO z.out.length
  match z.fail with
  | some (.lost, _) => (s1, z.out ++ List.replicate (b.dataBytes - z.out.length) none, none, max 1 r.2.2)
  | f => (s1, z.out, f, r.2.2)

/-- The elements of a row-major list in the output matrix's order. -/
def convOrder (b : ConvBody) (l : List α) : List α :=
  if b.layout = 1 then (transpose b.rows b.count (chunksOf b.count b.rows l)).flatten else l

/-- The runs in which the encoded elements and scales of the output matrix are written (R161 to R163). -/
def convRuns (b : ConvBody) (es sc : List OByte) : List (Nat × List OByte) :=
  let w := scaleWidth b.dstF
  let bs := blockSize b.dstF
  let row := elemBytes b.dstF b.outCols
  let srow := b.outCols / bs * w
  let lanes := pairLanes b.pair
  let slice (l : List OByte) (o n : Nat) : List OByte := (l.drop o).take n
  match b.layout with
  | 2 => (List.range (b.rows / 32)).flatMap (fun t => (List.range (b.count / b.kp)).flatMap (fun p =>
      let base := b.dst + 128 * (t * b.stride + p * b.pstride)
      let rec_ := elemBytes b.dstF b.kp
      (List.range 32).map (fun n => (base + n * rec_, slice es ((t * 32 + n) * row + p * rec_) rec_)) ++
      (if hasPlane b.dstF then (List.range 32).map (fun n =>
        (base + imageElems b.pair + n * lanes * w, slice sc ((t * 32 + n) * srow + p * lanes * w) (lanes * w))) else [])))
  | 3 => (List.range (b.count / b.kp)).flatMap (fun p =>
      let base (r : Nat) : Nat := b.dst + 128 * (p * b.pstride + r * b.stride)
      let code (m ch : Nat) : OByte :=
        ((slice es (m * row + (p * b.kp + ch) / 2) 1).headD none).map (fun v =>
          BitVec.ofNat 8 (if ch % 2 = 0 then v.toNat % 16 else v.toNat / 16))
      let entry (m r : Nat) : List OByte :=
        if lanes = 1 then slice es (m * row + elemBytes b.dstF (p * b.kp + r)) (mainEntry b.pair)
        else (List.range (lanes / 2)).map (fun q => match code m (64 * q + r), code m (64 * q + 32 + r) with
          | some lo, some hi => some (BitVec.ofNat 8 (lo.toNat + 16 * hi.toNat))
          | _, _ => none)
      (List.range 32).map (fun r => (base r, (List.range b.rows).flatMap (fun m => entry m r))) ++
      (if scaleEntry b.dstF b.pair = 0 then [] else
        [(base 34, (List.range b.rows).flatMap (fun m => slice sc (m * srow + p * lanes * w) (lanes * w)))]))
  | _ => [(b.dst, es)] ++ (if b.writesScale then [(b.dstScale, sc)] else [])

/-- The runs of a CONVERT that stops at a failing group: the elements and blocks whose sources all lie before `limit`
(R168). -/
def convPartial (b : ConvBody) (limit : Nat) (es sc : List OByte) : List (Nat × List OByte) :=
  let bs := blockSize b.dstF
  let w := scaleWidth b.dstF
  let per := if bs = 1 then scalarWidth b.dstF else elemBytes b.dstF bs
  let src (o : Nat) : Nat := if b.layout = 1 then o % b.outCols * b.count + o / b.outCols else o
  let ready (n : Nat) : Bool := (List.range bs).all (fun j => decide (src (n * bs + j) < limit))
  if 2 ≤ b.layout then
    -- whole rows of the output matrix, which PLANE and STREAM spread over their images and streams
    let rows := limit / b.count
    (convRuns { b with rows := rows / (if b.layout = 2 then 32 else 1) * (if b.layout = 2 then 32 else 1) } es sc)
  else (List.range (b.outRows * b.outCols / bs)).flatMap (fun n =>
    if ready n then [(b.dst + n * per, (es.drop (n * per)).take per)] ++
      (if b.writesScale then [(b.dstScale + n * w, (sc.drop (n * w)).take w)] else []) else [])

/-- The status of a failed group (Table 4.7a). -/
def kzdStatus (f : Option (KzdFail × Nat)) : Nat × Nat := match f with
  | some (.crc, g) => (0x21, g)
  | some (_, g) => (0x22, g)
  | none => (0, 0)

/-- The rest of a CONVERT once its source bytes are at hand: decode, transpose, encode, lay out. -/
def convWrite (s : State) (k : Nat) (i : Item) (b : ConvBody) (data : List OByte) (fail : Option (KzdFail × Nat))
    (ue : Nat) : Act :=
  let total := b.rows * b.count
  let limit := match fail with
    | none => total
    | some _ => min total (b.limit data.length)
  let sp := ladleRead s k i b.srcScale b.srcScaleBytes
  let dec := decodeStream b.srcF (limit / blockSize b.srcF * blockSize b.srcF) (b.srcF == 9 && b.cmp) data sp.2.1
  let elems := convOrder b (dec.elems ++ List.replicate (total - dec.elems.length) none)
  let ds := if b.readsScale then ladleRead sp.1 k i b.dstScale b.dstScaleBytes else (sp.1, [], 0)
  let nm := i.numerics
  let w := scaleWidth b.dstF
  let sup (n : Nat) : OWord := (obNum ((ds.2.1.drop (n * w)).take w)).map (BitVec.ofNat 32)
  let exact := if b.layout = 1 then fun _ => none else recodeBlock b.srcF b.dstF nm.scl data sp.2.1
  let enc := encodeWith exact b.dstF nm sup (fun o => (b.row0 * b.outCols + o) % 2 ^ 40) (loseElems i.err elems)
  let wr := writeRuns ds.1 k i (if fail.isNone then convRuns b enc.elems enc.scales
    else convPartial b limit enc.elems enc.scales)
  let s1 := addSlag (addSlag wr.1 k i.index i.tensor dec.nonfin 0 dec.inval) k i.index i.tensor
    enc.slag.nonfin enc.slag.sat enc.slag.inval
  ⟨s1, (kzdStatus fail).1, (kzdStatus fail).2, ue + sp.2.2 + ds.2.2 + wr.2, false⟩

/-- A transposition through the turn port: the elements move bit for bit (R130, R161). -/
def convTurn (s : State) (k : Nat) (i : Item) (b : ConvBody) (data : List OByte) (fail : Option (KzdFail × Nat))
    (ue : Nat) : Act :=
  let w := scalarWidth b.srcF
  let total := b.rows * b.count
  let limit := match fail with
    | none => total
    | some _ => min total (b.limit data.length)
  let elems := chunksOf w total (data ++ List.replicate (total * w - data.length) none)
  let out := (convOrder b elems).zipIdx.map (fun (v, o) => match i.err with
    | some e => if e.first ≤ o ∧ o < e.first + e.count then List.replicate w none else v
    | none => v)
  let wr := writeRuns s k i (if fail.isNone then [(b.dst, out.flatten)] else convPartial b limit out.flatten [])
  ⟨wr.1, (kzdStatus fail).1, (kzdStatus fail).2, ue + wr.2, false⟩

/-- Acts on a CONVERT item. -/
def actConvert (s : State) (k : Nat) (i : Item) : Act :=
  let b := convBody i
  if b.bitCopy then
    let r := ladleRead s k i b.src b.srcBytes
    let q := ladleRead r.1 k i b.srcScale b.srcScaleBytes
    let w := writeRuns q.1 k i ([(b.dst, loseBytes i.err 0 r.2.1)] ++
      (if b.writesScale then [(b.dstScale, loseBytes i.err b.srcBytes q.2.1)] else []))
    ⟨w.1, 0, 0, r.2.2 + q.2.2 + w.2, false⟩
  else
    let r := convSource s k i b
    if b.viaTurn s then convTurn r.1 k i b r.2.1 r.2.2.1 r.2.2.2 else convWrite r.1 k i b r.2.1 r.2.2.1 r.2.2.2

end Sys2Proof.Machine
end

