-- ==== Sys2Proof/Machine/Kv.lean ====
section
/-! DEFINITION. KV pages: pools, page moves, the spill sweep and the seven KV sub-operations (R171 to R178). -/
namespace Sys2Proof.Machine
open Reg

/-- Slots at the head of a pool that hold its bitmap (R171). -/
def kvReserved (slots : Nat) : Nat := (slots + 524287) / 524288
/-- Whether a slot is in use: bit n of the pool's bitmap (log entry 24). -/
def slotUsed (s : State) (base n : Nat) : Bool := bit (byteAt s.mem (base + n / 8)).toNat (n % 8)
/-- Marks a slot used or free. -/
def setSlot (s : State) (x base n : Nat) (used : Bool) : State :=
  let a := base + n / 8
  let v := (byteAt s.mem a).toNat
  (devWrite s (itemAgent x 0) a [BitVec.ofNat 8 (setBits v (n % 8) 1 (b2n used))]).1
/-- Free slots of a pool. -/
def freeSlots (s : State) (base slots : Nat) : Nat :=
  (List.range slots).countP (fun n => decide (kvReserved slots ≤ n) && !slotUsed s base n)
/-- A free slot of a pool: which one is not stated (log entry 44). -/
def findSlot (s : State) (base slots : Nat) : Option Nat :=
  pickAny s ((List.range slots).filter (fun n => decide (kvReserved slots ≤ n) && !slotUsed s base n))

/-- Free near slots of a context (LDL_KV_NEAR_FREE). -/
def nearFree (s : State) (x : Nat) : Nat := freeSlots s (rd64 s (LDL_KV_NEAR_BASE_LO x)) (rd s (LDL_KV_NEAR_SLOTS x))
/-- Free far slots of a context (LDL_KV_FAR_FREE). -/
def farFree (s : State) (x : Nat) : Nat := freeSlots s (rd64 s (LDL_KV_FAR_BASE_LO x)) (rd s (LDL_KV_FAR_SLOTS x))
/-- Marks a near slot used or free. -/
def setNear (s : State) (x n : Nat) (used : Bool) : State := setSlot s x (rd64 s (LDL_KV_NEAR_BASE_LO x)) n used
/-- Marks a far slot used or free. -/
def setFar (s : State) (x n : Nat) (used : Bool) : State := setSlot s x (rd64 s (LDL_KV_FAR_BASE_LO x)) n used

/-- Writes a page-table entry. -/
def setEntry (s : State) (x pg e : Nat) : State :=
  (devWrite s (itemAgent x 0) (rd64 s (LDL_KV_PT_BASE_LO x) + 8 * pg) (leBytes 8 e)).1
/-- An entry's word: REF and PIN kept from `e` (Table 4.9a). -/
def mkEntry (e st dir near far : Nat) : Nat :=
  st + bits e 2 2 * 4 + dir * 16 + near % 2 ^ 24 * 256 + far % 2 ^ 26 * 2 ^ 32

/-- Takes a free near slot, and starts a spill sweep where the free count falls below SPILL_LO (R175). -/
def takeNear (s : State) (x : Nat) : Option (Nat × State) :=
  (findSlot s (rd64 s (LDL_KV_NEAR_BASE_LO x)) (rd s (LDL_KV_NEAR_SLOTS x))).map (fun n =>
    let s1 := setNear (drawNat s).2 x n true
    if nearFree s1 x < rd s (LDL_KV_SPILL_LO x) ∧ ¬ s1.ladle.sweeping.contains x then
      (n, s1.withLadle { s1.ladle with sweeping := s1.ladle.sweeping ++ [x] })
    else (n, s1))
/-- Takes a free far slot. -/
def takeFar (s : State) (x : Nat) : Option (Nat × State) :=
  (findSlot s (rd64 s (LDL_KV_FAR_BASE_LO x)) (rd s (LDL_KV_FAR_SLOTS x))).map (fun n => (n, setFar (drawNat s).2 x n true))

/-- The move of a page. -/
def moveOf (s : State) (x pg : Nat) : Option PageMove := s.ladle.moves.find? (fun m => m.ctx == x && m.page == pg)
/-- The state without a page's move. -/
def dropMove (s : State) (x pg : Nat) : State :=
  s.withLadle { s.ladle with moves := s.ladle.moves.filter (fun m => !(m.ctx == x && m.page == pg)) }
/-- Begins a move (R177). -/
def addMove (s : State) (m : PageMove) (e : Nat) : State :=
  let s1 := setEntry s m.ctx m.page (mkEntry e 3 (b2n m.toNear) m.near m.far)
  s1.withLadle { s1.ladle with moves := s1.ladle.moves ++ [m] }

/-- Whether a context's sweep has a move under way. -/
def sweepMoving (s : State) (x : Nat) : Bool := s.ladle.moves.any (fun m => m.ctx == x && !m.toNear && m.owner.isNone)
/-- Whether a NEAR page may be spilled. -/
def canSpill (s : State) (x : Nat) : Bool :=
  (List.range (kvEntries s x)).any (fun pg => let e := kvEntry s x pg; kvState e == 1 && !bit e 3)

/-- An item that ends with NO_PAGE: the choice is counted and event 0x0307 recorded (R176, R390). -/
def noPage (s : State) (k : Nat) (i : Item) (pool : Nat) : State :=
  let x := qCtx k
  logCtx (countChoice s 6 x i.step (castingOf i.phys)) 0x0307 (castingOf i.phys) x i.step
    [x, pool, nearFree s x, farFree s x]

/-- How one page of a KV item ends: processed, with the units lost; free in a GATHER; waiting; or ending the item. -/
inductive KvRes where
  | ok (ue : Nat)
  | free (ue : Nat)
  | wait
  | stop (status detail : Nat)
deriving DecidableEq, Repr

/-- Sets REF of a page (R172). -/
def setRef (s : State) (x pg : Nat) : State :=
  let e := kvEntry s x pg
  if bit e 2 then s else setEntry s x pg (e + 4)

/-- Abandons a move towards far (Table 4.11): its entry is left to the caller. -/
def abandon (s : State) (x pg : Nat) (m : PageMove) : State := setFar (dropMove s x pg) x m.far false

/-- An item that needs a near slot with none free: it waits for the sweep, or ends (R175, R176). -/
def needSlot (s : State) (k : Nat) (i : Item) : State × KvRes :=
  let x := qCtx k
  if sweepMoving s x || canSpill s x then
    (if s.ladle.sweeping.contains x then s else s.withLadle { s.ladle with sweeping := s.ladle.sweeping ++ [x] }, .wait)
  else (noPage s k i 0, .stop 0x23 0)

/-- GATHER of one page (R174, R178). `err` loses bytes of the destination. -/
def kvGather (s : State) (k : Nat) (i : Item) (n pg : Nat) : State × KvRes :=
  let x := qCtx k
  let e := kvEntry s x pg
  let first := bits (i.w 8) 0 9 * 128
  let len := (bits (i.w 8) 16 9 + 1) * 128
  let dst := i.w64 5 + n * len
  let near := kvState e == 1 || (kvState e == 3 && !bit e 4)
  if kvState e = 0 then
    let w := ladleWrite s k i dst (loseBytes i.err (n * len) (List.replicate len (some 0)))
    (w.1, .free w.2)
  else
    let a := (if near then kvNearAddr s x (kvNear e) else kvFarAddr s x (kvFar e)) + first
    let r := ladleRead s k i a len
    let w := ladleWrite r.1 k i dst (loseBytes i.err (n * len) r.2.1)
    (setRef w.1 x pg, .ok (r.2.2 + w.2))

/-- Writes the lines of a SCATTER to a slot. -/
def kvStore (s : State) (k : Nat) (i : Item) (n pg slot : Nat) : State × KvRes :=
  let first := bits (i.w 8) 0 9 * 128
  let len := (bits (i.w 8) 16 9 + 1) * 128
  let r := ladleRead s k i (i.w64 5 + n * len) len
  let w := ladleWrite r.1 k i (slot + first) (loseBytes i.err (n * len) r.2.1)
  (setRef w.1 (qCtx k) pg, .ok (r.2.2 + w.2))

/-- SCATTER of one page (R174, R178). -/
def kvScatter (s : State) (k : Nat) (i : Item) (n pg : Nat) : State × KvRes :=
  let x := qCtx k
  let e := kvEntry s x pg
  match kvState e with
  | 0 => match takeNear s x with
    | none => needSlot s k i
    | some (slot, s1) =>
      let first := bits (i.w 8) 0 9
      let nl := bits (i.w 8) 16 9 + 1
      let s2 := (ladleWrite s1 k i (kvNearAddr s x slot) (List.replicate (first * 128) (some 0))).1
      let s3 := (ladleWrite s2 k i (kvNearAddr s x slot + (first + nl) * 128)
        (List.replicate ((512 - first - nl) * 128) (some 0))).1
      kvStore (setEntry s3 x pg (mkEntry 0 1 0 slot 0)) k i n pg (kvNearAddr s x slot)
  | 1 => kvStore s k i n pg (kvNearAddr s x (kvNear e))
  | 2 => kvStore s k i n pg (kvFarAddr s x (kvFar e))
  | _ => match moveOf s x pg with
    | none => (s, .wait)
    | some m =>
      if m.toNear then (s, .wait) else
      let s1 := cntAdd (setEntry (abandon s x pg m) x pg (mkEntry e 1 0 m.near 0)) LDL_KV_ABORT_CNT_LO 1
      kvStore s1 k i n pg (kvNearAddr s x m.near)

/-- SPILL of one page: a NEAR page begins to move to the far pool (R174, R176). -/
def kvSpill (s : State) (k : Nat) (i : Item) (pg : Nat) : State × KvRes :=
  let x := qCtx k
  let e := kvEntry s x pg
  if kvState e ≠ 1 then (s, .ok 0) else
  match takeFar s x with
  | none => (noPage s k i 1, .stop 0x23 1)
  | some (f, s1) => (addMove s1 ⟨x, pg, false, kvNear e, f, some (k, i.index)⟩ e, .ok 0)

/-- FETCH of one page: a FAR page begins to move to the near pool. -/
def kvFetch (s : State) (k : Nat) (i : Item) (pg : Nat) : State × KvRes :=
  let x := qCtx k
  let e := kvEntry s x pg
  if kvState e ≠ 2 then (s, .ok 0) else
  match takeNear s x with
  | none => needSlot s k i
  | some (n, s1) => (addMove s1 ⟨x, pg, true, n, kvFar e, some (k, i.index)⟩ e, .ok 0)

/-- FREE of one page (R174, Table 4.11). -/
def kvFree (s : State) (k pg : Nat) : State × KvRes :=
  let x := qCtx k
  let e := kvEntry s x pg
  match kvState e with
  | 0 => (s, .ok 0)
  | 1 => (setNear (setEntry s x pg 0) x (kvNear e) false, .ok 0)
  | 2 => (setFar (setEntry s x pg 0) x (kvFar e) false, .ok 0)
  | _ => match moveOf s x pg with
    | none => (s, .wait)
    | some m =>
      if m.toNear then (s, .wait) else
      (cntAdd (setNear (setEntry (abandon s x pg m) x pg 0) x m.near false) LDL_KV_ABORT_CNT_LO 1, .ok 0)

/-- PIN or UNPIN of one page (R174); it waits for a move of the page (R173). -/
def kvPin (s : State) (k pg : Nat) (pin : Bool) : State × KvRes :=
  let x := qCtx k
  let e := kvEntry s x pg
  match kvState e with
  | 0 => (s, .ok 0)
  | 3 => (s, .wait)
  | _ => (if bit e 3 = pin then s else setEntry s x pg (setBits e 3 1 (b2n pin)), .ok 0)

/-- One page of a KV item. -/
def kvPage (s : State) (k : Nat) (i : Item) (n pg : Nat) : State × KvRes :=
  match ladleSub i with
  | 0 => kvGather s k i n pg
  | 1 => kvScatter s k i n pg
  | 2 => kvSpill s k i pg
  | 3 => kvFetch s k i pg
  | 4 => kvFree s k pg
  | 5 => kvPin s k pg true
  | _ => kvPin s k pg false

/-- The weight of a status among several that one item finds (log entry 26): what ended the item, then lost data, then
what it passed over. -/
def foundRank (st : Nat) : Nat := if st = 0 then 0 else if st = 0x24 ∨ st = 0x28 then 1 else if st = 0x20 then 2 else 3

/-- The weightier of two findings; of equals the first; lost units add up. A DETAIL beside OK is kept (R383). -/
def noteFound (old new : Nat × Nat) : Nat × Nat :=
  if old.1 = 0x20 ∧ new.1 = 0x20 then (0x20, old.2 + new.2)
  else if foundRank old.1 < foundRank new.1 ∨ old = (0, 0) then new
  else old

/-- Whether an item's own page move is under way. -/
def ownsMove (s : State) (k idx : Nat) : Bool := s.ladle.moves.any (fun m => m.owner == some (k, idx))

/-- Records an item's progress. -/
def kvNote (s : State) (k idx prog : Nat) (new : Nat × Nat) : State :=
  setItem s k idx (fun i => { i with prog := prog, found := noteFound i.found new })

/-- Processes the pages of a KV item from its progress on, in list order (R173). The list is given as its entries. -/
def kvRun (k : Nat) (i : Item) : List (Option Nat) → Nat → State → Act
  | [], _, s => ⟨s, 0, 0, 0, ownsMove s k i.index⟩
  | p :: t, n, s =>
    if ownsMove s k i.index then ⟨s, 0, 0, 0, true⟩ else
    match p with
    | none => ⟨s, 0x20, 1, 0, false⟩
    | some pg =>
      if kvEntries s (qCtx k) ≤ pg then ⟨s, 0x25, n, 0, false⟩ else
      let r := kvPage s k i n pg
      match r.2 with
      | .ok ue => kvRun k i t (n + 1) (kvNote r.1 k i.index (n + 1) (if ue = 0 then (0, 0) else (0x20, ue)))
      | .free ue => kvRun k i t (n + 1) (kvNote (kvNote r.1 k i.index (n + 1) (if ue = 0 then (0, 0) else (0x20, ue)))
          k i.index (n + 1) (0x24, n))
      | .wait => ⟨r.1, 0, 0, 0, true⟩
      | .stop st d => ⟨r.1, st, d, 0, false⟩

/-- Acts on a KV item, or goes on with it. -/
def actKv (s : State) (k : Nat) (i : Item) : Act :=
  let n := bits (i.w 7) 0 17
  let left := n - i.prog
  let r := ladleRead s k i (i.w64 3 + 4 * i.prog) (4 * left)
  kvRun k i ((chunksOf 4 left r.2.1).map obNum) i.prog r.1

/-- Whether a KV item waits for a near slot. -/
def waitsSlot (s : State) (k : Nat) (i : Item) : Bool :=
  let x := qCtx k
  let pg := (obNum (ladleRead s k i (i.w64 3 + 4 * i.prog) 4).2.1).getD 0
  let e := kvEntry s x pg
  i.op == 0x40 && i.lop == 5 && i.phase == .issued && !i.acted && decide (i.prog < bits (i.w 7) 0 17) &&
  !ownsMove s k i.index && decide (pg < kvEntries s x) && nearFree s x == 0 &&
  ((ladleSub i == 1 && kvState e == 0) || (ladleSub i == 3 && kvState e == 2))

/-- The walk of a spill sweep (R175): clears REF of the pages it passes, up to the first page to spill. -/
def sweepWalk (x : Nat) : Nat → State → State × Option Nat
  | 0, s => (s, none)
  | f + 1, s =>
    let n := kvEntries s x
    if n = 0 then (s, none) else
    let pg := spGet s.ladle.sweepAt x 0 % n
    let e := kvEntry s x pg
    let s1 := s.withLadle { s.ladle with sweepAt := spPut s.ladle.sweepAt x ((pg + 1) % n) 0 }
    if kvState e = 1 ∧ bit e 3 = false then
      if bit e 2 then sweepWalk x f (setEntry s1 x pg (e - 4)) else (s1, some pg)
    else sweepWalk x f s1

/-- The end of a page move (R177): the slot's 64 KiB are copied, the entry is written once, the old slot is freed.
Answers the units lost. -/
def endMove (s : State) (m : PageMove) : State × Nat :=
  let g := itemAgent m.ctx 0
  let near := kvNearAddr s m.ctx m.near
  let far := kvFarAddr s m.ctx m.far
  let r := devRead s g (if m.toNear then far else near) 65536
  let w := devWrite r.1 g (if m.toNear then near else far) r.2.1
  let e := kvEntry s m.ctx m.page
  let s1 := cntAdd (dropMove w.1 m.ctx m.page) LDL_MOVED_CNT_LO 512
  if m.toNear then
    (cntAdd (setFar (setEntry s1 m.ctx m.page (mkEntry e 1 0 m.near 0)) m.ctx m.far false) LDL_KV_FETCH_CNT_LO 1, r.2.2)
  else
    (cntAdd (setNear (setEntry s1 m.ctx m.page (mkEntry e 2 0 0 m.far)) m.ctx m.near false) LDL_KV_SPILL_CNT_LO 1, r.2.2)

end Sys2Proof.Machine
end

