-- ==== Sys2Proof/Machine/Ladle.lean ====
section
/-! DEFINITION. The Ladle's items from issue to their end: copies, fills, KV, run-ahead, atomics, triggers and provenance,
with the requests that they send (R153 to R158, R173 to R183, R188, R349, R353 to R357, R360, R392). -/
namespace Sys2Proof.Machine
open Reg

/-- The regions of a PROV list: address, length, kind, and whether the record is well formed (R392, log entry 25). -/
def provRegions (bs : List OByte) : List (Option (Nat × Nat × Nat × Bool)) :=
  (chunksOf 16 bs.length bs).map (fun r => (obNats r).map (fun l =>
    let num (o n : Nat) : Nat := ((l.drop o).take n).foldr (fun b a => b + 256 * a) 0
    (num 0 8, num 8 5, num 13 1, decide (num 8 5 ≠ 0) && decide (1 ≤ num 13 1 ∧ num 13 1 ≤ 4) && num 14 2 == 0)))

/-- The PROV list of an item. -/
def provList (s : State) (k : Nat) (i : Item) : List OByte := (ladleRead s k i (i.w64 3) (16 * bits (i.w 5) 0 9)).2.1

/-- The extents that an item reads (false) and writes (true) at addresses known when it is accepted. -/
def ladleExtents (i : Item) : List (Nat × Nat × Bool) :=
  match i.lop with
  | 1 => [(i.w64 3, i.w 7, false), (i.w64 5, i.w 7, true)]
  | 2 => (copyRows i).flatMap (fun r => [(r.1, i.w 7, false), (r.2, i.w 7, true)])
  | 3 => [(i.w64 5, i.w 7, true)]
  | 4 =>
    let b := convBody i
    [(b.src, b.srcBytes, false), (b.srcScale, b.srcScaleBytes, false)] ++ b.writes.map (fun e => (e.1, e.2, true)) ++
    (if b.readsScale then [(b.dstScale, b.dstScaleBytes, false)] else []) ++
    (if b.writesScale then [(b.dstScale, b.dstScaleBytes, true)] else [])
  | 5 =>
    let n := bits (i.w 7) 0 17
    let data := n * 128 * (bits (i.w 8) 16 9 + 1)
    (i.w64 3, 4 * n, false) :: (match ladleSub i with
      | 0 => [(i.w64 5, data, true)]
      | 1 => [(i.w64 5, data, false)]
      | _ => [])
  | 8 => if i.w64 12 = 0 then [] else [(i.w64 12, 4, false)]
  | 0x0D => [(i.w64 3, 64, false), (i.w64 3, 64, true)]
  | 0x0E => [(i.w64 3, 16 * bits (i.w 5) 0 9, false), (i.w64 6, if i.w64 6 = 0 then 0 else 48, false), (i.w64 8, 48, true)]
  | _ => []

/-- The operand bytes that an atomic request carries: AOP, OPERAND and COMPARE. -/
def atomicData (i : Item) : List Byte :=
  leBytes 1 (bits (i.w 5) 0 4) ++ leBytes 8 (i.w64 6) ++ leBytes 8 (i.w64 8)

/-- Whether an item has a request of a kind. -/
def hasReq (s : State) (k : Nat) (i : Item) (kind : Nat) : Bool := (itemReqs s k i.index).any (fun r => r.kind == kind)

/-- Sends the requests that an item still needs before it can act. -/
def ladlePrepare (s : State) (k : Nat) (i : Item) : State :=
  let s1 := (ladleExtents i).foldl (fun st e => fetchExtent st k i e.1 e.2.1 e.2.2) s
  match i.lop with
  | 0x0B =>
    if !foreign s (i.w64 3) || hasReq s k i 2 || hasReq s k i 14 then s1 else
    addReq s1 k i (if 2 ^ 48 ≤ i.w64 3 then 2 else 14) (i.w64 3) (if bits (i.w 5) 0 4 = 0 then 4 else 8) (atomicData i)
  | 0x0C => if hasReq s k i 3 then s1 else
      addReq s1 k i 3 (2 ^ 48 * bits (i.w 3) 0 16 + bits (i.w 3) 16 8) 0 (leBytes 8 (i.w64 4))
  | 0x0E => if waitingReqs s1 k i.index then s1 else
      (provRegions (provList s1 k i)).foldl (fun st r => match r with
        | some (a, n, _, true) => if readOk st (qCtx k) (qCru k) a n then fetchExtent st k i a n false else st
        | _ => st) s1
  | _ => s1

/-- The result of an atomic operation (R354): `w` bytes wide. -/
def atomicOp (aop w old operand compare : Nat) : Nat :=
  let m := 2 ^ (8 * w)
  match aop with
  | 0 | 1 => (old + operand) % m
  | 2 => old ||| operand
  | 3 => old &&& operand
  | 4 => max old operand
  | 5 => min old operand
  | 6 => operand
  | _ => if old = compare then operand else old

/-- Whether an ATOMIC depends on timing (R355). -/
def atomicTimed (i : Item) : Bool := bits (i.w 5) 0 4 == 6 || bits (i.w 5) 0 4 == 7 || bit (i.w 5) 8

/-- Writes the FETCH result of an ATOMIC, eight bytes; lost, it is all ones (R357). -/
def atomicResult (s : State) (k : Nat) (i : Item) (old : Option Nat) : State × Nat :=
  if bit (i.w 5) 8 then ladleWrite s k i (i.w64 10) (match old with
    | some v => someBytes 8 v
    | none => List.replicate 8 none)
  else (s, 0)

/-- Acts on an ATOMIC (R354, R355): in local memory at once; elsewhere its request has been answered. -/
def actAtomic (s : State) (k : Nat) (i : Item) : Act :=
  let x := qCtx k
  let s0 := if atomicTimed i then countChoice s 3 x i.step (castingOf i.phys) else s
  let a := i.w64 3
  let aop := bits (i.w 5) 0 4
  let w := if aop = 0 then 4 else 8
  if foreign s a then
    let ans := (itemReqs s k i.index).find? (fun r => (r.kind == 2 || r.kind == 14) && r.answer.map (·.1) == some 0)
    let r := atomicResult s0 k i (ans.map (fun q => leNat (q.data.take w)))
    ⟨r.1, 0, 0, r.2, false⟩
  else
    let b := ownAddr s a
    let tier := match region s b with
      | .near | .far => true
      | _ => false
    if tier && isPoisoned s b then
      let r := ladleWrite s0 k i a (List.replicate w none)
      let q := atomicResult r.1 k i none
      ⟨q.1, 0, 0, r.2 + q.2, false⟩
    else
      let old := if tier then (s0, bytesAt s.mem b w, 0) else devRead s0 (itemAgent x i.phys) a w
      let o := leNat old.2.1
      let r := ladleWrite old.1 k i a (someBytes w (atomicOp aop w o (i.w64 6 % 2 ^ (8 * w)) (i.w64 8)))
      let q := atomicResult r.1 k i (some o)
      ⟨q.1, 0, 0, r.2 + q.2, false⟩

/-- Acts on a PROV (R392): the digest of the chain, or all ones where some of its bytes are lost. -/
def actProv (s : State) (k : Nat) (i : Item) : Act :=
  let lst := ladleRead s k i (i.w64 3) (16 * bits (i.w 5) 0 9)
  let regs := provRegions lst.2.1
  let bad := regs.zipIdx.find? (fun e => match e.1 with
    | some (a, n, _, ok) => !ok || !readOk s (qCtx k) (qCru k) a n || beyondOwn s a n
    | none => false)
  match bad with
  | some (_, n) => ⟨lst.1, 0x25, n, lst.2.2, false⟩
  | none =>
    let prev := if i.w64 6 = 0 then (lst.1, List.replicate 48 (some 0), 0) else ladleRead lst.1 k i (i.w64 6) 48
    let r := regs.foldl (fun (st : State × List OByte × Nat) e => match e with
      | some (a, n, kind, _) =>
        let d := ladleRead st.1 k i a n
        (d.1, st.2.1 ++ someBytes 8 kind ++ someBytes 8 n ++ d.2.1, st.2.2 + d.2.2)
      | none => (st.1, st.2.1 ++ [none], st.2.2)) (prev.1, prev.2.1, lst.2.2 + prev.2.2)
    let out : List OByte := match obNats (loseBytes i.err 0 r.2.1) with
      | some m => (sha384 m).map (fun b => some (BitVec.ofNat 8 b))
      | none => List.replicate 48 none
    let w := ladleWrite r.1 k i (i.w64 8) out
    ⟨w.1, 0, 0, r.2.2 + w.2, false⟩

/-- The global number of the stream that a RUNAHEAD item names (Table 4.12). -/
def streamNo (i : Item) : Nat := castingOf i.phys * 16 + bits (i.w 2) 24 4

/-- Acts on a RUNAHEAD item: ARM or CANCEL (R179, R180). -/
def actRunahead (s : State) (k : Nat) (i : Item) : Act :=
  let n := streamNo i
  let s1 := endStream s n
  if ladleSub i = 1 then ⟨s1, 0, 0, 0, false⟩
  else if raShare s = 0 then ⟨s1, 0x27, 0, 0, false⟩
  else
    let kv := bit (i.w 6) 31
    let old := streamAt s1 n
    ⟨setStream s1 n
      ⟨1, qCtx k, k, kv, i.w64 3, if kv then 0 else i.w 5, if kv then 512 else bits (i.w 6) 0 13 + 1, i.w 7,
       bits (i.w 8) 0 16, bits (i.w 8) 16 16, 0, bits (i.w 8) 0 16, 0, old.buf.filter (fun b => !b.ready), 0, 0⟩,
     0, 0, 0, false⟩

/-- The 32-bit words of a run of bytes; none where one is lost. -/
def wordsOf (bs : List OByte) : Option (List Nat) :=
  (obNats bs).map (fun l => (chunksOf 4 l.length l).map (fun c => c.foldr (fun b a => b + 256 * a) 0))

/-- Acts on an ASSAYCHK (R383). -/
def actAssay (s : State) (k : Nat) (i : Item) : Act :=
  let rec_ := i.w64 3
  let r := ladleRead s k i rec_ 64
  match wordsOf (loseBytes i.err 0 r.2.1) with
  | none => ⟨r.1, 0, 0, r.2.2, false⟩
  | some w =>
    let at_ (n : Nat) : Nat := w.getD n 0
    if at_ 2 ≠ rd s CUP_ASSAY_STEP ∨ at_ 8 % 4 ≠ 0 then ⟨r.1, 0, 1, r.2.2, false⟩ else
    let hi := at_ 5 != at_ 7
    let lo := at_ 4 != at_ 6
    let bad := hi || lo
    let q := ladleWrite r.1 k i (rec_ + 32) (someBytes 4 (if bad then 2 else 1))
    let st := rd s CUP_ASSAY_STAT
    let s1 := setReg q.1 CUP_ASSAY_STAT (setBits (setBits st 0 2 (if bad then 0 else 2)) 2 1 (b2n (bad || bit st 2)))
    if !bad then ⟨s1, 0, 0, r.2.2 + q.2, false⟩ else
    let s2 := logUnit (cntAdd s1 CUP_ASSAY_MM_CNT_LO 1) 0x0621 (castingOf i.phys)
      [at_ 2, at_ 0, at_ 1, at_ 4, at_ 5, at_ 6, at_ 7]
    ⟨s2, 0x2C, b2n hi + 2 * b2n lo, r.2.2 + q.2, false⟩

/-- COPY, COPY2D and FILL (R155): rows read and written in order. -/
def actRows (s : State) (k : Nat) (i : Item) (rows : List (Nat × Nat)) (n : Nat) : Act :=
  let r := rows.zipIdx.foldl (fun (st : State × Nat) e =>
    let d := ladleRead st.1 k i e.1.1 n
    let w := ladleWrite d.1 k i e.1.2 (loseBytes i.err (e.2 * n) d.2.1)
    (w.1, st.2 + d.2.2 + w.2)) (s, 0)
  ⟨r.1, 0, 0, r.2, false⟩

/-- The effect of an item whose data are at hand. -/
def ladleAct (s : State) (k : Nat) (i : Item) : Act :=
  if (ladleExtents i).any (fun e => beyondOwn s e.1 e.2.1) || (i.lop == 0x0B && beyondOwn s (i.w64 3) 8) then
    ⟨s, 0x25, 0, 0, false⟩
  else match i.lop with
  | 1 => actRows s k i [(i.w64 3, i.w64 5)] (i.w 7)
  | 2 => actRows s k i (copyRows i) (i.w 7)
  | 3 =>
    let w := ladleWrite s k i (i.w64 5) (loseBytes i.err 0 ((List.range (i.w 7 / 4)).flatMap (fun _ => someBytes 4 (i.w 8))))
    ⟨w.1, 0, 0, w.2, false⟩
  | 4 => actConvert s k i
  | 5 => actKv s k i
  | 6 => actRunahead s k i
  | 0x0B => actAtomic s k i
  | 0x0D => actAssay s k i
  | 0x0E => actProv s k i
  | _ => ⟨s, 0, 0, 0, false⟩

/-- The state without an item's requests. -/
def dropReqs (s : State) (k idx : Nat) : State :=
  s.withLadle { s.ladle with reqs := s.ladle.reqs.filter (fun r => !(r.queue == k && r.index == idx)) }

/-- Ends an item that has acted once its stores are answered: its status is that of a data error, of its own operation,
of an uncorrectable unit, or of its requests' answers, in that order (R157, R356, R364, log entry 26). -/
def settleLadle (s : State) (k idx : Nat) : State :=
  match findItem s k idx with
  | none => s
  | some i =>
    if i.phase != .issued || !i.acted || waitingReqs s k idx then s else
    let rs := reqStatus s (itemReqs s k idx)
    let fin : Nat × Nat := match i.err with
      | some e => (4, errDetail e)
      | none => if i.found.1 ≠ 0 ∨ rs.1 = 0 then i.found else rs
    itemDone (dropReqs s k idx) k idx fin.1 fin.2

/-- Carries an issued item on: requests what it needs, acts once all is at hand, and ends it once its stores are
answered. -/
def ladleAdvance (s : State) (k idx : Nat) : State :=
  match findItem s k idx with
  | none => s
  | some i =>
    if i.phase != .issued || isSweepOp i.lop then s else
    if i.acted then settleLadle s k idx else
    let s1 := ladlePrepare s k i
    if waitingReqs s1 k idx then s1 else
    let r := ladleAct s1 k i
    let new : Nat × Nat := if r.status ≠ 0 then (r.status, r.detail) else if r.ue ≠ 0 then (0x20, r.ue) else (0, r.detail)
    let s2 := setItem r.st k idx (fun j => { j with acted := !r.wait, found := noteFound j.found new })
    let s3 := match i.err with
      | some e => if r.wait then s2 else parityFound s2 e.code (castingOf i.phys) e.line i.index
      | none => s2
    orWait s1 (settleLadle s3 k idx)

/-- LDL items of a crucible that its slice holds (Table 3.2). -/
def ladleHeld (s : State) (c : Nat) : Nat :=
  ((List.range 128).map (fun r => (qOf s (c * 128 + r)).items.countP (fun i => i.op == 0x40 && i.phase == .issued))).sum

/-- Issues an LDL item, with the parity error that its data meet, and carries it on. -/
def ladleStart (s : State) (k idx : Nat) (e : Option DataErr) : State :=
  ladleAdvance (setItem (issueItem s k idx) k idx (fun j => { j with err := e })) k idx

/-- Issues the next item of a queue where it is one of these, or carries on one that waits. `err` is a parity error of
the unit codes given. -/
def ladleCommand (s : State) (c x q : Nat) (isOp : Item → Bool) (codes : List Nat) (err : Option DataErr) : State :=
  let k := qKey c x q
  match (issuable s k 0x40).filter (fun i => isOp i && decide (ladleHeld s c < 16)) with
  | some i => ladleStart s k i.index (errFor s codes err)
  | none => match (qOf s k).items.find? (fun i => i.op == 0x40 && isOp i && i.phase == .issued && !i.acted &&
      !waitingReqs s k i.index) with
    | some i => ladleAdvance s k i.index
    | none => s

/-- Unit codes that a Ladle item's data can meet: scratchpad, casting buffer, Ladle stages, port (Table 10.1). -/
def ladleCodes : List Nat := [1, 6, 7, 8]

/-- COPY (R155). -/
def execCopy (c x q : Nat) (err : Option DataErr) (s : State) : Host.Outcome State Fault Refusal :=
  .next (ladleCommand s c x q (fun i => i.lop == 1) ladleCodes err)
/-- COPY2D (R155). -/
def execCopy2d (c x q : Nat) (err : Option DataErr) (s : State) : Host.Outcome State Fault Refusal :=
  .next (ladleCommand s c x q (fun i => i.lop == 2) ladleCodes err)
/-- FILL (R155). -/
def execFill (c x q : Nat) (err : Option DataErr) (s : State) : Host.Outcome State Fault Refusal :=
  .next (ladleCommand s c x q (fun i => i.lop == 3) ladleCodes err)
/-- CONVERT (R159 to R170). Its data can also meet the turn port's and the verify mode's errors. -/
def execConvert (c x q : Nat) (err : Option DataErr) (s : State) : Host.Outcome State Fault Refusal :=
  .next (ladleCommand s c x q (fun i => i.lop == 4) (ladleCodes ++ [5, 13]) err)

/-- Carries on every KV item of a context that waits. -/
def resumeKv (s : State) (x : Nat) : State :=
  s.queues.foldl (fun st e => if qCtx e.1 = x then
    e.2.items.foldl (fun st2 i => if i.op = 0x40 ∧ i.lop = 5 ∧ i.phase = .issued ∧ ¬ i.acted then
      ladleAdvance st2 e.1 i.index else st2) st else st) s

/-- A KV item of one sub-operation; a move that it abandons frees the item that waits for it. -/
def kvCommand (s : State) (c x q sub : Nat) (err : Option DataErr) : State :=
  let s1 := ladleCommand s c x q (fun i => i.lop == 5 && ladleSub i == sub) ladleCodes err
  if s1.ladle.moves.length < s.ladle.moves.length then resumeKv s1 x else s1

/-- GATHER (R174). -/
def execGather (c x q : Nat) (err : Option DataErr) (s : State) : Host.Outcome State Fault Refusal :=
  .next (kvCommand s c x q 0 err)
/-- SCATTER (R174). -/
def execScatter (c x q : Nat) (err : Option DataErr) (s : State) : Host.Outcome State Fault Refusal :=
  .next (kvCommand s c x q 1 err)
/-- SPILL (R174). -/
def execSpill (c x q : Nat) (err : Option DataErr) (s : State) : Host.Outcome State Fault Refusal :=
  .next (kvCommand s c x q 2 err)
/-- FETCH (R174). -/
def execFetch (c x q : Nat) (err : Option DataErr) (s : State) : Host.Outcome State Fault Refusal :=
  .next (kvCommand s c x q 3 err)
/-- FREE (R174). -/
def execFree (c x q : Nat) (err : Option DataErr) (s : State) : Host.Outcome State Fault Refusal :=
  .next (kvCommand s c x q 4 err)
/-- PIN (R174). -/
def execPin (c x q : Nat) (err : Option DataErr) (s : State) : Host.Outcome State Fault Refusal :=
  .next (kvCommand s c x q 5 err)
/-- UNPIN (R174). -/
def execUnpin (c x q : Nat) (err : Option DataErr) (s : State) : Host.Outcome State Fault Refusal :=
  .next (kvCommand s c x q 6 err)

/-- Ends a context's spill sweep. -/
def stopSweep (s : State) (x : Nat) : State :=
  s.withLadle { s.ladle with sweeping := s.ladle.sweeping.filter (· != x) }

/-- Ends every item of a context that waits for a near slot (R176). -/
def endWaiters (s : State) (x pool : Nat) : State :=
  s.queues.foldl (fun st e => if qCtx e.1 = x then
    e.2.items.foldl (fun st2 i => if waitsSlot st2 e.1 i then
      let end_ (j : Item) : Item := { j with acted := true, found := noteFound j.found (0x23, pool) }
      let s1 := setItem (noPage st2 e.1 i pool) e.1 i.index end_
      settleLadle s1 e.1 i.index else st2) st else st) s

/-- Whether some item of a context waits for a near slot. -/
def anyWaiter (s : State) (x : Nat) : Bool := s.queues.any (fun e => qCtx e.1 == x && e.2.items.any (waitsSlot s e.1))

/-- One step of a context's spill sweep (R175, R176): it ends at SPILL_HI, begins the next spill, or finds nothing to
spill or no far slot. -/
def spillSweep (s : State) (x : Nat) : State :=
  if !s.ladle.sweeping.contains x || sweepMoving s x then s else
  if max (rd s (LDL_KV_SPILL_HI x)) (b2n (anyWaiter s x)) ≤ nearFree s x then stopSweep s x else
  let w := sweepWalk x (2 * kvEntries s x) s
  match w.2 with
  | none => endWaiters (stopSweep w.1 x) x 0
  | some pg => match takeFar w.1 x with
    | none => endWaiters (stopSweep w.1 x) x 1
    | some (f, s1) => let e := kvEntry s1 x pg; addMove s1 ⟨x, pg, false, kvNear e, f, none⟩ e

/-- KV_SPILL_SWEEP (R175). -/
def execKvSpillSweep (x : Nat) (s : State) : Host.Outcome State Fault Refusal := .next (orWait s (spillSweep s x))

/-- PAGE_MOVE_END (R177): a page's move ends, and the items that wait for it or for its slot go on. -/
def execPageMoveEnd (x pg : Nat) (s : State) : Host.Outcome State Fault Refusal :=
  match moveOf s x pg with
  | none => .next s
  | some m =>
    let r := endMove s m
    let s1 := match m.owner with
      | some (k, idx) => if r.2 = 0 then r.1 else setItem r.1 k idx (fun i => { i with found := noteFound i.found (0x20, r.2) })
      | none => r.1
    .next (orWait s (if s1.ingot.blocked then s1 else resumeKv s1 x))

/-- ARM (R179). -/
def execArm (c x q : Nat) (s : State) : Host.Outcome State Fault Refusal :=
  .next (ladleCommand s c x q (fun i => i.lop == 6 && ladleSub i == 0) [] none)
/-- RUNAHEAD_CANCEL (R180). -/
def execRunaheadCancel (c x q : Nat) (s : State) : Host.Outcome State Fault Refusal :=
  .next (ladleCommand s c x q (fun i => i.lop == 6 && ladleSub i == 1) [] none)

/-- Lines that the streams of a slice hold or await. -/
def areaLines (s : State) (slice : Nat) : Nat :=
  ((s.ladle.streams.filter (fun e => e.1 / 16 == slice)).map (fun e => e.2.buf.length)).sum

/-- The key under which a stream's own requests stand. -/
def streamKey (n : Nat) : Nat := 2 ^ 20 + n

/-- Fetches the next chunk of a stream, where its distance and the slice's area allow (R180). A window's lines are
peeked. -/
def raFetch (s : State) (n : Nat) : State :=
  let r := streamAt s n
  let next := max r.next r.pos
  if r.state ≠ 1 ∨ r.nchunk ≤ next ∨ r.pos + r.dist ≤ next then s else
  let lines := (List.range (if r.kv then 512 else r.lines)).filterMap (fun l => chunkLine s r next l)
  if raShare s * 32768 < areaLines s (n / 16) + lines.length then s else
  let fresh := lines.filter (fun a => !(r.buf.any (fun b => b.addr == a)))
  let more := fresh.map (fun a => (⟨a, next, false, false, false, [], none⟩ : RaLine))
  let s1 := cntAdd (setStream s n { r with next := next + 1, buf := r.buf ++ more }) LDL_RA_ISSUED_CNT_LO fresh.length
  fresh.foldl (fun st a => if foreign st a then
    let l := st.ladle
    let one : LReq := ⟨l.nextReq, n / 16, streamKey n, next, 16, a, 128, [], 1, none, none⟩
    st.withLadle { l with nextReq := l.nextReq + 1, reqs := l.reqs ++ [one] } else st) s1

/-- RUNAHEAD_FETCH (R180): the fetcher reads the next chunk of a stream. -/
def execRunaheadFetch (n : Nat) (s : State) : Host.Outcome State Fault Refusal := .next (raFetch s n)

/-- The stream with one of its awaited lines changed or, at none, dropped. -/
def setLine (s : State) (n addr : Nat) (f : RaLine → Option RaLine) : State :=
  let r := streamAt s n
  setStream s n { r with buf := r.buf.filterMap (fun b => if b.addr = addr ∧ ¬ b.ready then f b else some b) }

/-- A prefetched line of local memory arrives: buffered, buffered as poisoned, or dropped where its stream has ended
(R180 to R183). -/
def raArrive (s : State) (n addr : Nat) : State :=
  let r := streamAt s n
  match r.buf.find? (fun b => b.addr == addr && !b.ready) with
  | none => s
  | some b =>
    if foreign s addr then s else
    let t1 := tierRead s .item addr 64
    let t2 := tierRead t1.1 .item (addr + 64) 64
    if r.state ≠ 1 ∨ b.chunk + 1 < r.pos then
      cntAdd (setLine t2.1 n addr (fun _ => none)) LDL_RA_DISCARD_CNT_LO 1
    else if t1.2.2 + t2.2.2 ≠ 0 then
      logUnit (cntAdd (setLine t2.1 n addr (fun c => some { c with ready := true, poisoned := true }))
        LDL_RA_POISON_CNT_LO 1) 0x0308 (n / 16) ([n / 16, n % 16] ++ datum64 addr)
    else setLine t2.1 n addr (fun c => some { c with ready := true, data := t1.2.1 ++ t2.2.1 })

/-- RUNAHEAD_LINE_ARRIVE (R183). -/
def execRunaheadLineArrive (n addr : Nat) (s : State) : Host.Outcome State Fault Refusal := .next (raArrive s n addr)

/-- PEEK_AGE_LIMIT (R349): a peeked line held longer than 100,000 ticks is dropped without a CHECK. -/
def execPeekAgeLimit (n addr : Nat) (s : State) : Host.Outcome State Fault Refusal :=
  let r := streamAt s n
  let old (b : RaLine) : Bool := b.addr == addr && b.ready && (match b.peek with
    | some (_, _, t) => decide (t + 100000 < tickNow s)
    | none => false)
  let k := r.buf.countP old
  if k = 0 then .next s else
  .next (cntAdd (setStream s n { r with buf := r.buf.filter (fun b => !old b) }) LDL_RA_INVAL_CNT_LO k)

/-- ASSAYCHK (R383). -/
def execAssaychk (c x q : Nat) (err : Option DataErr) (s : State) : Host.Outcome State Fault Refusal :=
  .next (ladleCommand s c x q (fun i => i.lop == 0x0D) ladleCodes err)
/-- ATOMIC (R354). -/
def execAtomic (c x q : Nat) (err : Option DataErr) (s : State) : Host.Outcome State Fault Refusal :=
  .next (ladleCommand s c x q (fun i => i.lop == 0x0B) ladleCodes err)
/-- TRIGGER (R360). -/
def execTrigger (c x q : Nat) (s : State) : Host.Outcome State Fault Refusal :=
  .next (ladleCommand s c x q (fun i => i.lop == 0x0C) [] none)
/-- PROV (R392). -/
def execProv (c x q : Nat) (err : Option DataErr) (s : State) : Host.Outcome State Fault Refusal :=
  .next (ladleCommand s c x q (fun i => i.lop == 0x0E) ladleCodes err)

/-- The message of a request kind (Table 9.3). -/
def reqName (kind : Nat) : String :=
  match kind with
  | 0 => "LOAD"
  | 1 => "STORE"
  | 2 => "ATOMIC"
  | 3 => "TRIGGER"
  | 10 => "RD_S"
  | 11 => "RD_X"
  | 12 => "RD_ONCE"
  | 13 => "WR"
  | 14 => "AT"
  | 15 => "WB"
  | 16 => "PEEK"
  | 17 => "CHECK"
  | 19 => "BCAST_CHUNK"
  | _ => "STORE"

/-- The destination of a request: its home for a window request, an ADDR otherwise (R350). -/
def reqDest (s : State) (r : LReq) : Nat := match region s r.addr with
  | .window f _ => posDest s f
  | _ => bits (rd s SPR_SELF) 0 16 ^^^ r.addr / 2 ^ 48

/-- The key under which the write-backs of a context's evictions stand. -/
def evictKey (x : Nat) : Nat := 2 ^ 21 + x
/-- The key under which an interface's requests to other windows stand (R340): 0 is PCIe; from then on an MCTP endpoint
or an I3C address, with the kind of its source. -/
def hostKey (src : Src) : Nat := 2 ^ 22 + (srcKind src).1 + 8 * (srcKind src).2
/-- The source of such a request. -/
def keySrc (k : Nat) : Src :=
  let n := k - 2 ^ 22
  if n % 8 = 2 then .mctp (n / 8) else if n % 8 = 3 then .i3c (n / 8) else .pcie
/-- The context of a request: of its item, of its run-ahead stream, or of the eviction that it carries. -/
def reqCtx (s : State) (r : LReq) : Nat :=
  if 2 ^ 22 ≤ r.queue then (bar2Tag s).getD 0
  else if evictKey 0 ≤ r.queue then r.queue - evictKey 0
  else if streamKey 0 ≤ r.queue then (streamAt s (r.queue - streamKey 0)).ctx
  else qCtx r.queue

/-- Response slots of a slice (R188). -/
def sliceSlots : Nat := 4096

/-- Whether a cut holds a request: new window requests wait from the request of a cut until it is taken (R358), and
remote requests of masked contexts from the acceptance of a SWEEP until the step cut (R407). -/
def cutHoldsReq (s : State) (r : LReq) : Bool :=
  if 19 ≤ r.kind then false
  else if 10 ≤ r.kind then s.ingot.want.isSome
  else ingOn s && bit (rd s CUP_ING_CTXMASK) (qCtx r.queue) &&
    (s.ingot.want.map (·.1) == some 1 ||
      s.queues.any (fun e => e.2.items.any (fun i => i.op == 0x40 && i.lop == 8 && qCtx e.1 == sweepOwner s)))

/-- The state with one request changed. -/
def setReq (s : State) (id : Nat) (f : LReq → LReq) : State :=
  s.withLadle { s.ladle with reqs := s.ladle.reqs.map (fun r => if r.id = id then f r else r) }

/-- Sends a request once its response slots are reserved (R188, R357). -/
def sendReq (s : State) (id : Nat) : State :=
  match s.ladle.reqs.find? (fun r => r.id == id && r.issued.isNone) with
  | none => s
  | some r =>
    let used := spGet s.ladle.slots r.slice 0
    if sliceSlots < used + r.slots || cutHoldsReq s r then s else
    let s1 := setReq (s.withLadle { s.ladle with slots := spPut s.ladle.slots r.slice (used + r.slots) 0 }) id
      (fun q => { q with issued := some (tickNow s) })
    let x := reqCtx s r
    sendMsg s1 (reqName r.kind) (reqDest s r) ([r.id, r.kind] ++ datum64 r.addr ++
      [r.bytes, rd s CUP_ING_CUT_STEP % 65536] ++ r.data.map (·.toNat)) 3 (sliceTag s x) (phaseOf s x) 0 r.data.length x

/-- LADLE_REQUEST_ISSUE (R188). -/
def execLadleRequestIssue (id : Nat) (s : State) : Host.Outcome State Fault Refusal := .next (sendReq s id)

/-- What an interface is given for a read (R441, R512): a completion, or a management response. -/
def answerHost (s : State) (src : Src) (tag value width : Nat) (poisoned : Bool) : State :=
  match src with
  | .mctp _ | .i3c _ => respond s src tag 1 0 [value]
  | _ => emit s (.readData src value width poisoned)

/-- The answer of an interface's request to another window: the data of a read, with poison as 0xFF (R512). -/
def hostAnswered (s : State) (r : LReq) (code detail : Nat) (data : List Byte) : State :=
  let src := keySrc r.queue
  if r.kind ≠ 12 then s
  else if code = 3 ∨ code = 4 then (match src with
    | .mctp _ | .i3c _ => respond s src r.index 1 1 []
    | _ => emit s (.unsupported src))
  else
    let off := r.addr % 128
    let d := (data ++ List.replicate 128 0).take 128
    let bad (i : Nat) : Bool := code == 2 || (code == 1 && bit detail (i / 64))
    let bs := ((d.zipIdx.map (fun e => if bad e.2 then 0xFF else e.1)).drop off).take r.bytes
    answerHost s src r.index (leNat bs) r.bytes (code != 0)

/-- Records the answer of a request, releases its slots, and carries its item on. -/
def answerReq (s : State) (r : LReq) (code detail : Nat) (data : List Byte) : State :=
  let used := spGet s.ladle.slots r.slice 0
  let s1 := setReq (s.withLadle { s.ladle with slots := spPut s.ladle.slots r.slice (used - r.slots) 0 }) r.id
    (fun q => { q with answer := some (code, detail), data := if data.isEmpty then q.data else data })
  if 2 ^ 22 ≤ r.queue then
    let s2 := s1.withLadle { s1.ladle with reqs := s1.ladle.reqs.filter (fun q => q.id != r.id) }
    hostAnswered s2 r code detail data
  else if streamKey 0 ≤ r.queue then s1.withLadle { s1.ladle with reqs := s1.ladle.reqs.filter (fun q => q.id != r.id) }
  else ladleAdvance s1 r.queue r.index

/-- A request that is out and not answered. -/
def openReq (s : State) (id : Nat) : Option LReq :=
  s.ladle.reqs.find? (fun r => r.id == id && r.issued.isSome && r.answer.isNone)

/-- Symbols that a tier's code corrects and detects in a unit (R184). -/
def eccLimits (a : Nat) : Nat × Nat := if inNear a then (2, 6) else (1, 3)

/-- A read of a unit in which the storage shows `symbols` erroneous symbols (R184): corrected, uncorrectable, or, beyond
what the code detects, one or the other at random (log entry 27). -/
def unitRead (s : State) (r : Reader) (a symbols : Nat) : State :=
  let s1 := cntAdd s (tierGroup a + 0x20) 1
  let lim := eccLimits a
  if isPoisoned s a then tierUe s1 r a
  else if symbols = 0 then s1
  else if symbols ≤ lim.1 then tierCe s1 a symbols
  else if symbols ≤ lim.2 then tierUe (setPoison s1 a true) r a
  else
    let d := drawNat s1
    if d.1 % 2 = 0 then tierUe (setPoison d.2 a true) r a else d.2

/-- Whether an address lies in a tier. -/
def inTier (s : State) (a : Nat) : Bool := match region s a with
  | .near | .far | .shakeout => true
  | _ => false

/-- MEMORY_REQUEST (R184, R185, R189): a tier controller serves a read of a 64-byte unit, whose storage shows erroneous
symbols, or a write of bytes within one. -/
def execMemoryRequest (write : Bool) (addr symbols : Nat) (data : List Byte) (s : State) :
    Host.Outcome State Fault Refusal :=
  if !inTier s addr then .next s
  else if write then
    if data.isEmpty || decide (64 < addr % 64 + data.length) then .next s
    else .next (orWait s (tierWrite (raInvalidate (homePass (copyOnWrite s addr) addr true 0) addr) .item addr data).1)
  else .next (unitRead s .item (addr / 64 * 64) symbols)

/-- SCRUB_UNIT (R186): reads a unit and writes it back corrected; `last` ends the pass of its stack or controller. -/
def execScrubUnit (addr symbols : Nat) (last : Bool) (s : State) : Host.Outcome State Fault Refusal :=
  if !inTier s addr then .next s else
  let g := tierGroup addr
  if !bit (rd s (g + 4)) 16 then .next s else
  let a := addr / 64 * 64
  let u := if inNear a then nearStack a else 8 + farCtl a
  let s1 := cntAdd (unitRead s .scrub a symbols) (g + 0x28) 1
  let bad := spGet s1.ladle.scrubUe u 0 + b2n (isPoisoned s1 a)
  let s2 := s1.withLadle { s1.ladle with scrubUe := spPut s1.ladle.scrubUe u (if last then 0 else bad) 0 }
  if !last then .next s2 else
  let s3 := cntAdd s2 (g + 0x30) 1
  .next (if bad = 0 then s3 else logUnit s3 0x0309 u [u, bad])

end Sys2Proof.Machine
end

