-- ==== Sys2Proof/Machine/Sweep.lean ====
section
/-! DEFINITION. The update sweep, its check and its early staging, the loss-scale loop, spikes and assays (R193 to R230,
R381 to R384). -/
namespace Sys2Proof.Machine
open Reg

/-- A sweep table entry (Table 5.2). -/
structure SwEntry where
  idx    : Nat
  addr   : Nat
  words  : List Nat
deriving DecidableEq, Repr

/-- A word of an entry. -/
def SwEntry.w (e : SwEntry) (n : Nat) : Nat := e.words.getD n 0
/-- A pair of words of an entry. -/
def SwEntry.w64 (e : SwEntry) (n : Nat) : Nat := e.w n + 2 ^ 32 * e.w (n + 1)
/-- TENSOR. -/
def SwEntry.tensor (e : SwEntry) : Nat := bits (e.w 0) 0 24
/-- WFMT. -/
def SwEntry.wfmt (e : SwEntry) : Nat := bits (e.w 0) 24 4
/-- EARLY. -/
def SwEntry.early (e : SwEntry) : Bool := bit (e.w 0) 28
/-- FROZEN. -/
def SwEntry.frozen (e : SwEntry) : Bool := bit (e.w 0) 29
/-- SIDE. -/
def SwEntry.side (e : SwEntry) : Nat := bits (e.w 0) 30 1
/-- VALID. -/
def SwEntry.valid (e : SwEntry) : Bool := bit (e.w 0) 31
/-- NORM_LANE. -/
def SwEntry.lane (e : SwEntry) : Nat := bits (e.w 1) 0 16
/-- HYP. -/
def SwEntry.hyp (e : SwEntry) : Nat := bits (e.w 1) 16 8
/-- CLIP. -/
def SwEntry.clip (e : SwEntry) : Nat := bits (e.w 1) 24 2
/-- STAGED. -/
def SwEntry.staged (e : SwEntry) : Bool := bit (e.w 1) 26
/-- COUNT. -/
def SwEntry.count (e : SwEntry) : Nat := bits (e.w64 2) 0 40
/-- The far rows of a side. -/
def SwEntry.far (e : SwEntry) (side : Nat) : Nat := e.w64 12 + side * e.w 14 * 65536
/-- The near staging offset in bytes. -/
def SwEntry.stage (e : SwEntry) : Nat := 65536 * e.w 15
/-- Bytes of the working copy. -/
def SwEntry.workBytes (e : SwEntry) : Nat := elemBytes e.wfmt e.count

/-- A hyperparameter set (Table 5.3). -/
structure HypSet where
  lr : Word
  beta1 : Word
  beta2 : Word
  eps : Word
  wd : Word
  gmul : Word
  clipThr : Word
  skipThr : Word
  p1 : Word
  p2 : Word
deriving DecidableEq, Repr

/-- The set that words hold. -/
def hypOf (w : List Nat) : HypSet :=
  let f (n : Nat) : Word := BitVec.ofNat 32 (w.getD n 0)
  ⟨f 0, f 1, f 2, f 3, f 4, f 5, f 6, f 7, f 8, f 9⟩

/-- 1.0. -/
def fOne : Word := 0x3F800000#32
/-- Whether a value is zero or more. -/
def fNonNeg (w : Word) : Bool := fp32Le 0#32 w
/-- Whether a value is above zero. -/
def fPos (w : Word) : Bool := fp32Lt 0#32 w

/-- Whether a set is malformed (R198). A reserved word that is not zero makes it so too (log entry 28). -/
def hypBad (w : List Nat) : Bool :=
  let h := hypOf w
  let unitOpen (v : Word) : Bool := fNonNeg v && fp32Lt v fOne
  !(fNonNeg h.lr && fp32Finite h.lr && fNonNeg h.wd && fp32Finite h.wd && unitOpen h.beta1 && unitOpen h.beta2 &&
    fPos h.eps && fp32Finite h.eps && fPos h.gmul && fp32Finite h.gmul && fPos h.clipThr &&
    !fpIsNan (fp32 h.skipThr) && fNonNeg h.p1 && fp32Le h.p1 fOne && fNonNeg h.p2 && fp32Le h.p2 fOne) ||
  (w.drop 10).any (· != 0)

/-- The addresses of a sweep item: its table, its sets and its check record, and its first entry and their number. -/
structure SweepArgs where
  table : Nat
  hyp : Nat
  check : Nat
  first : Nat
  num : Nat
deriving DecidableEq, Repr

/-- The arguments of an item of Table 5.4. -/
def sweepArgs (i : Item) : SweepArgs :=
  match i.lop with
  | 8 => ⟨i.w64 3, i.w64 6, i.w64 8, 0, i.w 5⟩
  | 9 => ⟨i.w64 3, i.w64 7, i.w64 9, i.w 5, i.w 6⟩
  | _ => ⟨i.w64 3, i.w64 6, i.w64 8, 0, i.w 5⟩

/-- What a sweep item carries through its entries: the state and the units lost. -/
abbrev Sw := State × Nat

/-- Reads bytes for a sweep item; none where a unit of them is lost (R202). -/
def swRead (t : Sw) (k : Nat) (i : Item) (a n : Nat) : Sw × Option (List Nat) :=
  let r := ladleRead t.1 k i a n
  ((r.1, t.2 + r.2.2), obNats r.2.1)
/-- Writes bytes for a sweep item. -/
def swWrite (t : Sw) (k : Nat) (i : Item) (a : Nat) (bs : List Nat) : Sw :=
  let r := ladleWrite t.1 k i a (bs.map (fun b => some (BitVec.ofNat 8 b)))
  (r.1, t.2 + r.2)
/-- Little-endian words of a run of bytes. -/
def leWords (n : Nat) (bs : List Nat) : List Nat :=
  (chunksOf n bs.length bs).map (fun c => c.foldr (fun b a => b + 256 * a) 0)
/-- The bytes of words of `n` bytes. -/
def wordBytes (n : Nat) (ws : List Nat) : List Nat := ws.flatMap (fun w => (List.range n).map (fun j => w / 256 ^ j % 256))

/-- Reads the entries of an item; a lost entry is left out (R202). -/
def swEntries (t : Sw) (k : Nat) (i : Item) : Sw × List SwEntry :=
  let a := sweepArgs i
  (List.range a.num).foldl (fun (st : Sw × List SwEntry) n =>
    let at_ := a.table + 64 * (a.first + n)
    let r := swRead st.1 k i at_ 64
    match r.2 with
    | some bs => (r.1, st.2 ++ [⟨a.first + n, at_, leWords 4 bs⟩])
    | none => (r.1, st.2)) (t, [])

/-- The words of an entry's hyperparameter set; none where they are lost. -/
def swHyp (t : Sw) (k : Nat) (i : Item) (h : Nat) : Sw × Option (List Nat) :=
  let r := swRead t k i ((sweepArgs i).hyp + 64 * h) 64
  (r.1, r.2.map (leWords 4))

/-- The pieces of an entry that must lie in the owner's ranges (R197, condition 6). -/
def swPieces (e : SwEntry) : List (Nat × Nat) :=
  let near (off : Nat) : List (Nat × Nat) :=
    [(e.w64 4 + off, e.workBytes), (e.w64 8 + off, 2 * e.count)] ++
    (if e.wfmt = 7 then [(e.w64 6 + off, e.count / 32 * 2)] else [])
  near 0 ++ [(e.w64 10, 4 * e.count), (e.far 0, 10 * e.count)] ++
  (if e.early || e.side == 1 then [(e.far 1, 10 * e.count)] else []) ++ (if e.early then near e.stage else [])

/-- The first condition of R197 that makes an entry malformed. -/
def swBad (s : State) (x c : Nat) (e : SwEntry) (hyp : List Nat) : Option Nat :=
  let notAt (a n : Nat) : Bool := a % n != 0
  let bad : List (Bool × Nat) :=
    [(bits (e.w 1) 27 5 != 0 || bits (e.w 3) 8 24 != 0, 1),
     (e.wfmt != 2 && e.wfmt != 7, 2),
     (e.clip == 3, 3),
     (e.count == 0 || e.count % 32 != 0, 4),
     (notAt (e.w64 4) (if e.wfmt = 2 then 64 else 16) || (e.wfmt == 7 && notAt (e.w64 6) 2) || notAt (e.w64 8) 64 ||
       notAt (e.w64 10) 64 || notAt (e.w64 12) 64 || !inNear (e.w64 4) || (e.wfmt == 7 && !inNear (e.w64 6)) ||
       !inNear (e.w64 8) || !inNear (e.w64 10) || region s (e.w64 12) != .far ||
       (e.early && (!inNear (e.w64 4 + e.stage) || !inNear (e.w64 8 + e.stage) ||
         (e.wfmt == 7 && !inNear (e.w64 6 + e.stage)) || region s (e.far 1) != .far)), 5),
     ((swPieces e).any (fun p => !readOk s x c p.1 p.2 || !writeOk s x c p.1 p.2), 6),
     (e.early && (e.clip == 2 || e.w 14 == 0 || e.w 15 == 0), 7),
     (hypBad hyp, 8)]
  (bad.find? (·.1)).map (·.2)

/-- S. -/
def swScale (s : State) : Nat := rd s LDL_SWP_SCALE
/-- 1 / S for a power of two (R226). -/
def invScale (v : Nat) : Nat := 0x7F000000 - v

/-- The norm n_e of an entry (Table 5.8). -/
def entryNorm (s : State) (h : HypSet) (lane : Word) : Word :=
  fp32Mul (fp32Sqrt lane) (fp32Mul h.gmul (BitVec.ofNat 32 (invScale (swScale s))))

/-- An entry with its set, its norm, and the condition that makes it malformed. -/
structure SwNorm where
  entry : SwEntry
  hyp   : HypSet
  norm  : Word
  bad   : Option Nat
  /-- Its lane or set was lost: it takes no update. -/
  lost  : Bool
deriving DecidableEq, Repr

/-- Whether an entry's norm is absurd (R211). -/
def SwNorm.absurd (n : SwNorm) : Bool :=
  n.bad.isNone && !n.lost && (fpIsNan (fp32 n.norm) || fp32Lt n.hyp.skipThr n.norm)

/-- Whether an entry's set or lane lies outside the owner's ranges (R151, R200). -/
def swOut (s : State) (k : Nat) (i : Item) (e : SwEntry) : Bool :=
  e.valid && (!readOk s (qCtx k) (qCru k) ((sweepArgs i).hyp + 64 * e.hyp) 64 ||
    !readOk s (qCtx k) (qCru k) ((sweepArgs i).check + 64 + 4 * e.lane) 4)

/-- Words of a well-formed set: they stand for a set that is lost, so that the entry's own conditions are still judged. -/
def hypDummy : List Nat :=
  let one := 0x3F800000
  [0, 0, 0, one, 0, one, one, one, 0, 0]

/-- The VALID entries with their norms, in index order (R210). -/
def swNorms (t : Sw) (k : Nat) (i : Item) (es : List SwEntry) : Sw × List SwNorm :=
  (es.filter (·.valid)).foldl (fun (st : Sw × List SwNorm) e =>
    let own := swBad st.1.1 (qCtx k) (qCru k) e hypDummy
    if swOut st.1.1 k i e then (st.1, st.2 ++ [⟨e, hypOf [], 0#32, own, true⟩]) else
    let h := swHyp st.1 k i e.hyp
    match h.2 with
    | none => (h.1, st.2 ++ [⟨e, hypOf [], 0#32, own, true⟩])
    | some hw =>
      let bad := swBad st.1.1 (qCtx k) (qCru k) e hw
      let l := swRead h.1 k i ((sweepArgs i).check + 64 + 4 * e.lane) 4
      match l.2 with
      | none => (l.1, st.2 ++ [⟨e, hypOf hw, 0#32, bad, true⟩])
      | some lb => (l.1, st.2 ++ [⟨e, hypOf hw,
          entryNorm st.1.1 (hypOf hw) (BitVec.ofNat 32 ((leWords 4 lb).headD 0)), bad, false⟩])) (t, [])

/-- The table-wide norm N (Table 5.8). -/
def swTotal (ns : List SwNorm) : Word :=
  fp32Sqrt ((ns.filter (fun n => n.bad.isNone && !n.lost)).foldl (fun t n => fp32Fma n.norm n.norm t) 0#32)

/-- Per-set scalars of a commit (R214). -/
structure SetScalars where
  a : Word
  s2 : Word
  om1 : Word
  om2 : Word
  lw : Word
deriving DecidableEq, Repr

/-- The scalars of a set. -/
def setScalars (h : HypSet) : SetScalars :=
  let p1 := fp32Mul h.p1 h.beta1
  let p2 := fp32Mul h.p2 h.beta2
  ⟨fp32Div h.lr (fp32Sub fOne p1), fp32Div fOne (fp32Sqrt (fp32Sub fOne p2)), fp32Sub fOne h.beta1,
   fp32Sub fOne h.beta2, fp32Mul h.lr h.wd⟩

/-- The factor k of an entry: unscale and clip in one (R214). -/
def swFactor (s : State) (n : SwNorm) (total : Word) : Word :=
  let h := n.hyp
  let c := if n.entry.clip = 1 ∧ fp32Lt h.clipThr n.norm then fp32Div h.clipThr n.norm
    else if n.entry.clip = 2 ∧ fp32Lt h.clipThr total then fp32Div h.clipThr total else fOne
  fp32Mul (fp32Mul h.gmul (BitVec.ofNat 32 (invScale (swScale s)))) c

/-- One parameter's pieces: master, moments, and whether it was held. -/
structure SwParam where
  w : Word
  m : Word
  v : Word
  held : Bool
deriving DecidableEq, Repr

/-- The update of one parameter (R214, R215). -/
def swUpdate (h : HypSet) (c : SetScalars) (kf w m v grad : Word) : SwParam :=
  let g := fp32Mul grad kf
  let m1 := fp32Fma h.beta1 m (fp32Mul c.om1 g)
  let v1 := fp32Fma h.beta2 v (fp32Mul c.om2 (fp32Mul g g))
  let den := fp32Add (fp32Mul (fp32Sqrt v1) c.s2) h.eps
  let w1 := fp32Sub w (fp32Fma c.lw w (fp32Mul c.a (fp32Div m1 den)))
  if fp32Finite m1 && fp32Finite v1 && fp32Finite w1 then ⟨w1, m1, v1, false⟩ else ⟨w, m, v, true⟩

/-- The 64-bit sum of an assay term (R381). -/
def assayTerm (tensor j : Nat) (p : SwParam) (scale10 code : Nat) : Nat :=
  let b (n : Nat) : BitVec 64 := BitVec.ofNat 64 n
  let h := srMix (srMix (b (2 ^ 40 * tensor + j)) ^^^ b (2 ^ 32 * p.w.toNat + p.m.toNat))
  (srMix (h ^^^ b (2 ^ 32 * p.v.toNat + scale10 * 256 + code))).toNat

/-- What the chunks of an entry add up to: held parameters, slag of the working copy, assay terms. -/
structure SwSums where
  held : Nat
  slag : Slag
  assay : Nat
deriving DecidableEq, Repr

/-- The new far row of 32 parameters (R194). -/
def farRow (ps : List SwParam) : List Nat :=
  wordBytes 2 (ps.map (fun p => p.w.toNat % 65536)) ++ wordBytes 4 (ps.map (fun p => p.m.toNat)) ++
  wordBytes 4 (ps.map (fun p => p.v.toNat))

/-- Whether a parity error feeds the chunk that begins at parameter `j` of the item's count. -/
def errMeets (err : Option DataErr) (j n : Nat) : Bool := match err with
  | some e => decide (e.first < j + n) && decide (j < e.first + e.count)
  | none => false

/-- Updates one chunk of at most 64 parameters from far side `from_`, writing the far rows of side `dest` and the near
pieces at an offset; a chunk that lost data feed is left unwritten (R201, R202, R214, R216). `base` counts the item's
parameters before the entry. -/
def swChunk (t : Sw) (k : Nat) (i : Item) (n : SwNorm) (c : SetScalars) (kf : Word) (from_ dest off : Nat) (zero : Bool)
    (base chunk : Nat) : Sw × SwSums :=
  let e := n.entry
  let j := 64 * chunk
  let len := min 64 (e.count - j)
  let rows := len / 32
  let f := swRead t k i (e.far from_ + 10 * j) (10 * len)
  let hi := swRead f.1 k i (e.w64 8 + 2 * j) (2 * len)
  let gr := swRead hi.1 k i (e.w64 10 + 4 * j) (4 * len)
  match f.2, hi.2, gr.2 with
  | some fb, some hb, some gb =>
    if errMeets i.err (base + j) len then (gr.1, ⟨0, slagZero, 0⟩) else
    let row (r : Nat) : List Nat := (fb.drop (320 * r)).take 320
    let low := (List.range rows).flatMap (fun r => leWords 2 ((row r).take 64))
    let m := (List.range rows).flatMap (fun r => leWords 4 (((row r).drop 64).take 128))
    let v := (List.range rows).flatMap (fun r => leWords 4 ((row r).drop 192))
    let high := leWords 2 hb
    let grad := leWords 4 gb
    let b (l : List Nat) (p : Nat) : Word := BitVec.ofNat 32 (l.getD p 0)
    let ps := (List.range len).map (fun p =>
      swUpdate n.hyp c kf (BitVec.ofNat 32 (65536 * high.getD p 0 + low.getD p 0)) (b m p) (b v p) (b grad p))
    let enc := encodeStream e.wfmt ⟨roundNearest, true, 0⟩ (fun _ => none) (fun p => p) (ps.map (fun p => some p.w))
    let nums (l : List OByte) : List Nat := l.map (fun x => (markByte x).toNat)
    let es := nums enc.elems
    let sc := leWords 2 (nums enc.scales)
    let t1 := swWrite gr.1 k i (e.far dest + 10 * j) ((List.range rows).flatMap (fun r => farRow ((ps.drop (32 * r)).take 32)))
    let t2 := swWrite t1 k i (e.w64 8 + off + 2 * j) (wordBytes 2 (ps.map (fun p => p.w.toNat / 65536)))
    let t3 := swWrite t2 k i (e.w64 4 + off + elemBytes e.wfmt j) es
    let t4 := if e.wfmt = 7 then swWrite t3 k i (e.w64 6 + off + j / 32 * 2) (nums enc.scales) else t3
    let t5 := if zero then swWrite t4 k i (e.w64 10 + 4 * j) (List.replicate (4 * len) 0) else t4
    let codes := if e.wfmt = 7 then nibbles es else es
    let terms := (ps.zipIdx.map (fun (p, q) =>
      assayTerm e.tensor (j + q) p (if e.wfmt = 7 then sc.getD (q / 32) 0 else 0) (codes.getD q 0))).sum
    (t5, ⟨ps.countP (·.held), enc.slag, terms⟩)
  | _, _, _ => (gr.1, ⟨0, slagZero, 0⟩)

/-- Updates an entry, chunk by chunk. -/
def swEntry (t : Sw) (k : Nat) (i : Item) (n : SwNorm) (total : Word) (from_ dest off : Nat) (zero : Bool) (base : Nat) :
    Sw × SwSums :=
  let c := setScalars n.hyp
  let kf := swFactor t.1 n total
  (List.range ((n.entry.count + 63) / 64)).foldl (fun (st : Sw × SwSums) chunk =>
    let r := swChunk st.1 k i n c kf from_ dest off zero base chunk
    (r.1, ⟨st.2.held + r.2.held, slagAdd st.2.slag r.2.slag, st.2.assay + r.2.assay⟩)) (t, ⟨0, slagZero, 0⟩)

/-- Zeroes an entry's gradient accumulators. -/
def swZero (t : Sw) (k : Nat) (i : Item) (e : SwEntry) : Sw :=
  swWrite t k i (e.w64 10) (List.replicate (4 * e.count) 0)

/-- Rewrites an entry's SIDE and STAGED. -/
def swMark (t : Sw) (k : Nat) (i : Item) (e : SwEntry) (side : Nat) (staged : Bool) : Sw :=
  let w := (e.words.take 16).zipIdx.map (fun (v, n) =>
    if n = 0 then setBits v 30 1 side else if n = 1 then setBits v 26 1 (b2n staged) else v)
  swWrite t k i e.addr (wordBytes 4 w)

/-- Copies the staged near pieces of an entry into place; lost units are left as they are (R202, R214). -/
def swAdopt (t : Sw) (k : Nat) (i : Item) (e : SwEntry) : Sw :=
  let piece (t0 : Sw) (a n : Nat) : Sw :=
    (extents 64 (a + e.stage) n).foldl (fun st x =>
      let r := swRead st k i x.1 x.2
      match r.2 with
      | some bs => swWrite r.1 k i (x.1 - e.stage) bs
      | none => r.1) t0
  let t1 := piece t (e.w64 8) (2 * e.count)
  let t2 := piece t1 (e.w64 4) e.workBytes
  if e.wfmt = 7 then piece t2 (e.w64 6) (e.count / 32 * 2) else t2

/-- The numeric slag of an item counted for a tensor while it acts. -/
def swSlag (t : Sw) (k : Nat) (i : Item) (tensor held : Nat) (sl : Slag) : Sw :=
  (addSlag t.1 k i.index tensor (sl.nonfin + held) sl.sat sl.inval, t.2)

/-- Malformed entries are recorded, and the first one gives TABLE_FAULT to a SWEEP (R203, R230). -/
def swBadEvents (s : State) (i : Item) (ns : List SwNorm) : State :=
  ns.foldl (fun st n => match n.bad with
    | some b => logUnit st 0x0532 (castingOf i.phys) [n.entry.idx, n.entry.tensor, b]
    | none => st) s

/-- SWCHECK (R210, R211): norms, absurd entries, and LOCAL, which every datum read feeds: with one lost it is not
written (R202). -/
def actSwcheck (s : State) (k : Nat) (i : Item) : Sw :=
  let x := qCtx k
  let chk := (sweepArgs i).check
  let hd := swRead (s, 0) k i chk 64
  let es := swEntries hd.1 k i
  let ns := swNorms es.1 k i es.2
  let s1 := swBadEvents ns.1.1 i ns.2
  let s2 := (ns.2.filter (·.absurd)).foldl (fun st n =>
    slagCount (logUnit st 0x0521 (castingOf i.phys) [n.entry.tensor, n.norm.toNat, n.hyp.skipThr.toNat])
      x i.step i.op ⟨n.entry.tensor, 0, 0, 0⟩ 1) s1
  let nf := match hd.2 with
    | some b => bit ((leWords 4 b).getD 3 0) 0
    | none => true
  let sticky := bit (rd s LDL_SWP_CTRL) 0 && bit (rd s (LDL_SLAG_NF x)) 0
  let v := b2n (nf || sticky) + 2 * b2n (ns.2.any (·.absurd)) + 4 * b2n (ns.2.any (fun n => n.bad.isSome)) + 2 ^ 31
  if errMeets i.err 0 1 || ns.1.2 != 0 then (s2, ns.1.2) else swWrite (s2, ns.1.2) k i chk (wordBytes 4 [v])

/-- The reason for which STAGE passes over an entry (R220): not in the early filter, EARLY 0, CLIP 2, malformed. -/
def stageRefusal (s : State) (n : SwNorm) : Option Nat :=
  if !s.ladle.sweep.early.contains n.entry.tensor then some 1
  else if !n.entry.early then some 2
  else if n.entry.clip = 2 then some 3
  else if n.bad.isSome then some 4
  else none

/-- STAGE (R220, R221, R381): answers the entries passed over. -/
def actStage (s : State) (k : Nat) (i : Item) : Sw × Nat :=
  let es := swEntries (s, 0) k i
  let ns := swNorms es.1 k i es.2
  let r := (ns.2.filter (fun n => !n.entry.frozen)).foldl (fun (st : Sw × Nat × Nat) n =>
    match stageRefusal st.1.1 n with
    | some why =>
      ((logUnit (cntAdd st.1.1 LDL_SWP_STAGEREF_CNT_LO 1) 0x0531 (castingOf i.phys) [n.entry.tensor, why], st.1.2),
        st.2.1 + 1, st.2.2)
    | none =>
      if n.lost then st else
      let e := n.entry
      let u := swEntry st.1 k i n 0#32 e.side (1 - e.side) e.stage false st.2.2
      let t1 := swSlag (satAdd u.1.1 LDL_SWP_PEND_HELD u.2.held, u.1.2) k i e.tensor u.2.held u.2.slag
      let sw := t1.1.ladle.sweep
      let s2 := t1.1.withLadle { t1.1.ladle with sweep := { sw with
        stageSum := (sw.stageSum + u.2.assay) % 2 ^ 64, stageEntries := sw.stageEntries + 1 } }
      (swMark (s2, t1.2) k i e e.side true, st.2.1, st.2.2 + e.count)) (ns.1, 0, 0)
  (r.1, r.2.1)

/-- Whether a commit at a step is an assay step (R382). -/
def assayStep (s : State) (step : Nat) : Bool :=
  bit (rd s CUP_ASSAY_CTRL) 16 && (decide (rd s CUP_ASSAY_NEXT ≤ step) || verifyOn s)

/-- The skip of a step (R213): accumulators zeroed, staging dropped. -/
def swSkip (t : Sw) (k : Nat) (i : Item) (es : List SwEntry) (ns : List SwNorm) : Sw :=
  let t1 := (ns.filter (fun n => n.bad.isNone)).foldl (fun st n => swZero st k i n.entry) t
  let badIdx := ns.filterMap (fun n => n.bad.map (fun _ => n.entry.idx))
  let st := es.filter (fun e => e.valid && e.staged && !badIdx.contains e.idx)
  let t2 := st.foldl (fun u e => swMark u k i e e.side false) t1
  if st.isEmpty then t2
  else (logUnit (cntAdd t2.1 LDL_SWP_DISCARD_CNT_LO st.length) 0x0530 (castingOf i.phys) [i.step, st.length], t2.2)

/-- The commit of a step (R214 to R216, R223): answers the held parameters, the assay sum and its entries. An entry
whose set or lane is lost takes no update, nor does an entry that clips by N while some norm, or a table entry that
may hold one, is lost (R202). -/
def swCommit (t : Sw) (k : Nat) (i : Item) (ns : List SwNorm) (total : Word) (entryLost : Bool) :
    Sw × Nat × Nat × Nat :=
  let good := ns.filter (fun n => n.bad.isNone)
  let someLost := entryLost || good.any (·.lost)
  let r := good.foldl (fun (st : Sw × Nat × Nat × Nat × Nat) n =>
    let e := n.entry
    if e.frozen then
      let z := swZero st.1 k i e
      (if e.staged then swMark z k i e e.side false else z, st.2)
    else if e.staged then
      let u := swAdopt st.1 k i e
      let z := swZero u k i e
      let m := swMark z k i e (1 - e.side) false
      ((cntAdd m.1 LDL_SWP_STAGED_CNT_LO 1, m.2), st.2)
    else if n.lost || (e.clip == 2 && someLost) then st
    else
      let u := swEntry st.1 k i n total e.side e.side 0 true st.2.2.2.2
      let t1 := swSlag u.1 k i e.tensor u.2.held u.2.slag
      let s2 := if u.2.held = 0 then t1.1 else
        logUnit t1.1 0x0522 (castingOf i.phys) [e.tensor, u.2.held, i.step]
      ((s2, t1.2), st.2.1 + u.2.held, st.2.2.1 + u.2.assay, st.2.2.2.1 + 1, st.2.2.2.2 + e.count)) (t, 0, 0, 0, 0)
  let live := good.filter (fun n => !n.entry.frozen && fPos n.hyp.eps)
  let sets := (List.range 256).filterMap (fun h => live.find? (fun n => n.entry.hyp == h))
  let t2 := sets.foldl (fun u n => swWrite u k i ((sweepArgs i).hyp + 64 * n.entry.hyp + 32)
    (wordBytes 4 [(fp32Mul n.hyp.p1 n.hyp.beta1).toNat, (fp32Mul n.hyp.p2 n.hyp.beta2).toNat])) r.1
  (t2, r.2.1, r.2.2.1, r.2.2.2.1)

/-- The assay record of a commit (R382, R384). -/
def swAssay (t : Sw) (k : Nat) (i : Item) (digest entries : Nat) : Sw :=
  let s := t.1
  let st := rd s CUP_ASSAY_STAT
  let late := bit st 0
  let s1 := if late then logUnit s 0x0622 (castingOf i.phys) [rd s CUP_ASSAY_STEP] else s
  let t1 := swWrite (s1, t.2) k i (i.w64 10 + 64)
    (wordBytes 8 [digest] ++ wordBytes 4 ([i.step, entries] ++ List.replicate 12 0))
  let iv := max 1 (bits (rd s CUP_ASSAY_CTRL) 0 16)
  let s2 := setReg (setReg64 t1.1 CUP_ASSAY_LAST_LO digest) CUP_ASSAY_STEP i.step
  let s3 := setReg (setReg s2 CUP_ASSAY_STAT (1 + bits st 1 1 * 2 + 8 * b2n late)) CUP_ASSAY_NEXT ((i.step / iv + 1) * iv)
  (logUnit s3 0x0620 (castingOf i.phys) ([i.step] ++ datum64 digest ++ [entries]), t1.2)

/-- Loss-spike detection (R227, R228): the spike field of the step record. -/
def swSpike (s : State) (i : Item) (loss : Word) : State × Nat :=
  if !fp32Finite loss then (s, 3) else
  let seen := rd s LDL_SWP_SPK_SEEN
  if seen = 0 then
    (setReg (setReg (setReg s LDL_SWP_SPK_E loss.toNat) LDL_SWP_SPK_D 0) LDL_SWP_SPK_SEEN 1, 0)
  else
    let e := reg s LDL_SWP_SPK_E
    let d := reg s LDL_SWP_SPK_D
    let ctl := rd s LDL_SWP_SPK_CTRL
    let dev := absWord (fp32Sub loss e)
    let lim := fp32Mul (reg s LDL_SWP_SPK_K) d
    let spike := decide (bits ctl 16 16 ≤ seen) && fp32Lt lim dev
    let xc := if spike then (if fp32Lt e loss then fp32Add e lim else fp32Sub e lim) else loss
    let r := fp32Sub xc e
    let alpha := BitVec.ofNat 32 (0x3F800000 - bits ctl 0 5 * 0x800000)
    let e1 := fp32Fma alpha r e
    let d1 := fp32Fma alpha (fp32Sub (absWord r) d) d
    let s1 := setReg (setReg (setReg s LDL_SWP_SPK_E e1.toNat) LDL_SWP_SPK_D d1.toNat)
      LDL_SWP_SPK_SEEN (min 65535 (seen + 1))
    if spike then
      (logUnit (cntAdd s1 LDL_SWP_SPIKE_CNT_LO 1) 0x0520 (castingOf i.phys) [i.step, loss.toNat, e1.toNat, d1.toNat], 1)
    else (s1, 0)

/-- SWEEP up to the loop (R212 to R217): answers the outcome for the loop. Its slag is counted before the sticky bit is
cleared, so that a held parameter skips no step (R206, R215). -/
def actSweep (s : State) (k : Nat) (i : Item) : Sw × SweepEnd :=
  let x := qCtx k
  let chk := (sweepArgs i).check
  let hd := swRead (s, 0) k i chk 64
  let words := (hd.2.map (leWords 4)).getD []
  let global := words.getD 1 0
  let ld := if i.w64 12 = 0 then (hd.1, none) else
    let r := ladleRead hd.1.1 k i (i.w64 12) 4
    ((r.1, hd.1.2 + r.2.2), some ((obNum r.2.1).getD 0xFFFFFFFF))
  let sp := match ld.2 with
    | some v => swSpike ld.1.1 i (BitVec.ofNat 32 v)
    | none => (ld.1.1, 0)
  let es := swEntries (sp.1, ld.1.2) k i
  let ns := swNorms es.1 k i es.2
  let total := swTotal ns.2
  let skip := global != 0x80000000
  let cause := global % 8 + 8 * b2n (bit global 3 || !bit global 31)
  let t0 : Sw := (swBadEvents ns.1.1 i ns.2, ns.1.2)
  let done_ : Sw × Nat × Nat × Nat :=
    if skip then (swSkip t0 k i es.2 ns.2, 0, 0, 0) else swCommit t0 k i ns.2 total (es.1.2 != ld.1.2)
  let pend := rd s LDL_SWP_PEND_HELD
  let held := if skip then 0 else done_.2.1 + pend
  let sw := done_.1.1.ladle.sweep
  let t1 : Sw := if !skip && assayStep s i.step then
      swAssay done_.1 k i ((done_.2.2.1 + sw.stageSum) % 2 ^ 64) (done_.2.2.2 + sw.stageEntries) else done_.1
  let owed := ((findItem t1.1 k i.index).map (·.slag)).getD []
  let counted := owed.foldl (fun st e => slagCount st x i.step i.op e 0) t1.1
  let t2 := swWrite (setItem counted k i.index (fun j => { j with slag := [] }), t1.2) k i chk
    (wordBytes 4 [8, 8, words.getD 2 0, 0])
  let s3 := setReg (setReg t2.1 LDL_SWP_PEND_HELD 0) (LDL_SLAG_NF x) 0
  let s4 := cntAdd (cntAdd s3 LDL_SWP_HELD_CNT_LO held) (if skip then LDL_SWP_SKIP_CNT_LO else LDL_SWP_COMMIT_CNT_LO) 1
  let fault := if es.2.any (swOut s k i) then (0x25, 0) else match ns.2.find? (fun n => n.bad.isSome) with
    | some n => (0x28, n.entry.idx)
    | none => (0, 0)
  let s5 := setItem s4 k i.index (fun j => { j with
    acted := true, found := noteFound (if t2.2 = 0 then (0, 0) else (0x20, t2.2)) fault })
  let fin : SweepEnd := ⟨k, i.index, skip, if skip then cause else 0, swScale s, (ns.2.filter (·.absurd)).length, held,
    ld.2.getD 0x7FC00000, sp.2, total.toNat⟩
  let sweep1 : SweepState := { s5.ladle.sweep with
    stageSum := 0, stageEntries := 0, skipped := skip, cause := fin.cause, loop := some fin }
  ((s5.withLadle { s5.ladle with sweep := sweep1 }, t2.2), fin)

/-- The loss-scale loop (Table 5.9). -/
def lossLoop (s : State) (o : SweepEnd) (step : Nat) : State :=
  let sc := swScale s
  let clean := rd s LDL_SWP_CLEAN + 1
  let top := rd s LDL_SWP_SCALE_MAX
  let held (st : State) (v : Nat) : State := logCup st 0x0512 [step, v]
  if !o.skip then
    if clean < rd s LDL_SWP_INTERVAL then setReg s LDL_SWP_CLEAN clean
    else if sc < top then logCup (setReg (setReg s LDL_SWP_SCALE (sc + 0x800000)) LDL_SWP_CLEAN 0) 0x0511 [step, sc + 0x800000]
    else held (setReg s LDL_SWP_CLEAN 0) sc
  else if bit o.cause 0 || (bit o.cause 1 && bit (rd s LDL_SWP_CTRL) 1) then
    if 0x3F800000 < sc then
      logCup (setReg (setReg s LDL_SWP_SCALE (sc - 0x800000)) LDL_SWP_CLEAN 0) 0x0510 [step, o.cause, sc, sc - 0x800000]
    else held (logCup (setReg s LDL_SWP_CLEAN 0) 0x0510 [step, o.cause, sc, sc]) sc
  else logCup s 0x0510 [step, o.cause, sc, sc]

/-- The step record, words 1 to 14 and then 0 and 15 (R226), and the end of the SWEEP item (R217). -/
def endSweep (s : State) (o : SweepEnd) (i : Item) : State :=
  let last := rd s LDL_SWP_SEQ
  let seq := if last = 65535 then 1 else last + 1
  let sc := swScale s
  let w0 := seq + 65536 * b2n o.skip
  let ws := [w0, i.step, o.cause, o.scale, sc, invScale sc, rd s LDL_SWP_CLEAN, o.absurd, o.held, o.loss,
    rd s LDL_SWP_SPK_E, rd s LDL_SWP_SPK_D, o.spike, o.norm, 0, w0]
  let t := swWrite (s, 0) o.key i (i.w64 10) (wordBytes 4 ws)
  let s1 := setReg t.1 LDL_SWP_SEQ seq
  let s2 := s1.withLadle { s1.ladle with sweep := { s1.ladle.sweep with loop := none } }
  settleLadle s2 o.key o.index

/-- Whether the newest cut of the device is unsealed (R412). -/
def unsealed (s : State) : Bool := ingOn s && rd s CUP_ING_EPOCH != rd s CUP_ING_SEALED

/-- A SWEEP item that R412 holds: reported once. -/
def holdSweep (s : State) (i : Item) : State :=
  if s.ingot.sweepHeld = some i.step then s else
  logCup (s.withIngot { s.ingot with sweepHeld := some i.step }) 0x070E [i.step, rd s CUP_ING_EPOCH]

/-- A STAGE that is accepted and incomplete, and not late. -/
def stageOpen (s : State) : Bool := s.queues.any (fun e => e.2.items.any (fun i =>
  i.op == 0x40 && i.lop == 9 && !i.isDone && i.found.1 != 0x29))
/-- A SWEEP that has issued and is incomplete. -/
def sweepRuns (s : State) : Bool := s.queues.any (fun e => e.2.items.any (fun i =>
  i.op == 0x40 && i.lop == 8 && holdsSlot i))
where
  /-- Issued, or done and not completed. -/
  holdsSlot (i : Item) : Bool := i.phase != .accepted

/-- Unit codes that a sweep item's data can meet. -/
def sweepCodes : List Nat := [7, 8, 13]

/-- The next item of a queue, where it has this LOP and a slot of its slice is free. -/
def sweepNext (s : State) (k lop : Nat) : Option Item :=
  (issuable s k 0x40).filter (fun i => i.lop == lop && decide (ladleHeld s (qCru k) < 16))

/-- An item issued, with the parity error that its data meet. -/
def sweepIssue (s : State) (k : Nat) (i : Item) (err : Option DataErr) : State × Item :=
  let e := errFor s sweepCodes err
  let s1 := setItem (issueItem s k i.index) k i.index (fun j => { j with err := e })
  let s2 := match e with
    | some d => parityFound s1 d.code (castingOf i.phys) d.line i.index
    | none => s1
  (s2, { i with phase := .issued, phys := physOf s (qCru k), err := e })

/-- Runs a SWEEP whose loss value is at hand. A lost GLOBAL feeds every chunk, so nothing is written (R202). -/
def runSweep (s : State) (k : Nat) (i : Item) : State :=
  let hd := swRead (s, 0) k i (sweepArgs i).check 64
  if hd.2.isNone then
    settleLadle (setItem hd.1.1 k i.index (fun j => { j with acted := true, found := (0x20, hd.1.2) })) k i.index
  else
  let r := actSweep s k i
  if r.1.1.ingot.blocked || bit (rd s LDL_SWP_CTRL) 2 then r.1.1
  else
    let s1 := r.1.1
    endSweep (if r.2.skip then logCup s1 0x0510 [i.step, r.2.cause, swScale s1, swScale s1] else s1) r.2 i

/-- SWEEP (R212): waits at issue while the device is tainted (R367), while its newest cut is unsealed (R412), and while
another SWEEP or a STAGE is incomplete (R201). -/
def execSweep (c x q : Nat) (err : Option DataErr) (s : State) : Host.Outcome State Fault Refusal :=
  let k := qKey c x q
  match sweepNext s k 8 with
  | some i =>
    if tainted s || stageOpen s || sweepRuns s then .next s
    else if unsealed s then .next (holdSweep s i)
    else
      let r := sweepIssue s k i err
      let s1 := ladlePrepare (r.1.withIngot { r.1.ingot with sweepHeld := none }) k r.2
      if waitingReqs s1 k i.index then .next s1 else .next (orWait s1 (runSweep s1 k r.2))
  | none => match (qOf s k).items.find? (fun i => i.op == 0x40 && i.lop == 8 && i.phase == .issued && !i.acted) with
    | some i => if waitingReqs s k i.index then .next s else .next (orWait s (runSweep s k i))
    | none => .next s

/-- LOSS_SCALE_LOOP (R224): the Cupola answers the sweep, which then writes its step record and completes. -/
def execLossScaleLoop (s : State) : Host.Outcome State Fault Refusal :=
  match s.ladle.sweep.loop with
  | none => .next s
  | some o => match findItem s o.key o.index with
    | none => .next s
    | some i => .next (orWait s (endSweep (lossLoop s o i.step) o i))

/-- Ends a STAGE or SWCHECK. -/
def endSweepOp (t : Sw) (k : Nat) (i : Item) (detail : Nat) : State :=
  let s1 := setItem t.1 k i.index (fun j => { j with acted := true })
  match i.err with
  | some e => itemDone s1 k i.index 4 (errDetail e)
  | none => if (swEntries (t.1, 0) k i).2.any (swOut t.1 k i) then itemDone s1 k i.index 0x25 0
    else if t.2 ≠ 0 then itemDone s1 k i.index 0x20 t.2 else itemDone s1 k i.index 0 detail

/-- The item that a STAGE or SWCHECK command issues, or carries on after a wait. -/
def sweepTake (s : State) (k lop : Nat) (err : Option DataErr) : Option (State × Item) :=
  match sweepNext s k lop with
  | some i => some (sweepIssue s k i err)
  | none => ((qOf s k).items.find? (fun i => i.op == 0x40 && i.lop == lop && i.phase == .issued && !i.acted)).map
      (fun i => (s, i))

/-- STAGE (R220); accepted while a SWEEP was incomplete, it stages nothing (R203). -/
def execStage (c x q : Nat) (err : Option DataErr) (s : State) : Host.Outcome State Fault Refusal :=
  let k := qKey c x q
  match sweepTake s k 9 err with
  | none => .next s
  | some (s1, i) =>
    if i.found.1 = 0x29 then .next (itemDone s1 k i.index 0x29 0) else
    let r := actStage s1 k i
    .next (orWait s1 (endSweepOp r.1 k i r.2))

/-- Remote stores, atomics and triggers of masked contexts that are out (R407). -/
def remoteOut (s : State) : Bool :=
  ingOn s && s.ladle.reqs.any (fun r => (r.kind == 1 || r.kind == 2 || r.kind == 3) && r.answer.isNone &&
    bit (rd s CUP_ING_CTXMASK) (qCtx r.queue))

/-- SWCHECK (R210): it waits at issue for the masked contexts' remote effects (R407). -/
def execSwcheck (c x q : Nat) (err : Option DataErr) (s : State) : Host.Outcome State Fault Refusal :=
  let k := qKey c x q
  if (sweepNext s k 0x0A).isSome && remoteOut s then .next s else
  match sweepTake s k 0x0A err with
  | none => .next s
  | some (s1, i) => .next (orWait s1 (endSweepOp (actSwcheck s1 k i) k i 0))

/-- Whether a value is a power of two of FP32 between two of its powers. -/
def powScale (v lo hi : Nat) : Bool := v % 0x800000 == 0 && decide (lo ≤ v) && decide (v ≤ hi)

/-- Whether an item of Table 5.4 is accepted and incomplete. -/
def sweepBusy (s : State) : Bool :=
  s.queues.any (fun e => e.2.items.any (fun i => i.op == 0x40 && isSweepOp i.lop))

/-- A write discarded because of accepted Ladle items (R152, R225, R229). -/
def discardBusy (s : State) (src : Src) (ctx off : Nat) : State :=
  logDiscard (logSrc s 0x0306 src [ctx, off, srcDatum src]) src off 4 8

/-- LDL_SWP_SCALE_MAX_WRITE (R224, R225): a ceiling below S lowers S. -/
def scaleMaxWrite (s : State) (src : Src) (v : Nat) : State :=
  if sweepBusy s then discardBusy s src (sweepOwner s) LDL_SWP_SCALE_MAX
  else if !powScale v 0x40000000 0x4B800000 then logDiscard s src LDL_SWP_SCALE_MAX 4 8
  else
    let s1 := setReg s LDL_SWP_SCALE_MAX v
    let s2 := if rd s LDL_SWP_SCALE_MAX = v then s1 else logAccepted s1 src 0 LDL_SWP_SCALE_MAX v
    if v < swScale s then logCup (setReg (setReg s2 LDL_SWP_SCALE v) LDL_SWP_CLEAN 0) 0x0512 [0, v] else s2

/-- LDL_SWP_SCALE_MAX_WRITE (R224). -/
def execLdlSwpScaleMaxWrite (src : Src) (v : Word) (s : State) : Host.Outcome State Fault Refusal :=
  if !isReady s then .next (emit s (.unsupported src)) else .next (scaleMaxWrite s src v.toNat)

/-- LDL_SLAG_NF_CLEAR (R206): a write of 1 clears a context's sticky bit. -/
def slagNfClear (s : State) (src : Src) (x : Nat) : State :=
  if bit (rd s (LDL_SLAG_NF x)) 0 then logAccepted (setReg s (LDL_SLAG_NF x) 0) src 0 (LDL_SLAG_NF x) 1 else s

/-- LDL_SLAG_NF_CLEAR (R206). -/
def execLdlSlagNfClear (src : Src) (x : Nat) (s : State) : Host.Outcome State Fault Refusal :=
  if !isReady s then .next (emit s (.unsupported src)) else .next (slagNfClear s src (x % 16))

end Sys2Proof.Machine
end

