-- ==== Sys2Proof/Machine/AlloyNum.lean ====
section
/-! DEFINITION. The numbers of the Alloy engine: scalar values, narrowing, exact squares, the group signature, ranks and
ranges (R299, R300, R308, R313, R317 to R319, R322, R323, R333). -/
namespace Sys2Proof.Machine
open Reg

/-- This device's ADDR (R336, R350). -/
def selfAddr (s : State) : Nat := bits (rd s SPR_SELF) 0 16
/-- ROOT of a group. -/
def grpRoot (s : State) (g : Nat) : Nat := bits (rd s (ALY_GRP_ROOT g)) 0 16
/-- PARENT of a group. -/
def grpParent (s : State) (g : Nat) : Nat := bits (rd s (ALY_GRP_PARENT g)) 0 16
/-- IS_ROOT of a group. -/
def grpIsRoot (s : State) (g : Nat) : Bool := bit (rd s (ALY_GRP_PARENT g)) 16
/-- NCHILD of a group. -/
def grpNchild (s : State) (g : Nat) : Nat := bits (rd s (ALY_GRP_PARENT g)) 24 5
/-- NFMT of a group. -/
def grpNfmt (s : State) (g : Nat) : Nat := bits (rd s (ALY_GRP_CTRL g)) 17 4
/-- NDIM_FROM of a group. -/
def grpNdimFrom (s : State) (g : Nat) : Nat := bits (rd s (ALY_GRP_CTRL g)) 21 5
/-- ROTATE of a group. -/
def grpRotate (s : State) (g : Nat) : Bool := bit (rd s (ALY_GRP_CTRL g)) 16
/-- POUR of a group. -/
def grpPour (s : State) (g : Nat) : Nat := bits (rd s (ALY_GRP_POUR g)) 0 5

/-- SIG of a group: the low half of the CRC-32C of its record (R300). -/
def grpSig (s : State) (g : Nat) : Nat :=
  crc32c [g % 256, grpDims s g % 256, grpDims s g / 256, grpRoot s g % 256, grpRoot s g / 256, grpPour s g,
    b2n (grpRotate s g), grpNfmt s g, grpNdimFrom s g, bits (rd s (TND_CTX_CTRL (grpOwner s g))) 8 4, 0, 0] % 65536

/-- The rank of an address: its bits at the positions of DIMS, from ROOT (R299). -/
def grpRank (s : State) (g addr : Nat) : Nat :=
  (grpDimList s g).zipIdx.foldl (fun a (d, b) => a + b2n (bit (addr ^^^ grpRoot s g) d) * 2 ^ b) 0
/-- The address of a rank. -/
def grpAddrOf (s : State) (g rank : Nat) : Nat :=
  (grpDimList s g).zipIdx.foldl (fun a (d, b) => if bit rank b then a ^^^ 2 ^ d else a) (grpRoot s g)
/-- Whether an address is that of a member. -/
def grpMember (s : State) (g addr : Nat) : Bool :=
  (List.range 16).all (fun d => bit (grpDims s g) d || bit addr d == bit (selfAddr s) d)

/-- The value of the reflected Gray code's inverse, over 16 bits. -/
def grayPos (r : Nat) : Nat := (List.range 16).foldl (fun a b => a ^^^ r / 2 ^ b) 0
/-- The highest set bit of a rank, plus one; 0 for rank 0. -/
def topBit (r : Nat) : Nat := ((List.range 16).filter (fun b => bit r b)).getLast?.elim 0 (· + 1)

/-- The ranks to which a member sends chunks (R333). -/
def bcNext (n rank : Nat) (relay : Bool) : List Nat :=
  if relay then
    let k := grayPos rank
    if k + 1 < 2 ^ n then [(k + 1) ^^^ (k + 1) / 2] else []
  else ((List.range n).filter (fun b => decide (topBit rank ≤ b))).map (fun b => rank + 2 ^ b)
/-- The rank from which a member receives chunks; none for the root. -/
def bcPrev (rank : Nat) (relay : Bool) : Option Nat :=
  if rank = 0 then none
  else if relay then let k := grayPos rank; some ((k - 1) ^^^ (k - 1) / 2)
  else some (rank - 2 ^ (topBit rank - 1))

/-- One value as it goes up the scalar tree: for SUM_F32 its multiple of 2^-149 with flags for +∞ (1), −∞ (2), NaN (4) and
a value that is not −0 (8, log entry 29); for the others its 32 bits (R308). -/
def scalarIn (sop : Nat) (w : Word) : Int × Nat :=
  match sop with
  | 0 => match fp32 w with
    | .nan => (0, 12)
    | .inf neg => (0, if neg then 10 else 9)
    | .fin neg m e => ((if neg then -1 else 1) * (m * 2 ^ (e + 149).toNat : Nat), if m = 0 ∧ neg then 0 else 8)
  | 1 => ((fpMaxMin true w w).toNat, 0)
  | 2 => ((fpMaxMin false w w).toNat, 0)
  | _ => (w.toNat, 0)

/-- Two values combined (Table 8.4). -/
def scalarAdd (sop : Nat) (a b : Int × Nat) : Int × Nat :=
  let w (x : Int × Nat) : Word := BitVec.ofNat 32 x.1.toNat
  match sop with
  | 0 => (a.1 + b.1, a.2 ||| b.2)
  | 1 => ((fpMaxMin true (w a) (w b)).toNat, 0)
  | 2 => ((fpMaxMin false (w a) (w b)).toNat, 0)
  | 3 => (((a.1.toNat + b.1.toNat) % 2 ^ 32 : Nat), 0)
  | 4 => (max a.1 b.1, 0)
  | 5 => (min a.1 b.1, 0)
  | 6 => ((a.1.toNat ||| b.1.toNat : Nat), 0)
  | _ => ((a.1.toNat &&& b.1.toNat : Nat), 0)

/-- The result that a member writes (Table 8.4). -/
def scalarOut (sop : Nat) (a : Int × Nat) : Word :=
  match sop with
  | 0 =>
    if bit a.2 2 || (bit a.2 0 && bit a.2 1) then canonNan
    else if bit a.2 0 then infWord false
    else if bit a.2 1 then infWord true
    else if a.1 = 0 then (if bit a.2 3 then 0#32 else 0x80000000#32)
    else fpToFp32 (fpOfInt a.1 (-149))
  | _ => BitVec.ofNat 32 a.1.toNat

/-- The value that an adder fault writes: canonical NaN, or all ones for the integer operations (R326). -/
def scalarFault (sop : Nat) : Int × Nat :=
  if sop = 0 then (0, 12) else if sop ≤ 2 then (canonNan.toNat, 0) else (0xFFFFFFFF, 0)

/-- The block layout of a wire format. -/
def wireKind (fmt : Nat) : BlockKind := if fmt = 4 then .mxfp8e4 else .mxfp8e5

/-- Narrowing: the bytes on the wire (codes, then the scales of their blocks), and the values they decode to (R317). -/
def narrow (fmt : Nat) (xs : List Word) : List Byte × List Word :=
  let enc := encodeStream fmt ⟨roundNearest, false, 0⟩ (fun _ => none) (fun j => j) (xs.map some)
  let bytes := enc.elems.map markByte
  if fmt = 1 then
    (bytes, (chunksOf 2 xs.length bytes).map (fun c => fpToFp32 (fpDecode fmtBf16 (leNat c))))
  else
    let sc := enc.scales.map markByte
    (bytes ++ sc, (chunksOf 32 xs.length bytes).zipIdx.flatMap (fun (c, b) =>
      (decodeBlock (wireKind fmt) (sc.getD b 0).toNat (c.map (·.toNat))).1.map fpToFp32))

/-- The FP32 words that wire bytes decode to. -/
def widen (fmt : Nat) (bs : List Byte) : List Word :=
  match fmt with
  | 0 => (chunksOf 4 bs.length bs).map (fun c => BitVec.ofNat 32 (leNat c))
  | 1 => (chunksOf 2 bs.length bs).map (fun c => fpToFp32 (fpDecode fmtBf16 (leNat c)))
  | _ =>
    let n := bs.length - (bs.length + 32) / 33
    let sc := bs.drop n
    (chunksOf 32 n (bs.take n)).zipIdx.flatMap (fun (c, b) =>
      (decodeBlock (wireKind fmt) (sc.getD b 0).toNat (c.map (·.toNat))).1.map fpToFp32)

/-- The exact square of a finite value, in units of 2^-298 (R323). -/
def squareUnits (w : Word) : Nat :=
  match fp32 w with
  | .fin _ m e => m * m * 2 ^ (2 * e + 298).toNat
  | _ => 0
/-- A lane's result: rounded once, or canonical NaN (R324). -/
def laneOut (sum : Nat) (bad : Bool) : Word := if bad then canonNan else fpToFp32 (.fin false sum (-298))

/-- Two lists of lane partials added. -/
def addLanes (a b : List (Nat × Nat × Bool)) : List (Nat × Nat × Bool) :=
  b.foldl (fun l e =>
    if l.any (fun x => x.1 == e.1) then l.map (fun x => if x.1 = e.1 then (x.1, x.2.1 + e.2.1, x.2.2 || e.2.2) else x)
    else l ++ [e]) a

/-- The dimensions of a pour's stages (R313). -/
def stageDims (s : State) (g pour : Nat) : List Nat :=
  let l := grpDimList s g
  let k := if grpRotate s g ∧ l ≠ [] then pour % l.length else 0
  l.drop k ++ l.take k
/-- The lower part of a range of e elements (R313). -/
def lowerPart (e : Nat) : Nat := min ((e + 63) / 64 * 32) e
/-- The part of a range that a member keeps at a reduce-scatter stage, and the part it sends. -/
def splitRange (r : Nat × Nat) (upper : Bool) : (Nat × Nat) × (Nat × Nat) :=
  let n := lowerPart r.2
  let lo := (r.1, n)
  let hi := (r.1 + n, r.2 - n)
  if upper then (hi, lo) else (lo, hi)

/-- The staging slot of a pour's stage (R315). -/
def stagingSlot (s : State) (g pour stage : Nat) : Nat :=
  let p := 2 ^ grpPour s g * 128
  rd64 s (ALY_GRP_STAGE_LO g) + pour % 2 * p + p - p / 2 ^ stage
/-- Bytes of the staging area (R315). -/
def stagingBytes (s : State) (g : Nat) : Nat := 2 * 2 ^ grpPour s g * 128 + 640 * 1024

/-- A SEGLIST record (R322). -/
structure Seg where
  first : Nat
  count : Nat
  lane  : Nat
deriving DecidableEq, Repr

/-- The bytes that a context's item on a physical crucible finds at an address. -/
def peekAt (s : State) (x p a n : Nat) : List Byte := (devRead s (itemAgent x p) a n).2.1

/-- The SEGLIST of an item of a context, as it stands in memory. -/
def segList (s : State) (x : Nat) (i : Item) : List Seg :=
  (List.range (bits (i.w 13) 0 17)).map (fun n =>
    let b := peekAt s x i.phys (i.w64 11 + 16 * n) 16
    ⟨leNat (b.take 8) % 2 ^ 40, leNat ((b.drop 8).take 4), leNat ((b.drop 12).take 2)⟩)

end Sys2Proof.Machine
end

