-- ==== Sys2Proof/Machine/Alloy.lean ====
section
/-! DEFINITION. Collective groups and their commands: the group queue, the scalar tree, the butterfly, lanes, broadcasts,
cancels and aborts (R298 to R335, R379). -/
namespace Sys2Proof.Machine
open Reg

/-- A group beside its registers. -/
def grpAt (s : State) (g : Nat) : AlyGroup := spGet s.alloy g AlyGroup.init
/-- The state with a group changed. -/
def setGrp (s : State) (g : Nat) (v : AlyGroup) : State := { s with alloy := spPut s.alloy g v AlyGroup.init }
/-- The state with a group's running collective changed. -/
def setColl (s : State) (g : Nat) (f : AlyColl → AlyColl) : State :=
  setGrp s g { grpAt s g with cur := (grpAt s g).cur.map f }
/-- The item of a running collective. -/
def collItem (s : State) (c : AlyColl) : Option Item := findItem s c.key c.index
/-- The dimensions' partner of this device. -/
def partner (s : State) (d : Nat) : Nat := selfAddr s ^^^ 2 ^ d

/-- A collective packet with its group, SEQ, SIG, AOP and sender in front (R300, R302). -/
def sendAly (s : State) (name : String) (g seq aop dest : Nat) (rest : List Nat) : State :=
  let x := grpOwner s g
  sendMsg s name dest ([g, seq, grpSig s g, aop, selfAddr s] ++ rest) 2 (sliceTag s x) (phaseOf s x) g
    (if name = "UP" ∨ name = "DOWN" then 256 else if name = "LANES" then min packetBytes (4 * rest.length) else min 192 (4 * rest.length))

/-- The fault field of a packet: 0, or 2^16 plus the first faulted member (R326). -/
def faultField (f : Option Nat) : Nat := match f with
  | some a => 65536 + a % 65536
  | none => 0
/-- An integer as the low 320 bits of its two's complement, in 32-bit words (R308). -/
def intWords (v : Int) : List Nat := (List.range 10).map (fun n => ((v % 2 ^ 320).toNat / 2 ^ (32 * n)) % 2 ^ 32)
/-- The words of scalar values. -/
def valWords (l : List (Int × Nat)) : List Nat := l.flatMap (fun v => intWords v.1 ++ [v.2])

/-- The neighbours to which a collective would send packets (R329). -/
def collNeighbours (s : State) (g : Nat) (i : Item) (upFrom : List Nat) : List Nat :=
  match i.aop with
  | 4 => (grpDimList s g).map (partner s)
  | 5 =>
    let r := grpRank s g (selfAddr s)
    let relay := bit (i.w 2) 0
    ((bcPrev r relay).toList ++ bcNext (grpN s g) r relay).map (grpAddrOf s g)
  | _ => (if grpIsRoot s g then [] else [grpParent s g]) ++ upFrom

/-- Sends VOID to neighbours, all but one. -/
def sendVoids (s : State) (g seq aop : Nat) (dests : List Nat) (not_ : Nat) : State :=
  (dests.filter (· != not_)).foldl (fun st d => sendAly st "VOID" g seq aop d []) s

/-- The event of a completion status (Table 8.3). -/
def collEvent (s : State) (g : Nat) (c : AlyColl) (status detail : Nat) : State :=
  match status with
  | 0x40 | 0x41 => logUnit s 0x0404 g [g, c.seq, status, detail / 65536]
  | 0x42 => logUnit s 0x0405 g ([g, c.seq] ++ datum64 (c.granted.getD 0))
  | 0x44 => if c.fault = some (selfAddr s) then s else logUnit s 0x0402 g [g, c.seq, 0, c.fault.getD 0]
  | 0x46 | 0x47 => logUnit s 0x040B g [g, c.seq, status, detail]
  | 0x48 => logUnit s 0x040A g [g, grpOwner s g, detail]
  | _ => s

/-- The root's arrival table (R328): its critical member's counter advances where the table may be written. -/
def arrivalTable (s : State) (g : Nat) (k : Nat) (crit : Nat) : State :=
  let base := rd64 s (ALY_GRP_SLOW_LO g)
  let a := base + 4 * grpRank s g crit
  if base = 0 ∨ grpRoot s g ≠ selfAddr s ∨ !writeOk s (qCtx k) (qCru k) a 4 ∨ !readOk s (qCtx k) (qCru k) a 4 then s
  else if isPoisoned s a then s
  else (devWrite s hostAgent a (leBytes 4 (min 0xFFFFFFFF (leNat (bytesAt s.mem a 4) + 1)))).1

/-- The outcome's counters: collectives that ran to their end, cancels and late cancels, with the choices that they are
(R327, R330, R390). -/
def collCount (s : State) (g : Nat) (c : AlyColl) (status : Nat) : State :=
  let ended := status != 0x40 && status != 0x41 && status != 0x43
  let s1 := if ended then cntAdd s (ALY_GRP_DONE_CNT_LO g) 1 else s
  let s2 := if status = 0x40 ∨ status = 0x41 ∨ status = 0x43 then cntAdd s1 (ALY_GRP_CANCEL_CNT_LO g) 1
    else if status = 0x42 then cntAdd s1 (ALY_GRP_LATE_CNT_LO g) 1 else s1
  let s3 := if status = 0x40 ∨ status = 0x41 ∨ status = 0x42 then
      countChoice s2 2 (qCtx c.key) (((collItem s c).map (·.step)).getD 0) g else s2
  if !ended then s3 else
  let s4 := setReg s3 (ALY_GRP_LASTADDR g) (c.crit % 65536 + c.dim % 32 * 65536 + 2 ^ 31)
  if c.dim < 16 then satAdd s4 (ALY_GRP_DIMLAST_CNT g c.dim) 1 else s4

/-- Ends the running collective with a status (R306): its item is done, and the group's next may begin. -/
def collEnd (s : State) (g status detail : Nat) : State :=
  match (grpAt s g).cur with
  | none => s
  | some c =>
    let s0 := collCount (collEvent s g c status detail) g c status
    let s1 := if status = 0x40 ∨ status = 0x41 ∨ status = 0x43 then s0 else arrivalTable s0 g c.key c.crit
    let s2 := itemDone (dropReqs s1 c.key c.index) c.key c.index status detail
    let s3 := if status = 0x44 ∧ c.fault = some (selfAddr s) then s2.withInteg { s2.integ with alyDue := true } else s2
    setGrp s3 g { grpAt s3 g with cur := none }

/-- The status of a collective that ran to its end: a fault first, then lost data, then a range fault, then a late cancel
(Table 8.3, log entry 30). -/
def collFinish (s : State) (g : Nat) (c : AlyColl) : State :=
  let err := (collItem s c).bind (·.err)
  match c.fault, err with
  | some a, _ => collEnd s g 0x44 (c.seq + 65536 * a)
  | none, some e => collEnd s g 4 (errDetail e)
  | none, none =>
    if c.lost ≠ 0 then collEnd s g 0x46 c.lost
    else match c.range with
      | some d => collEnd s g 0x47 d
      | none => if c.late then collEnd s g 0x42 c.seq else collEnd s g 0 0

/-- Takes CRIT and the dimension from a packet that arrived while the collective waited (R327). -/
def noteCrit (c : AlyColl) (p : AlyPkt) : AlyColl :=
  { c with crit := p.crit, dim := p.dim, fault := match c.fault with
    | some a => some a
    | none => p.fault }

/-- A residue mismatch met while combining (R325, R326): corrected, or the collective is faulted on this device. -/
def noteResidue (s : State) (g residue op : Nat) : State :=
  match (grpAt s g).cur with
  | none => s
  | some c =>
    if residue = 0 then s else
    let s1 := cntAdd s (ALY_GRP_RESIDUE_CNT_LO g) 1
    if residue = 1 then logUnit s1 0x0401 g [g, c.seq, 0, op] else
    let f := c.fault.getD (selfAddr s)
    setColl (logUnit s1 0x0402 g [g, c.seq, 0, f]) g (fun d => { d with fault := some f })

/-- Values that an item reads at an address, as FP32 or integer words; answers the units lost (R364, R306). -/
def alyRead (s : State) (c : AlyColl) (err : Option DataErr) (a first n : Nat) : State × List Word × Nat :=
  let p := physOf s (qCru c.key)
  let r := devRead s (itemAgent (qCtx c.key) p) (a + 4 * first) (4 * n)
  let ws := (chunksOf 4 n r.2.1).map (fun b => BitVec.ofNat 32 (leNat b))
  (r.1, (loseElems (err.map (fun e => { e with first := e.first - first })) (ws.map some)).zipIdx.map (fun (w, j) =>
    match err with
    | some e => if e.first ≤ first + j ∧ first + j < e.first + e.count then 0xFFFFFFFF#32 else ws.getD j 0
    | none => w.getD 0), r.2.2)

/-- Writes words at an address; answers the partial writes that failed. -/
def alyWrite (s : State) (c : AlyColl) (a first : Nat) (ws : List Word) : State × Nat :=
  devWrite s (itemAgent (qCtx c.key) (physOf s (qCru c.key))) (a + 4 * first) (ws.flatMap (fun w => leBytes 4 w.toNat))

/-- Completes a scalar collective on this member: PHASE changes the bank, SCALAR writes its results (R308 to R310). -/
def scalarResult (s : State) (g : Nat) (c : AlyColl) (i : Item) (vals : List (Int × Nat)) : State :=
  match i.aop with
  | 2 =>
    let bank := bits (i.w 1) 16 2
    if bit (rd s SPR_RT_CTRL) (8 + bank) then collFinish (setReg s (SPR_CTX_PHASE (grpOwner s g)) bank) g c
    else if c.fault.isSome then collFinish s g c
    else collEnd s g 0x48 bank
  | 3 =>
    let w := alyWrite s c (i.w64 5) 0 (vals.map (scalarOut (bits (i.w 2) 0 4)))
    collFinish (setColl w.1 g (fun d => { d with lost := d.lost + w.2 })) g { c with lost := c.lost + w.2 }
  | _ => collFinish s g c

/-- Advances a scalar collective (R307): once every child's up packet is here, up to the parent, or down from the root. -/
def scalarStep (s : State) (g : Nat) (c : AlyColl) (i : Item) : State :=
  let sop := bits (i.w 2) 0 4
  match c.inbox.find? (fun p => p.kind == 1) with
  | some p =>
    let vals := c.vals.zipIdx.map (fun (v, n) =>
      if p.residue = 2 then scalarFault sop else scalarAdd sop v (p.vals.getD n (0, 0)))
    let s1 := setColl s g (fun d => { d with
      inbox := d.inbox.erase p, upFrom := d.upFrom ++ [p.sender], vals := vals })
    noteResidue s1 g p.residue i.aop
  | none =>
    if c.upFrom.length < (if grpN s g = 0 then 0 else grpNchild s g) then s
    else if grpIsRoot s g || grpN s g == 0 then
      let s1 := c.upFrom.foldl (fun st d => sendAly st "DOWN" g c.seq i.aop d
        ([c.crit, faultField c.fault] ++ valWords c.vals)) s
      scalarResult s1 g { c with granted := some (tickNow s) } i c.vals
    else if c.granted.isNone then
      setColl (sendAly s "UP" g c.seq i.aop (grpParent s g) ([c.crit, faultField c.fault] ++ valWords c.vals)) g
        (fun d => { d with granted := some (tickNow s) })
    else match c.inbox.find? (fun p => p.kind == 2) with
      | none => s
      | some p =>
        let c1 := noteCrit c p
        let s1 := c.upFrom.foldl (fun st d => sendAly st "DOWN" g c.seq i.aop d
          ([p.crit, faultField c1.fault] ++ valWords p.vals)) s
        scalarResult (setColl s1 g (fun _ => c1)) g c1 i p.vals

/-- MODE of a REDUCE. -/
def redMode (i : Item) : Nat := bits (i.w 2) 0 2
/-- Whether a stage over a dimension is narrowed (R317). -/
def narrowed (s : State) (g : Nat) (i : Item) (d : Nat) : Bool :=
  grpNfmt s g != 0 && decide (grpNdimFrom s g ≤ d) && i.w64 7 != 0 && redMode i != 2
/-- Whether any stage of an item is narrowed. -/
def anyNarrowed (s : State) (g : Nat) (i : Item) : Bool := (grpDimList s g).any (narrowed s g i)

/-- Stages of a pour: reduce-scatter stages and then all-gather stages, numbered from 0. -/
def stageCount (s : State) (g : Nat) (i : Item) : Nat := if redMode i = 1 then grpN s g else 2 * grpN s g
/-- The dimension of a stage (R313). -/
def stageDim (s : State) (g pour stage : Nat) : Nat :=
  let n := grpN s g
  (stageDims s g pour).getD (if stage < n then stage else 2 * n - 1 - stage) 0
/-- Whether this member's rank bit for a dimension is 1. -/
def upperHalf (s : State) (g d : Nat) : Bool := bit (selfAddr s ^^^ grpRoot s g) d

/-- The elements of a pour. -/
def pourRange (s : State) (g pour count : Nat) : Nat × Nat :=
  let e := 32 * 2 ^ grpPour s g
  (pour * e, min e (count - pour * e))
/-- The pours of an item. -/
def pourCount (s : State) (g count : Nat) : Nat := (count + 32 * 2 ^ grpPour s g - 1) / (32 * 2 ^ grpPour s g)

/-- The ranges of a pour down to the shard (R313), the shard first. -/
def shardRanges (s : State) (g pour : Nat) (r : Nat × Nat) : List (Nat × Nat) :=
  (stageDims s g pour).foldl (fun l d => (splitRange (l.headD (0, 0)) (upperHalf s g d)).1 :: l) [r]

/-- What a member sends, keeps and receives at its stage: the range it sends, and the range that arrives. -/
def stageRanges (s : State) (g : Nat) (p : AlyPour) : (Nat × Nat) × (Nat × Nat) :=
  let n := grpN s g
  let cur := p.ranges.headD (0, 0)
  if p.stage < n then
    let sp := splitRange cur (upperHalf s g (stageDim s g p.pour p.stage))
    (sp.2, sp.1)
  else
    -- the whole range at hand goes out; the rest of the range above it comes in
    let above := (p.ranges.drop 1).headD (0, 0)
    (cur, if cur.1 = above.1 then (cur.1 + cur.2, above.2 - cur.2) else (above.1, above.2 - cur.2))

/-- READY of a stage: it names the place where the partner is to write (R314, log entry 31). -/
def sendReady (s : State) (g : Nat) (c : AlyColl) (i : Item) (p : AlyPour) : State :=
  let r := (stageRanges s g p).2
  let a := if p.stage < grpN s g then stagingSlot s g p.pour p.stage else i.w64 3 + 4 * r.1
  sendAly s "READY" g c.seq i.aop (partner s (stageDim s g p.pour p.stage)) ([p.pour, p.stage] ++ datum64 a ++ [faultField c.fault])

/-- The request kind of a stage's writes: 20 plus the stage, the pour's parity and the wire format. -/
def stageKind (p : AlyPour) (fmt : Nat) : Nat := 20 + p.stage + 64 * (p.pour % 2) + 128 * fmt
/-- Whether a request belongs to a stage. -/
def isStageReq (p : AlyPour) (r : LReq) : Bool := decide (20 ≤ r.kind) && (r.kind - 20) % 128 == p.stage + 64 * (p.pour % 2)

/-- Residuals after narrowing (R318, R319): the residual of an element, and how many are reset. -/
def residuals (xs ds : List Word) : List (Word × Bool) :=
  xs.zipIdx.map (fun (x, j) =>
    let d := ds.getD j 0
    if fp32Finite x && fp32Finite d then (fp32Sub x d, false) else (0#32, true))

/-- Narrows elements of this member with error feedback (R318, R319): answers the wire bytes and the decoded values. -/
def feedback (s : State) (g : Nat) (c : AlyColl) (i : Item) (first : Nat) (ps : List Word) :
    State × List Byte × List Word :=
  let e := alyRead s c none (i.w64 7) first ps.length
  let xs := ps.zipIdx.map (fun (p, j) => fp32Add p (e.2.1.getD j 0))
  let nr := narrow (grpNfmt s g) xs
  let rs := residuals xs nr.2
  let w := alyWrite e.1 c (i.w64 7) first (rs.map (·.1))
  let resets := (rs.zipIdx.filter (fun r => r.1.2)).map (fun r => first + r.2)
  let s1 := resets.foldl (fun st j => logUnit st 0x0409 g ([g, c.seq] ++ datum64 j)) w.1
  let s2 := cntAdd (cntAdd s1 (ALY_GRP_RESIDRST_CNT_LO g) resets.length) (ALY_GRP_NARROW_CNT_LO g) ps.length
  (setColl s2 g (fun d => { d with lost := d.lost + e.2.2 + w.2 }), nr.1, nr.2)

/-- Sends a stage's data as requests of at most 32 lines, once the partner is ready (R314). -/
def sendStage (s : State) (g : Nat) (c : AlyColl) (i : Item) (p : AlyPour) (dest addr : Nat) : State :=
  let r := (stageRanges s g p).1
  let d := stageDim s g p.pour p.stage
  let rs := decide (p.stage < grpN s g)
  let fmt := if (if rs then narrowed s g i d else anyNarrowed s g i) then grpNfmt s g else 0
  let v := alyRead s c (if rs then i.err else none) (i.w64 3) r.1 r.2
  let s1 := setColl v.1 g (fun x => { x with lost := x.lost + v.2.2 })
  let pieces := (chunksOf 1024 v.2.1.length v.2.1).zipIdx
  pieces.foldl (fun st (ws, n) =>
    let q := if fmt = 0 then (st, ws.flatMap (fun w => leBytes 4 w.toNat))
      else if rs then let f := feedback st g c i (r.1 + 1024 * n) ws; (f.1, f.2.1)
      else (st, (narrow fmt ws).1)
    addReq q.1 c.key i (stageKind p fmt) (2 ^ 48 * (dest ^^^ selfAddr s) + addr + 4096 * n) q.2.length q.2) s1

/-- The owner's work on its shard after the last reduce-scatter stage: narrowing of the final sums in an ALLREDUCE, and
the flag and lane partials of delivered elements (R318, R323). -/
def ownShard (s : State) (g : Nat) (c : AlyColl) (i : Item) (r : Nat × Nat) : State :=
  if redMode i ≠ 0 ∨ r.2 = 0 then s else
  let v := alyRead s c none (i.w64 3) r.1 r.2
  let q : State × List Word := if anyNarrowed s g i then
      let f := feedback v.1 g c i r.1 v.2.1
      ((alyWrite f.1 c (i.w64 3) r.1 f.2.2).1, f.2.2)
    else (v.1, v.2.1)
  if !i.lanes then q.1 else
  let bad := q.2.any (fun w => !fp32Finite w)
  let lanes := (segList s (qCtx c.key) i).filterMap (fun sg =>
    let lo := max sg.first r.1
    let hi := min (sg.first + sg.count) (r.1 + r.2)
    if hi ≤ lo then none else
    let ws := (q.2.drop (lo - r.1)).take (hi - lo)
    some (sg.lane, (ws.map squareUnits).sum, ws.any (fun w => !fp32Finite w)))
  setColl q.1 g (fun d => { d with flag := d.flag || bad, lanes := addLanes d.lanes lanes })

/-- A pour that enters its stages. -/
def startPour (s : State) (g : Nat) (c : AlyColl) (i : Item) : State :=
  let r := pourRange s g c.nextPour i.redCount
  let gather := redMode i == 2
  let p : AlyPour := ⟨c.nextPour, if gather then grpN s g else 0, if gather then shardRanges s g c.nextPour r else [r],
    false, false⟩
  let s1 := setColl s g (fun d => { d with nextPour := d.nextPour + 1, pours := d.pours ++ [p] })
  sendReady s1 g c i p

/-- The state with a pour of the running collective changed. -/
def setPour (s : State) (g pour : Nat) (f : AlyPour → AlyPour) : State :=
  setColl s g (fun d => { d with pours := d.pours.map (fun p => if p.pour = pour then f p else p) })

/-- The end of a stage (R313, R314): received elements are added, the range changes, and the next stage is entered or the
pour is over. -/
def endStage (s : State) (g : Nat) (c : AlyColl) (i : Item) (p : AlyPour) (pk : AlyPkt) : State :=
  let n := grpN s g
  let s0 := setColl s g (fun d => noteCrit { d with inbox := d.inbox.erase pk } pk)
  let inc := (stageRanges s g p).2
  let s1 :=
    if p.stage < n then
      let own := alyRead s0 c i.err (i.w64 3) inc.1 inc.2
      let got := alyRead own.1 c none (stagingSlot s g p.pour p.stage) 0 inc.2
      let sum := own.2.1.zipIdx.map (fun (w, j) =>
        if pk.residue = 2 then canonNan else fp32Add w (got.2.1.getD j 0))
      let w := alyWrite got.1 c (i.w64 3) inc.1 sum
      noteResidue (setColl w.1 g (fun d => { d with lost := d.lost + own.2.2 + got.2.2 })) g pk.residue i.aop
    else s0
  let ranges := if p.stage < n then inc :: p.ranges else p.ranges.drop 1
  let p1 : AlyPour := ⟨p.pour, p.stage + 1, ranges, false, false⟩
  let s2 := if p.stage + 1 = n then ownShard s1 g c i inc else s1
  if stageCount s g i ≤ p1.stage then
    setColl s2 g (fun d => { d with pours := d.pours.filter (fun q => q.pour != p.pour) })
  else sendReady (setPour s2 g p.pour (fun _ => p1)) g c i p1

/-- The first step that some pour of a REDUCE can make. -/
def pourStep (s : State) (g : Nat) (c : AlyColl) (i : Item) : Option State :=
  c.pours.findSome? (fun p =>
    let from_ := partner s (stageDim s g p.pour p.stage)
    let find (kind : Nat) : Option AlyPkt := c.inbox.find? (fun q =>
      q.kind == kind && q.pour == p.pour && q.stage == p.stage && q.sender == from_)
    if !p.sent then (find 3).map (fun q =>
      setPour (sendStage (setColl s g (fun d => { d with inbox := d.inbox.erase q })) g c i p from_ q.addr) g p.pour
        (fun x => { x with sent := true }))
    else if !p.doneOut then
      if (itemReqs s c.key c.index).any (fun r => isStageReq p r && r.answer.map (·.1) != some 0) then none
      else
        let s1 := s.withLadle { s.ladle with reqs := s.ladle.reqs.filter (fun r =>
          !(r.queue == c.key && r.index == c.index && isStageReq p r)) }
        some (setPour (sendAly s1 "DONE" g c.seq i.aop from_ [p.pour, p.stage, c.crit, faultField c.fault]) g p.pour
          (fun x => { x with doneOut := true }))
    else (find 4).map (fun q => endStage s g c i p q))

/-- The results of the lane phase (R324): each lane rounded once, and GRAD_NF. -/
def laneResults (s : State) (g : Nat) (c : AlyColl) (i : Item) : State :=
  let chk := i.w64 9
  let hd := devRead s (itemAgent (qCtx c.key) i.phys) chk 64
  if hd.2.2 ≠ 0 then collFinish hd.1 g { c with lost := c.lost + hd.2.2 } else
  let nl := leNat (hd.2.1.drop 8 |>.take 4)
  let segs := segList s (qCtx c.key) i
  let lanes := (segs.map (·.lane)).eraseDups
  let badSeg := leastFrom (fun n => decide (nl ≤ (segs.getD n ⟨0, 0, 0⟩).lane)) 0 segs.length
  let bad : Option Nat :=
    if badSeg < segs.length then some badSeg
    else if 4096 < lanes.length ∨ lanes.any (fun l => !alyOk s c (chk + 64 + 4 * l)) then some 0 else none
  match bad with
  | some n => collFinish (setColl s g (fun d => { d with range := some n })) g { c with range := some n }
  | none =>
    let s1 := lanes.foldl (fun st l =>
      let e := (c.lanes.find? (fun x => x.1 == l)).getD (l, 0, false)
      (alyWrite st c (chk + 64 + 4 * l) 0 [laneOut e.2.1 e.2.2]).1) s
    let nf := leNat (hd.2.1.drop 12 |>.take 4)
    let s2 := if c.flag then (alyWrite s1 c (chk + 12) 0 [BitVec.ofNat 32 (nf ||| 1)]).1 else s1
    collFinish s2 g c
where
  /-- Whether the owner may write a lane. -/
  alyOk (s : State) (c : AlyColl) (a : Nat) : Bool := alloyAddr s (qCtx c.key) (qCru c.key) 1 a 4

/-- Advances the lane phase (R324). -/
def laneStep (s : State) (g : Nat) (c : AlyColl) (i : Item) : State :=
  let dims := stageDims s g 0
  if dims.length ≤ c.laneStage then laneResults s g c i else
  let mate := partner s (dims.getD c.laneStage 0)
  if !c.laneOut then
    setColl (sendAly s "LANES" g c.seq i.aop mate ([c.laneStage, b2n c.flag, c.crit, faultField c.fault] ++
      c.lanes.flatMap (fun l => [l.1, b2n l.2.2] ++ intWords l.2.1))) g (fun d => { d with laneOut := true })
  else match c.inbox.find? (fun p => p.kind == 5 && p.stage == c.laneStage && p.sender == mate) with
    | none => s
    | some p =>
      let lanes := addLanes c.lanes p.lanes
      let lanes1 := if p.residue = 2 then lanes.map (fun l => (l.1, l.2.1, true)) else lanes
      noteResidue (setColl s g (fun d => noteCrit { d with
        inbox := d.inbox.erase p, flag := d.flag || p.flag, lanes := lanes1, laneStage := d.laneStage + 1,
        laneOut := false } p)) g p.residue i.aop

/-- Advances a REDUCE: at most two pours in flight (R313), then the lanes, then its end. -/
def reduceStep (s : State) (g : Nat) (c : AlyColl) (i : Item) : State :=
  if grpN s g = 0 then
    let r := (0, i.redCount)
    if c.laneOut || !i.lanes then (if i.lanes then laneResults s g c i else collFinish s g c)
    else setColl (ownShard s g c i r) g (fun d => { d with laneOut := true })
  else if c.nextPour < pourCount s g i.redCount ∧ c.pours.length < 2 then startPour s g c i
  else match pourStep s g c i with
    | some t => t
    | none =>
      if !c.pours.isEmpty then s
      else if i.lanes then laneStep s g c i
      else collFinish s g c

/-- The bytes of a broadcast's chunk. -/
def chunkLen (i : Item) (n : Nat) : Nat := min 65536 (i.bcBytes - n * 65536)
/-- The chunks of a broadcast. -/
def chunkCount (i : Item) : Nat := (i.bcBytes + 65535) / 65536

/-- Sends one chunk that is at hand to one member that is ready; the root reads each chunk once (R332). -/
def chunkSend (s : State) (g : Nat) (c : AlyColl) (i : Item) (m n : Nat) : State :=
  let a := i.w64 3 + 65536 * n
  let r := if c.chunks.contains n then (s, peekAt s (qCtx c.key) i.phys a (chunkLen i n), 0)
    else devRead s (itemAgent (qCtx c.key) (physOf s (qCru c.key))) a (chunkLen i n)
  let data := (loseBytes i.err (65536 * n) (r.2.1.map some)).map markByte
  let s1 := setColl r.1 g (fun d => { d with
    chunks := if d.chunks.contains n then d.chunks else d.chunks ++ [n], sent := d.sent ++ [(m, n)], lost := d.lost + r.2.2 })
  addReq s1 c.key i 19 (2 ^ 48 * (m ^^^ selfAddr s) + n) data.length data

/-- Advances a BCAST (R332, R333). -/
def bcastStep (s : State) (g : Nat) (c : AlyColl) (i : Item) : State :=
  let rank := grpRank s g (selfAddr s)
  let relay := bit (i.w 2) 0
  let next := (bcNext (grpN s g) rank relay).map (grpAddrOf s g)
  match c.inbox.find? (fun p => p.kind == 6) with
  | some p =>
    let n := p.stage
    let w := devWrite s (itemAgent (qCtx c.key) (physOf s (qCru c.key))) (i.w64 3 + 65536 * n) (p.data.take (chunkLen i n))
    setColl w.1 g (fun d => noteCrit { d with
      inbox := d.inbox.erase p, chunks := if d.chunks.contains n then d.chunks else d.chunks ++ [n], lost := d.lost + w.2 } p)
  | none =>
    let ready := next.filter (fun m => c.inbox.any (fun p => p.kind == 3 && p.sender == m))
    let here (n : Nat) : Bool := rank == 0 || c.chunks.contains n
    let todo := ready.findSome? (fun m => ((List.range (chunkCount i)).find? (fun n =>
      here n && !c.sent.contains (m, n))).map (fun n => (m, n)))
    match todo with
    | some (m, n) => chunkSend s g c i m n
    | none =>
      let all := (List.range (chunkCount i)).all here
      let out := next.all (fun m => (List.range (chunkCount i)).all (fun n => c.sent.contains (m, n)))
      if all && out && !((itemReqs s c.key c.index).any (fun r => r.answer.map (·.1) != some 0)) then collFinish s g c
      else s

/-- One step of the running collective of a group. -/
def collStep (s : State) (g : Nat) : State :=
  match (grpAt s g).cur with
  | none => s
  | some c => match collItem s c with
    | none => s
    | some i => match i.aop with
      | 4 => reduceStep s g c i
      | 5 => bcastStep s g c i
      | _ => scalarStep s g c i

/-- The collective that an item begins as (R302, R323, R327): its own values, flag and grant. -/
def newColl (s : State) (key idx seq : Nat) (i : Item) (inbox : List AlyPkt) : State × AlyColl :=
  let base : AlyColl := ⟨key, idx, seq, none, false, selfAddr s, 31, none, 0, none, inbox, [], [], 0, [], false, [], 0,
    false, [], []⟩
  match i.aop with
  | 3 =>
    let n := bits (i.w 2) 4 4
    let r := alyRead s base i.err (i.w64 3) 0 n
    (r.1, { base with vals := r.2.1.map (scalarIn (bits (i.w 2) 0 4)), lost := r.2.2 })
  | 4 =>
    let x := qCtx key
    let sticky := bit (rd s LDL_SWP_CTRL) 0 && bit (rd s (LDL_SLAG_NF x)) 0
    let nf := (List.range i.redCount).any (fun j => !fp32Finite (BitVec.ofNat 32 (leNat (peekAt s x i.phys (i.w64 3 + 4 * j) 4))))
    let seg := if i.lanes then devRead s (itemAgent x i.phys) (i.w64 11) (16 * bits (i.w 13) 0 17) else (s, [], 0)
    (seg.1, { base with granted := some (tickNow s), flag := i.lanes && (sticky || nf), lost := seg.2.2 })
  | 5 => (s, { base with granted := some (tickNow s) })
  | _ => (s, base)

/-- Whether a SEQ of a packet is that of a collective not yet begun, given the group's next SEQ (R302). -/
def seqAhead (next seq : Nat) : Bool := decide ((65536 + seq - next) % 65536 < 32768)

/-- Whether a packet kind fits an AOP. -/
def kindFits (kind aop : Nat) : Bool :=
  match kind with
  | 1 | 2 => aop == 1 || aop == 2 || aop == 3
  | 3 => aop == 4 || aop == 5
  | 4 | 5 => aop == 4
  | _ => aop == 5

/-- Begins the collective at the head of a group's queue, where none runs: cancelled, voided, or started (R302, R329,
R330). -/
def collBegin (s : State) (g : Nat) : State :=
  let v := grpAt s g
  match v.cur, v.queue with
  | none, (k, idx, cancelled) :: rest => match findItem s k idx with
    | none => setGrp s g { v with queue := rest }
    | some i =>
      let seq := v.seq
      let mine := v.early.filter (fun p => p.seq == seq)
      let r := newColl s k idx seq i mine
      let s1 := setGrp r.1 g { v with
        queue := rest, seq := (seq + 1) % 65536, cur := some r.2, early := v.early.filter (fun p => p.seq != seq) }
      if cancelled then
        collEnd (sendVoids (noteVoid s1 g seq (selfAddr s)) g seq i.aop (collNeighbours s1 g i []) (selfAddr s)) g 0x40 seq
      else match v.voids.find? (fun e => e.1 == seq) with
        | some (_, sender) =>
          collEnd (sendVoids s1 g seq i.aop (collNeighbours s1 g i []) sender) g 0x41 (seq + 65536 * sender)
        | none => match mine.find? (fun p => !(kindFits p.kind i.aop && p.aop == i.aop)) with
        | some p =>
          let s2 := logUnit s1 0x0403 g [g, seq, p.sender, grpSig s g, grpSig s g]
          let s3 := sendVoids (noteVoid s2 g seq (selfAddr s)) g seq i.aop (collNeighbours s1 g i []) (selfAddr s)
          collEnd s3 g 0x43 (seq + 65536 * p.sender)
        | none =>
          if i.aop = 5 then match bcPrev (grpRank s g (selfAddr s)) (bit (i.w 2) 0) with
            | some m => sendAly s1 "READY" g seq i.aop (grpAddrOf s g m) ([0, 0] ++ datum64 (i.w64 3))
            | none => s1
          else s1
  | _, _ => s
where
  /-- Remembers a VOID of a SEQ, so that late packets of it are answered. -/
  noteVoid (s : State) (g seq sender : Nat) : State :=
    let v := grpAt s g
    let kept := (v.voids.filter (fun e => e.1 != seq) ++ [(seq, sender)]).drop (if 64 ≤ v.voids.length then 1 else 0)
    setGrp s g { v with voids := kept }

/-- Runs a group until it can do nothing more: as many steps as `fuel`. -/
def grpRun : Nat → State → Nat → State
  | 0, s, _ => s
  | f + 1, s, g =>
    let t := collStep (collBegin s g) g
    if t.alloy = s.alloy ∧ t.ladle.reqs = s.ladle.reqs ∧ t.queues = s.queues then t else grpRun f t g

/-- Steps that a group may need at one time: enough for every item of its queue. -/
def grpFuel (s : State) (g : Nat) : Nat :=
  let v := grpAt s g
  let size (k idx : Nat) : Nat := match findItem s k idx with
    | some i => 8 + (match i.aop with
      | 4 => pourCount s g i.redCount * (8 * grpN s g + 4) + 4 * grpN s g
      | 5 => chunkCount i * (grpN s g + 2)
      | _ => grpNchild s g + 4)
    | none => 8
  ((v.queue.map (fun e => size e.1 e.2.1)).sum + (match v.cur with
    | some c => size c.key c.index
    | none => 0)) + 64

/-- Runs a group. -/
def grpGo (s : State) (g : Nat) : State := grpRun (grpFuel s g) s g

/-- The next ALY item of a queue, where it has this AOP, may issue, and its group's queue has room (R298). -/
def alyNext (s : State) (k aop : Nat) : Option Item :=
  (issuable s k 0x50).filter (fun i => i.aop == aop && s.integ.alyTest.isNone &&
    (aop == 6 || (decide ((grpAt s i.group).queue.length + b2n (grpAt s i.group).cur.isSome < 16) && grpOn s i.group &&
      decide (physOf s (grpBind s i.group) < 264))))

/-- An ALY item issued into its group's queue, with the parity error `e` of the engine's data paths. -/
def alyJoin (s : State) (k : Nat) (i : Item) (e : Option DataErr) : State :=
  let s1 := setItem (issueItem s k i.index) k i.index (fun j => { j with err := e })
  let s2 := match e with
    | some d => parityFound s1 d.code i.group d.line i.index
    | none => s1
  let v := grpAt s2 i.group
  let s3 := setGrp s2 i.group { v with queue := v.queue ++ [(k, i.index, false)] }
  grpGo s3 i.group

/-- Issues an ALY item into its group's queue. `err` is a parity error of unit code 9. -/
def alyCommand (s : State) (c x q aop : Nat) (err : Option DataErr) : State :=
  let k := qKey c x q
  match alyNext s k aop with
  | none => s
  | some i => orWait s (alyJoin s k i (errFor s [9] err))

/-- BARRIER (R309). -/
def execBarrier (c x q : Nat) (s : State) : Host.Outcome State Fault Refusal := .next (alyCommand s c x q 1 none)
/-- PHASE (R310). -/
def execPhase (c x q : Nat) (s : State) : Host.Outcome State Fault Refusal := .next (alyCommand s c x q 2 none)
/-- SCALAR (R308). -/
def execScalar (c x q : Nat) (err : Option DataErr) (s : State) : Host.Outcome State Fault Refusal :=
  .next (alyCommand s c x q 3 err)
/-- REDUCE (R312). -/
def execReduce (c x q : Nat) (err : Option DataErr) (s : State) : Host.Outcome State Fault Refusal :=
  .next (alyCommand s c x q 4 err)
/-- BCAST (R332). -/
def execBcast (c x q : Nat) (err : Option DataErr) (s : State) : Host.Outcome State Fault Refusal :=
  .next (alyCommand s c x q 5 err)

/-- A cancel that reaches a group (R329): queued collectives, and a running one whose first message has not been granted,
are cancelled; a granted one runs on and is marked. -/
def grpCancel (s : State) (g : Nat) : State :=
  let v := grpAt s g
  let s1 := setGrp s g { v with queue := v.queue.map (fun e => (e.1, e.2.1, true)) }
  match v.cur with
  | none => grpGo s1 g
  | some c => match c.granted, collItem s c with
    | none, some i =>
      let s2 := collBegin.noteVoid s1 g c.seq (selfAddr s)
      grpGo (collEnd (sendVoids s2 g c.seq i.aop (collNeighbours s g i c.upFrom) (selfAddr s)) g 0x40 c.seq) g
    | _, _ => grpGo (setColl s1 g (fun d => { d with late := true })) g

/-- CANCEL (R329): the item completes at issue. -/
def execCancel (c x q : Nat) (s : State) : Host.Outcome State Fault Refusal :=
  let k := qKey c x q
  match alyNext s k 6 with
  | none => .next s
  | some i => .next (orWait s (completeItem (grpCancel s i.group) k { i with phys := physOf s c } 0 0))

/-- A packet that disagrees with the group's signature or kind (R300, R302). -/
def grpMismatch (s : State) (g : Nat) (p : AlyPkt) (sig : Nat) : State :=
  let s1 := logUnit s 0x0403 g [g, p.seq, p.sender, sig, grpSig s g]
  match (grpAt s g).cur with
  | none => s1
  | some c => match collItem s c with
    | none => s1
    | some i =>
      let s2 := collBegin.noteVoid s1 g c.seq (selfAddr s)
      grpGo (collEnd (sendVoids s2 g c.seq i.aop (collNeighbours s g i c.upFrom) (selfAddr s)) g 0x43
        (c.seq + 65536 * p.sender)) g

/-- A collective packet arrives (R300, R302, R330): checked, kept for its SEQ, or used. Packets of a past SEQ are dropped;
one of a voided SEQ is answered with VOID. -/
def alyArrive (s : State) (g sig aop : Nat) (p : AlyPkt) : State :=
  if !grpOn s g then s
  else if sig ≠ grpSig s g then grpMismatch s g p sig
  else
    let v := grpAt s g
    match v.cur with
    | some c =>
      if p.seq = c.seq then
        if !(kindFits p.kind aop && ((collItem s c).map (·.aop)) == some aop) then grpMismatch s g p sig
        else grpGo (setColl s g (fun d => noteIn { d with inbox := d.inbox ++ [p] } p)) g
      else other s v
    | none => other s v
where
  /-- A packet of another SEQ. -/
  other (s : State) (v : AlyGroup) : State :=
    if v.voids.any (fun e => e.1 == p.seq) then sendAly s "VOID" g p.seq aop p.sender []
    else if seqAhead v.seq p.seq then setGrp s g { v with early := v.early ++ [p] }
    else s
  /-- CRIT of an up packet that arrives while the member waits (R327), and the fault bit of a READY (R326). -/
  noteIn (c : AlyColl) (p : AlyPkt) : AlyColl :=
    if p.kind = 1 then noteCrit c p
    else if p.kind = 3 then { c with fault := match c.fault with
      | some a => some a
      | none => p.fault }
    else c

/-- UP_PACKET (R307). -/
def execUpPacket (g seq sender sig aop crit dim : Nat) (fault : Option Nat) (residue : Nat) (vals : List (Int × Nat))
    (s : State) : Host.Outcome State Fault Refusal :=
  if s.mode != .ready then .next (dropArrival s) else
  .next (orWait s (alyArrive s (g % 256) sig aop ⟨1, seq, sender, 0, 0, 0, vals, [], false, crit, dim, fault, residue, [], aop⟩))
/-- DOWN_PACKET (R307). -/
def execDownPacket (g seq sender sig aop crit dim : Nat) (fault : Option Nat) (vals : List (Int × Nat)) (s : State) :
    Host.Outcome State Fault Refusal :=
  if s.mode != .ready then .next (dropArrival s) else
  .next (orWait s (alyArrive s (g % 256) sig aop ⟨2, seq, sender, 0, 0, 0, vals, [], false, crit, dim, fault, 0, [], aop⟩))
/-- READY_NOTICE (R314). -/
def execReadyNotice (g seq sender sig aop pour stage addr : Nat) (fault : Option Nat) (s : State) :
    Host.Outcome State Fault Refusal :=
  if s.mode != .ready then .next (dropArrival s) else
  .next (orWait s (alyArrive s (g % 256) sig aop
    ⟨3, seq, sender, pour, stage, addr, [], [], false, sender, 31, fault, 0, [], aop⟩))
/-- DONE_NOTICE (R314). -/
def execDoneNotice (g seq sender sig pour stage crit dim : Nat) (fault : Option Nat) (residue : Nat) (s : State) :
    Host.Outcome State Fault Refusal :=
  if s.mode != .ready then .next (dropArrival s) else
  .next (orWait s (alyArrive s (g % 256) sig 4
    ⟨4, seq, sender, pour, stage, 0, [], [], false, crit, dim, fault, residue, [], 4⟩))
/-- LANE_PARTIALS (R324). -/
def execLanePartials (g seq sender sig stage crit dim : Nat) (flag : Bool) (fault : Option Nat) (residue : Nat)
    (lanes : List (Nat × Nat × Bool)) (s : State) : Host.Outcome State Fault Refusal :=
  if s.mode != .ready then .next (dropArrival s) else
  .next (orWait s (alyArrive s (g % 256) sig 4
    ⟨5, seq, sender, 0, stage, 0, [], lanes, flag, crit, dim, fault, residue, [], 4⟩))
/-- BCAST_CHUNK (R332). -/
def execBcastChunk (g seq sender sig chunk dim : Nat) (data : List Byte) (s : State) : Host.Outcome State Fault Refusal :=
  if s.mode != .ready then .next (dropArrival s) else
  .next (orWait s (alyArrive s (g % 256) sig 5
    ⟨6, seq, sender, 0, chunk, 0, [], [], false, sender, dim, none, 0, data, 5⟩))

/-- VOID arrives (R330): the collective of its SEQ is voided, whether begun, queued or to come; it is forwarded once. -/
def voidArrive (s : State) (g seq sender sig : Nat) : State :=
  if !grpOn s g || sig != grpSig s g then s else
  let v := grpAt s g
  if v.voids.any (fun e => e.1 == seq) then s else
  match v.cur with
  | some c =>
    if c.seq = seq then match collItem s c with
      | some i =>
        let s1 := collBegin.noteVoid s g seq sender
        grpGo (collEnd (sendVoids s1 g seq i.aop (collNeighbours s g i c.upFrom) sender) g 0x41 (seq + 65536 * sender)) g
      | none => s
    else if seqAhead v.seq seq then grpGo (collBegin.noteVoid s g seq sender) g else s
  | none => if seqAhead v.seq seq then grpGo (collBegin.noteVoid s g seq sender) g else s

/-- VOID (R330). -/
def execVoid (g seq sender sig : Nat) (s : State) : Host.Outcome State Fault Refusal :=
  if s.mode != .ready then .next (dropArrival s) else
  .next (orWait s (voidArrive s (g % 256) seq sender sig))

/-- The first condition of R301 that refuses an enable, with the configuration as it stands. -/
def grpRefusal (s : State) (g : Nat) : Option Nat :=
  let x := grpOwner s g
  let self := selfAddr s
  let st := rd64 s (ALY_GRP_STAGE_LO g)
  let bound := (List.range 256).countP (fun h => h != g && grpOn s h && grpOwner s h == x && grpBind s h == grpBind s g)
  let nf := grpNfmt s g
  let conds : List (Bool × Nat) :=
    [(ctxState s x == 0, 1),
     ((List.range 16).any (fun d => bit (grpDims s g) d && decide (bits (rd s SPR_TOPO) 4 5 ≤ d)), 2),
     (!grpMember s g (grpRoot s g), 3),
     (grpIsRoot s g != (self == grpRoot s g), 4),
     (!grpIsRoot s g && (!grpMember s g (grpParent s g) || grpParent s g == self), 5),
     (decide (grpPour s g < 10) || decide (18 < grpPour s g), 6),
     (nf != 0 && nf != 1 && nf != 4 && nf != 5, 7),
     (st % 65536 != 0 || !nearReadOk s x (grpBind s g) st (stagingBytes s g) ||
       !nearWriteOk s x (grpBind s g) st (stagingBytes s g), 8),
     (decide (264 ≤ physOf s (grpBind s g)), 9),
     (decide (8 ≤ bound), 10),
     (s.integ.cope == 1 && bit (grpDims s g) (bits (rd s CUP_COPE_CTRL) 4 5), 12)]
  (conds.find? (·.1)).map (·.2)

/-- The bits of ALY_GRP_CTRL that a write sets: all but ABORT and CANCEL. -/
def grpCtrlBits (v : Nat) : Nat := v % 2 ^ 26 / 16 * 16 + v % 2

/-- Writing ENABLE = 1 to a disabled group (R301). `v` is the value written. -/
def grpEnable (s : State) (src : Src) (g v : Nat) (note : Bool := true) : State :=
  let o := ALY_GRP_CTRL g
  if grpOn s g then
    if grpCtrlBits v = grpCtrlBits (rd s o) then s
    else logDiscard (logSrc s 0x0407 src [g, o, 11, srcDatum src]) src o 4 8
  else
    let s1 := setReg s o (grpCtrlBits v / 2 * 2)
    match grpRefusal s1 g with
    | some n => logDiscard (logSrc s1 0x0407 src [g, o, n, srcDatum src]) src o 4 8
    | none => logAccIf note (setGrp (setReg s1 o (grpCtrlBits v / 2 * 2 + 1)) g AlyGroup.init) src o v

/-- ALY_GRP_ENABLE (R301). -/
def execAlyGrpEnable (src : Src) (g : Nat) (v : Word) (s : State) : Host.Outcome State Fault Refusal :=
  if !isReady s then .next (emit s (.unsupported src))
  else .next (grpEnable s src (g % 256) (setBits v.toNat 0 1 1))

/-- A group without collectives. -/
def grpIdle (s : State) (g : Nat) : Bool := (grpAt s g).cur.isNone && (grpAt s g).queue.isEmpty

/-- Clearing ENABLE (R301): only from IDLE. -/
def grpDisable (s : State) (src : Src) (g : Nat) (note : Bool := true) : State :=
  let o := ALY_GRP_CTRL g
  if !grpOn s g then s
  else if !grpIdle s g then logDiscard (logSrc s 0x0407 src [g, o, 11, srcDatum src]) src o 4 8
  else logAccIf note (setGrp (setReg s o (rd s o - 1)) g AlyGroup.init) src o (rd s o - 1)

/-- ALY_GRP_DISABLE (R301). -/
def execAlyGrpDisable (src : Src) (g : Nat) (s : State) : Host.Outcome State Fault Refusal :=
  if !isReady s then .next (emit s (.unsupported src)) else .next (grpDisable s src (g % 256))

/-- Ends every collective of a group with ABORTED (R331): SEQ is 0 and the group is IDLE. -/
def grpAbort (s : State) (src : Src) (g : Nat) (note : Bool := true) : State :=
  if !grpOn s g then logDiscard s src (ALY_GRP_CTRL g) 4 8 else
  let v := grpAt s g
  let items := (match v.cur with
    | some c => [(c.key, c.index, c.seq)]
    | none => []) ++ v.queue.zipIdx.map (fun (e, n) => (e.1, e.2.1, (v.seq + n) % 65536))
  let s1 := items.foldl (fun st e => itemDone (dropReqs st e.1 e.2.1) e.1 e.2.1 0x45 e.2.2) s
  let s2 := setGrp s1 g AlyGroup.init
  let seq := match v.cur with
    | some c => c.seq
    | none => v.seq
  logAccIf note (logUnit s2 0x0408 g [g, seq, items.length]) src (ALY_GRP_CTRL g) (rd s (ALY_GRP_CTRL g) + 2)

/-- ALY_GRP_ABORT (R331). -/
def execAlyGrpAbort (src : Src) (g : Nat) (s : State) : Host.Outcome State Fault Refusal :=
  if !isReady s then .next (emit s (.unsupported src)) else .next (grpAbort s src (g % 256))

/-- Writing CANCEL (R329). -/
def grpCancelWrite (s : State) (src : Src) (g : Nat) (note : Bool := true) : State :=
  if !grpOn s g then logDiscard s src (ALY_GRP_CTRL g) 4 8
  else grpCancel (logAccIf note s src (ALY_GRP_CTRL g) (rd s (ALY_GRP_CTRL g) + 4)) g

/-- ALY_GRP_CANCEL (R329). -/
def execAlyGrpCancel (src : Src) (g : Nat) (s : State) : Host.Outcome State Fault Refusal :=
  if !isReady s then .next (emit s (.unsupported src)) else .next (orWait s (grpCancelWrite s src (g % 256)))

/-- ALLOY_TEST (R379): after an adder fault of this device, the engine is tested once every group is idle. -/
def execAlloyTest (s : State) : Host.Outcome State Fault Refusal :=
  if s.integ.alyDue && s.integ.alyTest.isNone && isReady s && (List.range 256).all (grpIdle s) then
    .next (s.withInteg { s.integ with alyDue := false, alyTest := some (tickNow s) })
  else .next s

/-- ALLOY_TEST_END (R379): after 0.5 ms; a failure sets the device-failed indication and records 0x0615. -/
def execAlloyTestEnd (pass : Bool) (s : State) : Host.Outcome State Fault Refusal :=
  match s.integ.alyTest with
  | none => .next s
  | some t =>
    if tickNow s < t + 50000 then .next s else
    let s1 := s.withInteg { s.integ with alyTest := none }
    if pass then .next s1 else
    let s2 := s1.withInteg { s1.integ with failed := true }
    .next (logCup { s2 with module_ := { s2.module_ with faultN := true } } 0x0615 [])

/-- Carries on what an answered request belongs to. -/
def answerAny (s : State) (r : LReq) (code detail : Nat) (data : List Byte) : State :=
  if r.kind < 19 then answerReq s r code detail data else
  let used := spGet s.ladle.slots r.slice 0
  let s1 := setReq (s.withLadle { s.ladle with slots := spPut s.ladle.slots r.slice (used - r.slots) 0 }) r.id
    (fun q => { q with answer := some (code, detail) })
  match findItem s1 r.queue r.index with
  | some i => grpGo s1 i.group
  | none => s1

/-- LADLE_RESPONSE (R188, R314, R353, R356): an answer of a remote target arrives: 0 fine, 1 with the poisoned units' bits,
3 refused with its reason. One that matches no slot is dropped and counted (R357). -/
def execLadleResponse (id code detail : Nat) (data : List Byte) (s : State) : Host.Outcome State Fault Refusal :=
  if s.mode != .ready then .next (dropArrival s) else
  match openReq s id with
  | none => .next (cntAdd s FLK_LATE_CNT_LO 1)
  | some r =>
    if 10 ≤ r.kind ∧ r.kind < 19 then .next s
    else if code = 1 ∧ r.kind < 19 then .next (answerAny s r 1 detail data)
    else if code = 3 then .next (answerAny s r 3 detail [])
    else .next (answerAny s r 0 0 data)

/-- REMOTE_REQUEST_TIMEOUT (R357): a request without an answer for 2,000 ticks is taken as answered with poison. A
collective has no time-out of its own and waits on (R303). -/
def execRemoteRequestTimeout (id : Nat) (s : State) : Host.Outcome State Fault Refusal :=
  match openReq s id with
  | none => .next s
  | some r =>
    if tickNow s < r.issued.getD 0 + 2000 then .next s else
    let s1 := logUnit (cntAdd s FLK_TIMEOUT_CNT_LO 1) 0x0314 r.slice ([reqDest s r] ++ datum64 r.addr ++ [r.index])
    let s2 := if r.kind = 16 then setLine s1 (r.queue - streamKey 0) r.addr (fun _ => none)
      else match region s1 r.addr with
        | .window f o => if r.kind = 15 then
            s1.withFlask { s1.flask with wbs := s1.flask.wbs.filter (fun w => w.key != winKey f (o / 128)) }
          else s1
        | _ => s1
    .next (answerAny s2 r 2 0 [])

end Sys2Proof.Machine
end

