-- ==== Sys2Proof/Machine/Flask.lean ====
section
/-! DEFINITION. The flask fabric: the home and its directory, the window cache, peeks, remote accesses and triggers
(chapter 9). -/
namespace Sys2Proof.Machine
open Reg

/-- Whether a request from another device is held until this device's cut (R407): its tag is later than CUT_STEP while a
SWEEP is accepted and incomplete or a step cut is requested. -/
def heldByCut (s : State) (cut : Option Nat) : Bool :=
  match cut with
  | none => false
  | some t =>
    let d := (65536 + t - rd s CUP_ING_CUT_STEP % 65536) % 65536
    ingOn s && decide (0 < d ∧ d < 32768) &&
    (s.ingot.want.map (·.1) == some 1 || s.queues.any (fun e => e.2.items.any (fun i => i.op == 0x40 && i.lop == 8)))

/-- A line's address in the backing range (R337). -/
def lineAddr (s : State) (l : Nat) : Nat := rd64 s FLK_WIN_BACK_LO + 128 * l

/-- A home write to window memory (R343, R400): ingot copies first, then each unit; answers a bit for each poisoned unit
that a partial write left (R185). -/
def homeStore (s : State) (l off : Nat) (bs : List Byte) : State × Nat :=
  let a := lineAddr s l + off
  let s1 := raInvalidate (copyOnWrite s a) a
  (pieces 64 (bs.length + 1) a bs).foldl (fun (st : State × Nat) e =>
    let r := tierWrite st.1 .item e.1 e.2
    (r.1, st.2 + r.2 * 2 ^ (e.1 / 64 - lineAddr s l / 64))) (s1, 0)

/-- A line's bytes with a bit for each poisoned unit. -/
def homeLoad (s : State) (l : Nat) : State × List Byte × Nat :=
  let a := lineAddr s l
  let r := tierRead s .item a 64
  let q := tierRead r.1 .item (a + 64) 64
  (q.1, r.2.1 ++ q.2.1, r.2.2 + 2 * q.2.2)

/-- Touches a line (R358): dead positions leave its VEC, and a line that a dead position owns is written as poisoned. -/
def touchLine (s : State) (l : Nat) : State :=
  let dead := rd s FLK_DEADPOS
  let e := dirEntry s l
  let v := dirVec e
  let live := ((List.range 9).filter (fun p => bit v p && !bit dead p)).foldl (fun a p => a + 2 ^ p) 0
  if live = v ∨ dirState e = 0 then s
  else if dirState e = 2 then
    let a := lineAddr s l
    let s1 := setDirEntry (setPoison (setPoison (copyOnWrite s a) a true) (a + 64) true) l 0 0 (dirVer e)
    let q := ((List.range 9).find? (fun p => bit v p)).getD 0
    logUnit s1 0x0312 0 [128 * l, q]
  else setDirEntry s l (if live = 0 then 0 else 1) live (dirVer e)

/-- The positions of a vector. -/
def vecList (v : Nat) : List Nat := (List.range 9).filter (fun p => bit v p)

/-- The snoops that a request needs (Table 9.2): the message and its positions. -/
def homeSnoops (s : State) (t : HomeTx) : String × List Nat :=
  let e := dirEntry s t.line
  let v := vecList (dirVec e)
  let other := v.filter (· != t.pos)
  match dirState e, t.kind with
  | 1, .rdX => ("SNP_INV", other)
  | 1, .wr | 1, .atomic | 1, .homeWrite => ("SNP_INV", v)
  | 2, .rdS => ("SNP_SHR", other)
  | 2, .rdX => ("SNP_RCL", other)
  | 2, .rdOnce | 2, .homeRead => ("SNP_SHR", v)
  | 2, .wr | 2, .atomic | 2, .homeWrite => ("SNP_RCL", v)
  | _, _ => ("", [])

/-- The number by which event 0x0315 names a snoop (R345). -/
def snoopCode (n : String) : Nat := if n = "SNP_INV" then 1 else if n = "SNP_SHR" then 2 else 3

/-- A message of the home or of a cache in the RSP class. -/
def sendRsp (s : State) (name : String) (pos slice bank : Nat) (words : List Nat) (data : List Byte) : State :=
  sendMsg s name (posDest s pos) (words ++ data.map (·.toNat)) 1 slice bank 0 data.length

/-- The operand bytes of an atomic: AOP, OPERAND and COMPARE. -/
def atomicArgs (d : List Byte) : Nat × Nat × Nat := (leNat (d.take 1), leNat ((d.drop 1).take 8), leNat ((d.drop 9).take 8))

/-- Closes a transaction: its line may start another 20 FCLK cycles later (R339). -/
def closeTx (s : State) (t : HomeTx) : State :=
  let s1 := cntAdd s FLK_HOMETX_CNT_LO 1
  s1.withFlask { s1.flask with
    home := s1.flask.home.filter (fun u => u.line != t.line)
    lastAt := spPut s1.flask.lastAt t.line s1.clock.half 0 }

/-- A transaction that has been answered awaits DONE (R346). -/
def awaitDone (s : State) (t : HomeTx) : State :=
  s.withFlask { s.flask with home := s.flask.home.map (fun u => if u.line = t.line then { u with answered := true } else u) }

/-- Serves an open transaction whose snoops are answered (Table 9.2, R343, R348, R349). -/
def serveTx (s0 : State) (t : HomeTx) : State :=
  let s := touchLine s0 t.line
  let e := dirEntry s t.line
  let v := dirVec e
  let ver := dirVer e
  let me := 2 ^ t.pos
  let answer (st : State) (n : String) (w : List Nat) (d : List Byte) : State :=
    sendRsp st n t.pos t.slice t.bank (t.tag :: w) d
  let read (st vec ver2 : Nat) (s1 : State) : State :=
    let r := homeLoad s1 t.line
    awaitDone (answer (setDirEntry r.1 t.line st vec ver2) "DATA" [t.line, ver2 % 65536, r.2.2] r.2.1) t
  match t.kind with
  | .rdS => read 1 (if dirState e = 0 then me else v ||| me) ver s
  | .rdX => read 2 me (ver + 1) s
  | .rdOnce => read (if dirState e = 0 then 0 else 1) v ver s
  | .wr =>
    let w := homeStore s t.line (t.off % 128) t.data
    awaitDone (answer (setDirEntry w.1 t.line 0 0 (ver + 1)) "ACK" [w.2] []) t
  | .atomic =>
    let (aop, operand, compare) := atomicArgs t.data
    let n := if aop = 0 then 4 else 8
    let a := lineAddr s t.line + t.off % 128
    let r := tierRead s .item a n
    if r.2.2 ≠ 0 then
      awaitDone (answer (setDirEntry r.1 t.line 0 0 (ver + 1)) "ACK" [2 ^ (t.off % 128 / 64)] (List.replicate 8 0xFF)) t
    else
      let old := leNat r.2.1
      let w := homeStore r.1 t.line (t.off % 128) (leBytes n (atomicOp aop n old (operand % 2 ^ (8 * n)) compare))
      awaitDone (answer (setDirEntry w.1 t.line 0 0 (ver + 1)) "ACK" [0] (leBytes 8 old)) t
  | .wb =>
    if dirState e = 2 ∧ v = me then
      let w := homeStore s t.line 0 t.data
      awaitDone (answer (setDirEntry w.1 t.line 0 0 ver) "ACK" [0] []) t
    else awaitDone (answer s "ACK" [0] []) t
  | .peek =>
    if dirState e = 2 then closeTx (answer s "PEEK_MISS" [] []) t
    else
      let r := homeLoad s t.line
      closeTx (answer r.1 "DATA" [t.line, ver, r.2.2] r.2.1) t
  | .check =>
    closeTx (answer s (if dirState e ≠ 2 ∧ ver = leNat t.data then "CHECK_OK" else "CHECK_FAIL") [] []) t
  | .homeRead => closeTx (setDirEntry s t.line 1 v ver) t
  | .homeWrite => closeTx (setDirEntry s t.line 0 0 ver) t

/-- Starts a transaction on a free line (R342, R344): its snoops go out, or it is served at once. -/
def startTx (s0 : State) (t : HomeTx) : State :=
  let s := touchLine s0 t.line
  let sn := homeSnoops s t
  let s1 := sn.2.foldl (fun st p => sendRsp st sn.1 p t.slice t.bank [t.line] []) s
  let t1 := { t with snoops := sn.2.map (fun p => (p, tickNow s)) }
  let s2 := (cntAdd s1 FLK_SNOOP_CNT_LO sn.2.length).withFlask { s1.flask with home := s1.flask.home ++ [t1] }
  if sn.2.isEmpty then serveTx s2 t1 else s2

/-- Home transactions that may be open (R344). -/
def homeSlots : Nat := 1024
/-- Whether a waiting request may start (R339, R344): its line is free, and none waits for it longer. -/
def mayOpen (s : State) (earlier : List HomeTx) (t : HomeTx) : Bool :=
  !s.flask.home.any (fun u => u.line == t.line) && !earlier.any (fun u => u.line == t.line) &&
  decide (s.flask.home.length < homeSlots) &&
  (match s.flask.lastAt.find? (fun e => e.1 == t.line) with
    | some (_, h) => decide (h + 20 * fclkHalf ≤ s.clock.half)
    | none => true)

/-- The first waiting request that may start. -/
def nextHome (s : State) : List HomeTx → List HomeTx → Option HomeTx
  | [], _ => none
  | t :: l, earlier => if mayOpen s earlier t then some t else nextHome s l (earlier ++ [t])

/-- Starts every waiting request that may start, in order of arrival (R339). -/
def pumpHome : Nat → State → State
  | 0, s => s
  | f + 1, s =>
    match nextHome s s.flask.queued [] with
    | none => s
    | some t => pumpHome f (startTx (s.withFlask { s.flask with queued := s.flask.queued.erase t }) t)

/-- Starts what may start. -/
def homePump (s : State) : State := pumpHome s.flask.queued.length s

/-- A window request arrives at the home (R339, R344, R361): refused beyond the window or for its slice, else in line.
Reason 0 tells the requester that the offset lies beyond the window. -/
def homeRequest (s : State) (k : WinReq) (pos off tag slice bank : Nat) (cut : Option Nat) (data : List Byte) : State :=
  if heldByCut s cut then s else
  let allowed := bit (rd s FLK_WIN_SLICE) slice
  if !winOn s || decide (winBytes s ≤ off) || !allowed then
    sendRsp (logUnit s 0x0311 0 ([pos] ++ datum64 off)) "REFUSED" pos slice bank
      [tag, if !winOn s || decide (winBytes s ≤ off) then 0 else 3] []
  else
    homePump (s.withFlask { s.flask with
      queued := s.flask.queued ++ [⟨off / 128, pos, k, off, data, tag, slice, bank, [], false⟩] })

/-- RD_S (R342). -/
def execRdS (pos off tag slice bank : Nat) (cut : Option Nat) (s : State) : Host.Outcome State Fault Refusal :=
  if s.mode != .ready then .next (dropArrival s) else
  .next (orWait s (homeRequest s .rdS pos off tag slice bank cut []))
/-- RD_X (R342). -/
def execRdX (pos off tag slice bank : Nat) (cut : Option Nat) (s : State) : Host.Outcome State Fault Refusal :=
  if s.mode != .ready then .next (dropArrival s) else
  .next (orWait s (homeRequest s .rdX pos off tag slice bank cut []))
/-- RD_ONCE (R342). -/
def execRdOnce (pos off tag slice bank : Nat) (cut : Option Nat) (s : State) : Host.Outcome State Fault Refusal :=
  if s.mode != .ready then .next (dropArrival s) else
  .next (orWait s (homeRequest s .rdOnce pos off tag slice bank cut []))
/-- WR (R342): the bytes to write from the offset on, within one line. -/
def execWr (pos off tag slice bank : Nat) (cut : Option Nat) (data : List Byte) (s : State) :
    Host.Outcome State Fault Refusal :=
  if s.mode != .ready then .next (dropArrival s) else
  .next (orWait s (homeRequest s .wr pos off tag slice bank cut (data.take (128 - off % 128))))
/-- AT (R354). -/
def execAtCmd (pos off tag slice bank : Nat) (cut : Option Nat) (aop operand compare : Nat) (s : State) :
    Host.Outcome State Fault Refusal :=
  if s.mode != .ready then .next (dropArrival s) else
  .next (orWait s (homeRequest s .atomic pos off tag slice bank cut
    (leBytes 1 (aop % 8) ++ leBytes 8 operand ++ leBytes 8 compare)))
/-- WB (R342): a line that its owner evicts. -/
def execWb (pos off tag slice bank : Nat) (cut : Option Nat) (data : List Byte) (s : State) :
    Host.Outcome State Fault Refusal :=
  if s.mode != .ready then .next (dropArrival s) else
  .next (orWait s (homeRequest s .wb pos off tag slice bank cut (data.take 128)))
/-- PEEK (R348). -/
def execPeek (pos off tag slice bank : Nat) (cut : Option Nat) (s : State) : Host.Outcome State Fault Refusal :=
  if s.mode != .ready then .next (dropArrival s) else
  .next (orWait s (homeRequest s .peek pos off tag slice bank cut []))
/-- CHECK (R349), with the peeked VERSION. -/
def execCheck (pos off tag slice bank : Nat) (cut : Option Nat) (version : Nat) (s : State) :
    Host.Outcome State Fault Refusal :=
  if s.mode != .ready then .next (dropArrival s) else
  .next (orWait s (homeRequest s .check pos off tag slice bank cut (leBytes 2 version)))

/-- A snoop reply arrives at the home (R342, R345): Q's data are written to memory, and the last reply lets the
transaction be served. -/
def snoopReply (s : State) (pos line : Nat) (data : List Byte) : State :=
  match s.flask.home.find? (fun t => t.line == line && t.snoops.any (fun n => n.1 == pos)) with
  | none => s
  | some t =>
    let s1 := if data.isEmpty then s else (homeStore s line 0 data).1
    let rest := t.snoops.filter (fun n => n.1 != pos)
    let t1 := { t with snoops := rest }
    let s2 := s1.withFlask { s1.flask with home := s1.flask.home.map (fun u => if u.line = line then t1 else u) }
    if rest.isEmpty then homePump (serveTx s2 t1) else s2

/-- ACK_DATA (R342): a snoop reply with data. -/
def execAckData (pos line : Nat) (data : List Byte) (s : State) : Host.Outcome State Fault Refusal :=
  if s.mode != .ready then .next (dropArrival s) else
  .next (orWait s (snoopReply s pos line (data.take 128)))

/-- DONE (R346): closes the line's transaction. -/
def execDone (pos line : Nat) (s : State) : Host.Outcome State Fault Refusal :=
  if s.mode != .ready then .next (dropArrival s) else
  match s.flask.home.find? (fun t => t.line == line && t.pos == pos && t.answered) with
  | none => .next s
  | some t => .next (orWait s (homePump (closeTx s t)))

/-- SNOOP_TIMEOUT (R358): a snoop without a reply for 20 µs marks its position dead, and counts as ACK. -/
def execSnoopTimeout (pos line : Nat) (s : State) : Host.Outcome State Fault Refusal :=
  match s.flask.home.find? (fun t => t.line == line && t.snoops.any (fun n => n.1 == pos && decide (n.2 + 2000 ≤ tickNow s))) with
  | none => .next s
  | some t =>
    let kind := snoopCode (homeSnoops s t).1
    let s1 := setReg s FLK_DEADPOS (setBits (rd s FLK_DEADPOS) pos 1 1)
    .next (orWait s (snoopReply (logUnit s1 0x0315 0 [pos, kind, line]) pos line []))

/-- A snoop arrives at this device's window cache (R345): the reply, and the line's new state. -/
def snoop (s : State) (f line slice bank kind : Nat) : State :=
  let k := winKey f line
  let drop (st : State) : State := st.withFlask { st.flask with cache := spDel st.flask.cache k }
  let reply (st : State) (d : Option (List Byte)) : State := match d with
    | some b => sendRsp st "ACK_DATA" f slice bank [ownPos s, line] b
    | none => sendRsp st "ACK" f slice bank [ownPos s, line] []
  match s.flask.wbs.find? (fun w => w.key == k), cached s f line with
  | some w, _ => drop (reply s (some w.data))
  | none, some c =>
    if kind = 1 then drop (reply s none)
    else if c.modified then
      let st := reply s (some c.data)
      if kind = 2 then st.withFlask { st.flask with cache := spIns (spDel st.flask.cache k) k { c with modified := false } }
      else drop st
    else if kind = 2 then reply s none else drop (reply s none)
  | none, none => reply s none

/-- SNP_INV (R345). -/
def execSnpInv (f line slice bank : Nat) (s : State) : Host.Outcome State Fault Refusal :=
  if s.mode != .ready then .next (dropArrival s) else
  .next (snoop s f line slice bank 1)
/-- SNP_SHR (R345). -/
def execSnpShr (f line slice bank : Nat) (s : State) : Host.Outcome State Fault Refusal :=
  if s.mode != .ready then .next (dropArrival s) else
  .next (snoop s f line slice bank 2)
/-- SNP_RCL (R345). -/
def execSnpRcl (f line slice bank : Nat) (s : State) : Host.Outcome State Fault Refusal :=
  if s.mode != .ready then .next (dropArrival s) else
  .next (snoop s f line slice bank 3)

/-- Lines that the window cache holds (R340). -/
def cacheLines (s : State) : Nat :=
  let n := bits (rd s FLK_CACHE_SIZE) 0 4
  if n = 0 then 0 else 2 ^ (n + 13)

/-- Evicts a line (R341): silently in S, by WB in M. -/
def evictLine (s : State) (x : Nat) (k : Nat) (c : CacheLine) : State :=
  let s1 := s.withFlask { s.flask with cache := spDel s.flask.cache k }
  if !c.modified then s1 else
  let a := 0x80000000000 + k / 2 ^ 29 * 0x1000000000 + k % 2 ^ 29 * 128
  let l := s1.ladle
  let r : LReq := ⟨l.nextReq, 0, evictKey x, 0, 15, a, 128, c.data, 1, none, none⟩
  (s1.withLadle { l with nextReq := l.nextReq + 1, reqs := l.reqs ++ [r] }).withFlask
    { s1.flask with wbs := s1.flask.wbs ++ [⟨k, c.data, tickNow s⟩] }

/-- Installs a line in the window cache (R340, R341). The set that a line falls into, and the line that leaves a full
set, are not stated: any line may leave once a set can be full (log entry 43). -/
def installLine (s : State) (x k : Nat) (c : CacheLine) : State :=
  let put (st : State) : State := st.withFlask { st.flask with cache := spIns (spDel st.flask.cache k) k c }
  let n := s.flask.cache.length
  if s.flask.cache.any (fun e => e.1 == k) || decide (n < 16) then put s else
  let d := drawNat s
  let i := d.1 % (if cacheLines s ≤ n then n else n + 1)
  match s.flask.cache[i]? with
  | some (j, v) => put (evictLine d.2 x j v)
  | none => put d.2

/-- The home position and line of a window request. -/
def reqLine (s : State) (r : LReq) : Nat × Nat := match region s r.addr with
  | .window f o => (f, o / 128)
  | _ => (0, 0)

/-- Sends DONE for an answered request (R346). -/
def sendDone (s : State) (r : LReq) : State :=
  let (f, l) := reqLine s r
  let x := reqCtx s r
  sendRsp s "DONE" f (sliceTag s x) (phaseOf s x) [ownPos s, l] []

/-- The stream of a fetcher's request. -/
def reqStream (r : LReq) : Nat := r.queue - streamKey 0

/-- A peeked line arrives (R183, R348): buffered with its VERSION, buffered as poisoned, or dropped with its stream. -/
def peekArrive (s : State) (r : LReq) (version mask : Nat) (data : List Byte) : State :=
  let n := reqStream r
  let st := streamAt s n
  if !st.buf.any (fun b => b.addr == r.addr && !b.ready) then s
  else if st.state ≠ 1 then cntAdd (setLine s n r.addr (fun _ => none)) LDL_RA_DISCARD_CNT_LO 1
  else
    let p := some (reqLine s r |>.1, version, tickNow s)
    if mask = 0 then setLine s n r.addr (fun b => some { b with ready := true, data := data, peek := p })
    else logUnit (cntAdd (setLine s n r.addr (fun b => some { b with ready := true, poisoned := true }))
      LDL_RA_POISON_CNT_LO 1) 0x0308 (n / 16) ([n / 16, n % 16] ++ datum64 r.addr)

/-- An answer that matches no open request is dropped and counted (R357). -/
def lateAnswer (s : State) : State := cntAdd s FLK_LATE_CNT_LO 1

/-- DATA (R346): the line is installed, DONE is sent, and the item goes on; for a PEEK the line is buffered. -/
def execData (tag version mask : Nat) (data : List Byte) (s : State) : Host.Outcome State Fault Refusal :=
  if s.mode != .ready then .next (dropArrival s) else
  match openReq s tag with
  | none => .next (lateAnswer s)
  | some r =>
    let d := data.take 128
    if r.kind = 16 then .next (answerAny (peekArrive s r version mask d) r 0 0 [])
    else if r.kind < 10 ∨ 12 < r.kind then .next s
    else
      let (f, l) := reqLine s r
      let s1 := if r.kind = 12 ∨ mask ≠ 0 then s else
        installLine s (reqCtx s r) (winKey f l) ⟨r.kind == 11, d⟩
      .next (orWait s (answerAny (sendDone s1 r) r (if mask = 0 then 0 else 1) mask d))

/-- ACK (R314, R333, R345, R346): a snoop reply without data at the home; else the answer of a WR, AT, WB or remote
store, with a bit for each poisoned unit and an atomic's old value. -/
def execAck (reply : Bool) (pos line tag mask : Nat) (data : List Byte) (s : State) : Host.Outcome State Fault Refusal :=
  if s.mode != .ready then .next (dropArrival s) else
  if reply then .next (orWait s (snoopReply s pos line []))
  else match openReq s tag with
  | none => .next (lateAnswer s)
  | some r =>
    let code := if mask = 0 ∨ 19 ≤ r.kind then 0 else 1
    if r.kind = 13 ∨ r.kind = 14 then .next (orWait s (answerAny (sendDone s r) r code mask data))
    else if r.kind = 15 then
      let (f, l) := reqLine s r
      let s1 := sendDone s r
      .next (answerAny (s1.withFlask { s1.flask with wbs := s1.flask.wbs.filter (fun w => w.key != winKey f l) }) r 0 0 [])
    else if r.kind = 1 ∨ r.kind = 3 ∨ 19 ≤ r.kind then .next (orWait s (answerAny s r code mask data))
    else .next s

/-- PEEK_MISS (R348): the fetcher buffers nothing for the line. -/
def execPeekMiss (tag : Nat) (s : State) : Host.Outcome State Fault Refusal :=
  if s.mode != .ready then .next (dropArrival s) else
  match openReq s tag with
  | none => .next (lateAnswer s)
  | some r =>
    if r.kind ≠ 16 then .next s else
    .next (answerAny (setLine (cntAdd s FLK_PEEKMISS_CNT_LO 1) (reqStream r) r.addr (fun _ => none)) r 0 0 [])

/-- CHECK_OK (R349): the read is served from the peeked line. -/
def execCheckOk (tag : Nat) (s : State) : Host.Outcome State Fault Refusal :=
  if s.mode != .ready then .next (dropArrival s) else
  match openReq s tag with
  | none => .next (lateAnswer s)
  | some r =>
    if r.kind ≠ 17 then .next s else
    match peekedLine s (reqCtx s r) r.addr with
    | none => .next (orWait s (answerAny s r 2 0 []))
    | some (n, b) =>
      let st := streamAt s n
      let last := chunkLine s st (st.nchunk - 1) ((if st.kv then 512 else st.lines) - 1) == some r.addr
      let s1 := setStream (cntAdd s LDL_RA_HIT_CNT_LO 1) n
        { st with buf := st.buf.map (fun c => if c.addr = r.addr then { c with used := true } else c) }
      .next (orWait s (answerAny (touchChunk s1 n b.chunk last) r 0 0 b.data))

/-- CHECK_FAIL (R349): the buffered line is dropped, and the read is made as a miss. -/
def execCheckFail (tag : Nat) (s : State) : Host.Outcome State Fault Refusal :=
  if s.mode != .ready then .next (dropArrival s) else
  match openReq s tag with
  | none => .next (lateAnswer s)
  | some r =>
    if r.kind ≠ 17 then .next s else
    let s1 := match peekedLine s (reqCtx s r) r.addr with
      | none => s
      | some (n, _) =>
        let st := streamAt s n
        cntAdd (setStream s n { st with buf := st.buf.filter (fun b => !(b.addr == r.addr && b.peek.isSome)) })
          LDL_RA_INVAL_CNT_LO 1
    let s2 := cntAdd s1 FLK_CHECKFAIL_CNT_LO 1
    let used := spGet s2.ladle.slots r.slice 0
    let s3 := s2.withLadle { s2.ladle with
      slots := spPut s2.ladle.slots r.slice (used - r.slots) 0
      reqs := s2.ladle.reqs.filter (fun q => q.id != r.id) }
    .next (orWait s (ladleAdvance s3 r.queue r.index))

/-- REFUSED (R339, R351, R356): the item completes with REMOTE_REFUSED, or, for reason 0 of a home, with RANGE_FAULT. -/
def execRefused (tag reason : Nat) (s : State) : Host.Outcome State Fault Refusal :=
  if s.mode != .ready then .next (dropArrival s) else
  match openReq s tag with
  | none => .next (lateAnswer s)
  | some r =>
    if r.kind = 16 then .next (answerAny (setLine s (reqStream r) r.addr (fun _ => none)) r 3 reason [])
    else .next (orWait s (answerAny s r (if reason = 0 then 4 else 3) reason []))

/-- Why a remote access is refused (R351): 1 address kind, 2 export range, 3 slice. `perm` is 0 READ, 1 WRITE,
2 ATOMIC. -/
def exportRefuses (s : State) (slice perm a n : Nat) : Option Nat :=
  let kindOk := (match region s a, region s (a + n - 1) with
    | .near, .near => true
    | .far, .far => true
    | _, _ => false) && n != 0
  let fits (r : Nat) : Bool := decide (65536 * rd s (FLK_EXP_BASE r) ≤ a) && decide (a + n ≤ 65536 * rd s (FLK_EXP_LIMIT r)) &&
    bit (rd s (FLK_EXP_PERM r)) perm
  if !kindOk then some 1
  else if !(List.range 8).any fits then some 2
  else if !(List.range 8).any (fun r => fits r && bit (rd s (FLK_EXP_SLICEMASK r)) slice) then some 3
  else none

/-- The poisoned 64-byte units of an extent, as bits. -/
def poisonMask (s : State) (a n : Nat) : Nat :=
  ((extents 64 a n).filter (fun e => isPoisoned s e.1)).foldl (fun m e => m + 2 ^ (e.1 / 64 - a / 64)) 0

/-- A message of this device as a target, to a remote device, in the request's bank. -/
def sendAnswer (s : State) (name : String) (dest slice bank : Nat) (words : List Nat) (data : List Byte) : State :=
  sendMsg s name dest (words ++ data.map (·.toNat)) 1 slice bank 0 data.length

/-- Serves a remote access (R351 to R354): 0 a load, 1 a store, 2 an atomic. The stores of a collective carry the wire
format of their elements, which are decoded on arrival; they go where READY named, without an export range (R314,
log entry 31). -/
def remoteServe (s : State) (src slice bank tag kind a n : Nat) (data : List Byte) (fmt : Option Nat) : State :=
  let s1 := cntAdd s FLK_REMOTE_CNT_LO (extents 64 a n).length
  match kind with
  | 0 =>
    let m := poisonMask s1 a n
    let r := devRead s1 hostAgent a n
    sendAnswer r.1 "RESPONSE" src slice bank [tag, if m = 0 then 0 else 1, m] r.2.1
  | 1 =>
    let bs := match fmt with
      | some f => (widen f data).flatMap (fun w => leBytes 4 w.toNat)
      | none => data
    let w := devWrite s1 hostAgent a bs
    let m := if w.2 = 0 then 0 else poisonMask w.1 a bs.length
    sendAnswer w.1 "RESPONSE" src slice bank [tag, if m = 0 then 0 else 1, m] []
  | _ =>
    let (aop, operand, compare) := atomicArgs data
    let r := devRead s1 hostAgent a n
    if r.2.2 ≠ 0 then sendAnswer r.1 "RESPONSE" src slice bank [tag, 1, 1] (List.replicate 8 0xFF)
    else
      let old := leNat r.2.1
      let w := devWrite r.1 hostAgent a (leBytes n (atomicOp aop n old (operand % 2 ^ (8 * n)) compare))
      sendAnswer w.1 "RESPONSE" src slice bank [tag, 0, 0] (leBytes 8 old)

/-- REMOTE_ACCESS_ARRIVE (R351, R353, R354, R407). -/
def execRemoteAccessArrive (src slice bank tag kind a n : Nat) (data : List Byte) (fmt cut : Option Nat) (s : State) :
    Host.Outcome State Fault Refusal :=
  if s.mode != .ready then .next (dropArrival s) else
  if heldByCut s cut then .next s else
  match fmt, exportRefuses s slice (min kind 2) a n with
  | none, some why =>
    let s1 := logUnit (cntAdd s FLK_REFUSED_CNT_LO 1) 0x0313 0 ([src] ++ datum64 a ++ [min kind 2 + 1, why])
    .next (sendAnswer s1 "REFUSED" src slice bank [tag, why] [])
  | _, _ => .next (orWait s (remoteServe s src slice bank tag kind a n data fmt))

/-- The queue of a trigger slot (Table 9.5). -/
def trigQueue (s : State) (t : Nat) : Nat :=
  let v := rd s (FLK_TRIG_CTRL t)
  qKey (bits v 5 8) (bits v 1 4) (bits v 13 3)
/-- LEN of a trigger slot. -/
def trigLen (s : State) (t : Nat) : Nat := bits (rd s (FLK_TRIG_LEN t)) 0 13
/-- The words of a slot's list. -/
def trigWords (s : State) (t : Nat) : List Nat :=
  (List.range (trigLen s t)).map (fun i => devWord s (rd64 s (FLK_TRIG_LIST_LO t) + 4 * i))

/-- The header positions of a list that its headers tile exactly; none where they do not (R359). -/
def listHeads (ws : List Nat) : Nat → Nat → Option (List Nat)
  | 0, i => if i = ws.length then some [] else none
  | f + 1, i =>
    if i = ws.length then some []
    else if ws.length < i then none
    else (listHeads ws f (i + hLen (ws.getD i 0))).map (fun l => i :: l)

/-- The first condition for which a slot is refused at registration (R359), by its place in the rule's list. -/
def trigFails (s : State) (t : Nat) : Option Nat :=
  let v := rd s (FLK_TRIG_CTRL t)
  let n := trigLen s t
  let p := bits v 16 12
  let heads := listHeads (trigWords s t) n 0
  let a := rd64 s (FLK_TRIG_LIST_LO t)
  if n ≤ 4096 ∧ heads.isNone then some 1
  else if n = 0 ∨ 4096 < n then some 2
  else if p ≠ 0 ∧ n ≤ p + 1 then some 3
  else if p ≠ 0 ∧ (heads.getD []).any (fun i => i == p || i == p + 1) then some 4
  else if !nearReadOk s (bits v 1 4) (bits v 5 8) a (4 * n) then some 5
  else none

/-- FLK_TRIG_VALID (R359): a write of FLK_TRIG_CTRL. Fields are written only while VALID = 0; setting VALID checks the
slot, and the write index starts at PUB. -/
def trigWrite (s : State) (src : Src) (t : Nat) (v : Nat) : State :=
  let o := FLK_TRIG_CTRL t
  let old := rd s o
  let n := v % 2 ^ 28
  if bit old 0 && bit n 0 then (if old = n then s else logDiscard s src o 4 8)
  else
    let s1 := setReg s o n
    if !bit n 0 then (if old = n then s else logAccepted s1 src 0 o n)
    else match trigFails s1 t with
      | some c => logUnit (setReg s o (n - 1)) 0x0317 0 [t, c]
      | none => logAccepted (setReg s1 (FLK_TRIG_WIDX t) (qPub s1 (trigQueue s1 t))) src 0 o n

/-- FLK_TRIG_VALID (R359). -/
def execFlkTrigValid (src : Src) (t : Nat) (v : Word) (s : State) : Host.Outcome State Fault Refusal :=
  if !isReady s then .next (emit s (.unsupported src)) else .next (trigWrite s src (t % 256) v.toNat)

/-- TRIGGER_PACKET (R360): refused, or the list is copied into the ring with its argument and a doorbell written. A
refusal for a full queue is counted as a choice (Table 10.5). -/
def trigger (s : State) (src slice bank tag t arg : Nat) : State :=
  let k := trigQueue s t
  let n := trigLen s t
  let widx := rd s (FLK_TRIG_WIDX t)
  let used := (2 ^ 32 + widx - qHead s k) % 2 ^ 32
  let refuse (why : Nat) : State :=
    sendAnswer (logUnit (satAdd s (FLK_TRIG_REF_CNT t) 1) 0x0318 0 [t, src, why]) "REFUSED" src slice bank [tag, why] []
  if !bit (rd s (FLK_TRIG_CTRL t)) 0 || !bit (rd s (FLK_TRIG_LEN t)) (16 + slice) then refuse 4
  else if !qEnabled s k || !available s (qCru k) || decide (qSize s k < used + n) then
    countChoice (refuse 5) 5 (qCtx k) 0 (16 + qCru k)
  else
    let p := bits (rd s (FLK_TRIG_CTRL t)) 16 12
    let ws := (trigWords s t).zipIdx.map (fun (w, i) =>
      if p ≠ 0 ∧ i = p then arg % 2 ^ 32 else if p ≠ 0 ∧ i = p + 1 then arg / 2 ^ 32 % 2 ^ 32 else w)
    let s1 := ws.zipIdx.foldl (fun st e => devWords st hostAgent (qWordAddr s k (widx + e.2)) [e.1]) s
    let s2 := doorbell (setReg s1 (FLK_TRIG_WIDX t) (widx + n)) (.unit (0x1000 + t)) k n (k * 64)
    sendAnswer (cntAdd s2 (FLK_TRIG_CNT_LO t) 1) "ACK" src slice bank [tag] []

/-- TRIGGER_PACKET (R360). -/
def execTriggerPacket (src slice bank tag t arg : Nat) (cut : Option Nat) (s : State) : Host.Outcome State Fault Refusal :=
  if s.mode != .ready then .next (dropArrival s) else
  if heldByCut s cut then .next s else .next (orWait s (trigger s src slice bank tag (t % 256) arg))

/-- FLK_CLR_DEAD (R358): no position is taken to be dead. -/
def clearDead (s : State) (src : Src) (note : Bool := true) : State :=
  logAccIf note (setReg s FLK_DEADPOS 0) src FLK_CTRL (setBits (rd s FLK_CTRL) 2 1 1)

/-- FLK_CLR_DEAD (R358). -/
def execFlkClrDead (src : Src) (s : State) : Host.Outcome State Fault Refusal :=
  if !isReady s then .next (emit s (.unsupported src)) else .next (clearDead s src)

/-- FLK_WIN_EN (R337, R341): FLK_CTRL's WIN_EN and CACHE_EN are written; a change of WIN_EN records 0x0310. -/
def winEnable (s : State) (src : Src) (v : Nat) : State :=
  let old := rd s FLK_CTRL
  let n := v % 4
  let s1 := if old = n then s else logAccepted (setReg s FLK_CTRL n) src 0 FLK_CTRL n
  let s2 := if bit old 0 = bit n 0 then s1 else
    logUnit s1 0x0310 0 ([min 64 (bits (rd s FLK_WIN_SIZE) 0 7)] ++ datum64 (rd64 s FLK_WIN_BACK_LO) ++
      datum64 (rd64 s FLK_DIR_BASE_LO))
  if bit v 2 then clearDead s2 src else s2

/-- FLK_WIN_EN (R341). -/
def execFlkWinEn (src : Src) (v : Word) (s : State) : Host.Outcome State Fault Refusal :=
  if !isReady s then .next (emit s (.unsupported src)) else .next (winEnable s src v.toNat)

end Sys2Proof.Machine
end

