-- ==== Sys2Proof/Machine/Sprue.lean ====
section
/-! DEFINITION. The sprues: bring-up, framing and retry, retrains and link failures, credits and slice pools, low power,
routing banks and takeover (chapter 7), and the enabling of contexts that reserves the pools (R233). -/
namespace Sys2Proof.Machine
open Reg

/-- The sprue of a link. -/
def sprOf (h : Nat) : Nat := h / 2
/-- Records an event of a link. -/
def logLink (s : State) (code h : Nat) (data : List Nat) : State := logUnit s code (528 + h) (sprOf h :: data)
/-- The risk part of a sprue (R453). -/
def sprPart (h : Nat) : Nat := 280 + sprOf h
/-- Whether a link is up, in low power or not. -/
def linkUp (s : State) (h : Nat) : Bool := linkState s h == 2 || linkState s h == 4

/-- The pools that a slice needs on a link: the larger of the templates of its enabled contexts, and of those being
enabled (R288). -/
def sliceNeed (s : State) (t : Nat) : Nat × Nat :=
  ((List.range 16).filter (fun x => sliceTag s x == t && (ctxState s x != 0 || s.sprues.enabling.contains x))).foldl
    (fun n x => (max n.1 (max 8 (spGet s.tnd.credits (2 * x) 0)), max n.2 (max 8 (spGet s.tnd.credits (2 * x + 1) 0)))) (0, 0)
/-- The flits of a link carved for the other slices. -/
def carvedOther (s : State) (h t : Nat) : Nat :=
  (((List.range 16).filter (· != t)).map (fun u => (poolOf s h u).1 + (poolOf s h u).2)).sum
/-- The flits of a link's slice pools (Table 7.6). -/
def poolFlits : Nat := 1920
/-- The state with a slice's pools on a link set. -/
def setPool (s : State) (h t : Nat) (n : Nat × Nat) : State :=
  setReg s (SPR_POOL (h / 2) (h % 2) t) (n.1 + 2 ^ 16 * n.2)
/-- The class for which a link has no space: REQ where its pool does not fit, else RSP. -/
def lackingClass (other : Nat) (n : Nat × Nat) : Nat := if poolFlits < other + n.1 then 3 else 1

/-- A link-control flit: it takes a sequence number and is kept for retry (R268). -/
def sendLc (s : State) (h : Nat) (name : String) (words : List Nat) : State :=
  let n := (linkAt s h).txSeq
  let hdr : PktHdr := ⟨0, 0, 0, 0, 0, none, 0, 1⟩
  let s1 := setLink s h (fun l => { l with txSeq := (n + 1) % 4096, retry := l.retry ++ [⟨n, tickNow s, hdr, true, []⟩] })
  emit (cntAdd s1 (SPR_TXFLIT_CNT_LO (h / 2) (h % 2)) 1) (.link h name (n :: words))

/-- Brings a slice's reservation on a link to what it should be (R288, R289): released where it is not allowed or not
needed, else proposed to the partner. Answers the class that local space refuses. -/
def reserve (s : State) (h t : Nat) : State × Option Nat :=
  let allowed := linkUp s h && bit (linkCtrl s h) 0 && !dimFenced s (linkDim s h) && sliceAllowed s h t
  let n := if allowed then sliceNeed s t else (0, 0)
  let cur := poolOf s h t
  let rest := s.sprues.asking.filter (fun e => e != (h, t))
  if n = (0, 0) then
    let s1 := s.withSprues { s.sprues with asking := rest }
    if cur = (0, 0) then (s1, none)
    else (sendLc (setPool s1 h t (0, 0)) h "CREDIT_RESERVE" [t, 0, 0, 0], none)
  else if n = cur then (s, none)
  else if poolFlits < carvedOther s h t + n.1 + n.2 then
    let c := lackingClass (carvedOther s h t) n
    (logLink (s.withSprues { s.sprues with asking := rest }) 0x010D h [t, c, 1], some c)
  else (sendLc (s.withSprues { s.sprues with asking := rest ++ [(h, t)] }) h "CREDIT_RESERVE" [t, n.1, n.2, 0], none)

/-- Brings every slice's reservation on a link up to date. -/
def reserveLink (s : State) (h : Nat) : State := (List.range 16).foldl (fun st t => (reserve st h t).1) s
/-- Brings a slice's reservation on every link up to date; answers the first class that local space refuses. -/
def reserveSlice (s : State) (t : Nat) : State × Option Nat :=
  (allLinks s).foldl (fun (st : State × Option Nat) h =>
    let r := reserve st.1 h t
    (r.1, st.2.or r.2)) (s, none)

/-- A context that is being enabled fails for want of credit (R233): it stays DISABLED. -/
def failEnable (s : State) (x cls : Nat) : State :=
  let t := sliceTag s x
  let s1 := s.withSprues { s.sprues with enabling := s.sprues.enabling.filter (· != x) }
  let s2 := s1.withTnd { s1.tnd with enfail := spPut s1.tnd.enfail x 1 0 }
  (reserveSlice (logCtx s2 0x0240 x x 0 [x, t, cls]) t).1

/-- A context whose pools are all agreed is enabled: RUNNABLE, or STOPPED where STOP stands (Table 6.1). -/
def finishEnable (s : State) (x : Nat) : State :=
  let o := TND_CTX_CTRL x
  let v := setBits (rd s o) 0 1 1
  let s1 := setReg (s.withSprues { s.sprues with enabling := s.sprues.enabling.filter (· != x) }) o v
  let s2 := s1.withTnd { s1.tnd with enfail := spPut s1.tnd.enfail x 0 0 }
  if bit v 1 then settleStop (setCtxState s2 x 2) x else setCtxState s2 x 1

/-- Enables the contexts of a slice that wait for no further agreement. -/
def settleEnables (s : State) (t : Nat) : State :=
  if s.sprues.asking.any (fun e => e.2 == t) then s
  else (s.sprues.enabling.filter (fun x => sliceTag s x == t)).foldl finishEnable s

/-- Fails every context of a slice that is being enabled. -/
def failEnables (s : State) (t cls : Nat) : State :=
  (s.sprues.enabling.filter (fun x => sliceTag s x == t)).foldl (fun st x => failEnable st x cls) s

/-- TND_CTX_ENABLE (R233, R288): the context's pools are proposed on every link that its slice uses; with none to
propose it is enabled at once. -/
def ctxEnable (s : State) (src : Src) (x : Nat) (note : Bool := true) : State :=
  if ctxState s x ≠ 0 ∨ s.sprues.enabling.contains x then s else
  let o := TND_CTX_CTRL x
  let s1 := logAccIf note s src o (setBits (rd s o) 0 1 1)
  let s2 := s1.withSprues { s1.sprues with enabling := s1.sprues.enabling ++ [x] }
  let r := reserveSlice s2 (sliceTag s x)
  match r.2 with
  | some c => failEnable r.1 x c
  | none => settleEnables r.1 (sliceTag s x)

/-- TND_CTX_ENABLE (R233). -/
def execTndCtxEnable (src : Src) (x : Nat) (s : State) : Host.Outcome State Fault Refusal :=
  if !isReady s then .next (emit s (.unsupported src)) else .next (ctxEnable s src (x % 16))

/-- TND_CTX_DISABLE (R233): a STOPPED context is disabled and its reservation released; in any other state the write is
discarded and logged. -/
def ctxDisable (s : State) (src : Src) (x : Nat) (note : Bool := true) : State :=
  let o := TND_CTX_CTRL x
  if ctxState s x = 0 then s
  else if ctxState s x ≠ 3 then logDiscard s src o 4 8
  else
    let v := setBits (rd s o) 0 1 0
    let s1 := setCtxState (logAccIf note (setReg s o v) src o v) x 0
    (reserveSlice s1 (sliceTag s x)).1

/-- TND_CTX_DISABLE (R233). -/
def execTndCtxDisable (src : Src) (x : Nat) (s : State) : Host.Outcome State Fault Refusal :=
  if !isReady s then .next (emit s (.unsupported src)) else .next (ctxDisable s src (x % 16))

/-- CREDIT_RESERVE (R288, R289): a proposal, an agreement or a refusal arrives; both partners apply an agreed
reservation in the same exchange. `kind` is 0 a proposal, 1 an agreement, 2 a refusal for a class. -/
def execCreditReserve (h slice req rsp kind cls : Nat) (s : State) : Host.Outcome State Fault Refusal :=
  let t := slice % 16
  if !linkUp s h then .next s else
  let rest := s.sprues.asking.filter (fun e => e != (h, t))
  match kind with
  | 0 =>
    if req = 0 ∧ rsp = 0 then .next (setPool s h t (0, 0)) else
    let n := sliceNeed s t
    let m := (max n.1 req, max n.2 rsp)
    if poolFlits < carvedOther s h t + m.1 + m.2 then
      let c := lackingClass (carvedOther s h t) m
      .next (sendLc (logLink s 0x010D h [t, c, 1]) h "CREDIT_RESERVE" [t, req, rsp, 2, c])
    else .next (drainLink (sendLc (setPool s h t m) h "CREDIT_RESERVE" [t, m.1, m.2, 1]) h)
  | 1 =>
    if !s.sprues.asking.contains (h, t) then .next s else
    let s1 := setPool (s.withSprues { s.sprues with asking := rest }) h t (req, rsp)
    .next (settleEnables (drainLink s1 h) t)
  | _ =>
    if !s.sprues.asking.contains (h, t) then .next s else
    .next (failEnables (logLink (s.withSprues { s.sprues with asking := rest }) 0x010D h [t, cls, 2]) t cls)

/-- Routes again every packet that waits under a key. -/
def reroute (s : State) (key : Nat) : State :=
  let l := (linkAt s key).waits
  l.foldl (fun st w => (routePacket st w).1) (setLink s key (fun d => { d with waits := [] }))

/-- Records the dimensions whose packets begin to take their alternates (R282), and those that no longer do. -/
def noteDetours (s : State) : State :=
  (List.range (bits (rd s SPR_TOPO) 4 5)).foldl (fun st d =>
    let l := (allLinks st).filter (fun h => linkDim st h == d)
    let up := l.any (fun h => linkUp st h && bit (linkCtrl st h) 0) && !dimFenced st d
    let on_ := st.sprues.detoured.contains d
    match l.head? with
    | none => st
    | some h =>
      if !up && !on_ then logLink (st.withSprues { st.sprues with detoured := st.sprues.detoured ++ [d] }) 0x010A h [d]
      else if up && on_ then st.withSprues { st.sprues with detoured := st.sprues.detoured.filter (· != d) }
      else st) s

/-- What follows a change of a link (R282, R289): alternates, reservations, and the packets without a route. -/
def linkChanged (s : State) (h : Nat) : State := reroute (drainLink (reserveLink (noteDetours s) h) h) noLink

/-- A link goes DOWN (R270): its pools are released, what waits for it is routed again, and the partner is asked for the
last whole packet that it received. -/
def linkDown (s : State) (h cause : Nat) : State :=
  let o := SPR_STATUS (h / 2) (h % 2)
  let s1 := setReg s o (setBits (rd s o) 0 13 0)
  let s2 := (List.range 16).foldl (fun st t => setPool st h t (0, 0)) s1
  let lost := (s2.sprues.asking.filter (fun e => e.1 == h)).map (·.2)
  let s3 := s2.withSprues { s2.sprues with asking := s2.sprues.asking.filter (fun e => e.1 != h) }
  let s4 := setLink s3 h (fun l => { l with
    rx := [], owed := 0, owedAt := none, nakOut := false, nakTx := 0, nakRx := 0, retrain := none, used := [], spent := [], lp := 0,
    failedAt := [], asked := some (tickNow s, cause) })
  let s5 := emit s4 (.packet "LINK_SEQ_QUERY" (bits (rd s (SPR_PARTNER (h / 2) (h % 2))) 0 16) [h])
  let s6 := lost.foldl (fun st t => failEnables st t 3) (riskAdd s5 (sprPart h) (2 ^ 16 * 64))
  reroute (reroute (noteDetours s6) h) noLink

/-- The packets of a retry buffer, oldest first, each with the sequence number of its last flit. -/
def retryPackets : List TxFlit → List TxFlit → List (Nat × PktHdr × List (List Byte))
  | [], _ => []
  | f :: t, part =>
    let p := part ++ [f]
    if f.last then
      (if f.hdr.cls = 0 then retryPackets t [] else (f.seq, f.hdr, p.map (·.data)) :: retryPackets t [])
    else retryPackets t p

/-- Whether a sequence number comes after another, within half of the number space. -/
def seqAfter (a b : Nat) : Bool := let d := (4096 + a - b % 4096) % 4096; decide (0 < d ∧ d < 2048)

/-- Ends the question to a failed link's partner (R270): the packets kept are re-injected through the alternates, and
event 0x0108 tells how many. -/
def reinject (s : State) (h : Nat) (keep : Nat × PktHdr × List (List Byte) → Bool) : State :=
  let l := linkAt s h
  let ps := (retryPackets l.retry []).filter keep
  let s1 := logLink (setLink s h (fun d => { d with retry := [], asked := none })) 0x0108 h
    [(l.asked.map (·.2)).getD 0, ps.length]
  ps.foldl (fun st p => (routePacket st ⟨p.2.1, p.2.2, 36, 0, st.clock.half, 16⟩).1) s1

/-- LINK_SEQ_QUERY (R270): a partner's question is answered with the last whole packet received; a partner's answer has
every later packet re-injected. -/
def execLinkSeqQuery (h : Nat) (ask : Bool) (last : Nat) (s : State) : Host.Outcome State Fault Refusal :=
  if ask then .next (emit s (.packet "LINK_SEQ_ANSWER" (bits (rd s (SPR_PARTNER (h / 2) (h % 2))) 0 16) [h, (linkAt s h).whole]))
  else if (linkAt s h).asked.isNone then .next s
  else .next (reinject s h (fun p => seqAfter p.1 last))

/-- PARTNER_ANSWER_TIMEOUT (R270): after 20 µs the partner is taken to be dead; packets addressed to it are dropped. -/
def execPartnerAnswerTimeout (h : Nat) (s : State) : Host.Outcome State Fault Refusal :=
  match (linkAt s h).asked with
  | some (t, _) =>
    if tickNow s < t + 2000 then .next s
    else .next (reinject s h (fun p => p.2.1.dest != bits (rd s (SPR_PARTNER (h / 2) (h % 2))) 0 16))
  | none => .next s

/-- LINK_DOWN (R270): a link loses signal on more lanes than its width allows. -/
def execLinkDown (h : Nat) (s : State) : Host.Outcome State Fault Refusal :=
  if linkUp s h || linkState s h == 5 then .next (linkDown s h 2) else .next s

/-- Enters a retrain (R269): 1 eight NAKs, 2 no acknowledgement, 3 loss of lock, 4 symbol rate, 5 a write. -/
def enterRetrain (s : State) (h cause lane : Nat) : State :=
  if !linkUp s h then s else
  let s1 := setLink (setLinkState s h 5) h (fun l => { l with
    retrain := some cause, lp := 0, nakOut := false, nakTx := 0, nakRx := 0 })
  noteDetours (if cause = 3 then logLink s1 0x0106 h [2, lane] else s1)

/-- RETRAIN (R264, R269): a link loses lock (3), or a lane's corrected-symbol rate is too high (4). -/
def execRetrain (h cause lane : Nat) (s : State) : Host.Outcome State Fault Refusal :=
  .next (enterRetrain s h (if cause = 3 then 3 else 4) lane)

/-- SPR_RETRAIN (R269): a write of RETRAIN. -/
def execSprRetrain (src : Src) (h : Nat) (s : State) : Host.Outcome State Fault Refusal :=
  if !isReady s then .next (emit s (.unsupported src)) else
  let o := SPR_CTRL (h / 2) (h % 2)
  .next (enterRetrain (logAccepted s src 0 o (setBits (rd s o) 1 1 1)) h 5 0)

/-- Replays the retry buffer from a sequence number (R268). -/
def replay (s : State) (h : Nat) (keep : TxFlit → Bool) : State :=
  let l := (linkAt s h).retry.filter keep
  if l.isEmpty then s else
  let s1 := setLink s h (fun d => { d with retry := d.retry.map (fun f => if keep f then { f with sent := tickNow s } else f) })
  cntAdd (emit s1 (.link h "REPLAY" (l.map (·.seq)))) (SPR_RETRY_CNT_LO (h / 2) (h % 2)) 1

/-- Sets the widths of a link, and records each direction that is narrower than before (R262, R269). -/
def setWidths (s : State) (h txw rxw txBad rxBad fullTx fullRx : Nat) : State :=
  let o := SPR_STATUS (h / 2) (h % 2)
  let s1 := setReg s o (setBits (setBits (rd s o) 3 5 txw) 8 5 rxw)
  let narrow (st : State) (dir w bad full : Nat) : State :=
    if w < full then riskAdd (logLink st 0x0104 h [dir, w, bad]) (sprPart h) (2 ^ 16 * 16) else st
  narrow (narrow s1 1 txw txBad fullTx) 2 rxw rxBad fullRx

/-- RETRAIN_END (R269, R270): `ok` tells that lock was acquired; the masks are the receive and transmit lanes that
failed. A third failure within 1 s takes the link down. -/
def execRetrainEnd (h : Nat) (ok : Bool) (rxFail txFail : Nat) (s : State) : Host.Outcome State Fault Refusal :=
  let l := linkAt s h
  match l.retrain with
  | none => .next s
  | some cause =>
    let n := linkLanes s h
    let rxBad := onesBelow (rxFail ||| l.isolated ||| l.spared) n
    let txBad := onesBelow (txFail ||| l.isolated) n
    let rxw := linkWidth n rxBad
    let txw := linkWidth n txBad
    let good := ok && rxw != 0 && txw != 0
    let v := rd s (SPR_STATUS (h / 2) (h % 2))
    let s1 := riskAdd (cntAdd s (SPR_RETRAIN_CNT_LO (h / 2) (h % 2)) 1) (sprPart h) (2 ^ 16 * 4)
    let s2 := logLink s1 0x0107 h [cause, if good then rxw else 0]
    if good then
      let s3 := setWidths s2 h txw rxw txBad rxBad (bits v 3 5) (bits v 8 5)
      let f := SPR_LANE_FAIL (h / 2) (h % 2)
      let s4 := setReg s3 f (setBits (rd s3 f) 0 16 (rxFail ||| l.isolated ||| l.spared))
      let s5 := setLink (setLinkState (logLink s4 0x0106 h [1, 0]) h 2) h (fun d => { d with retrain := none })
      .next (linkChanged (replay s5 h (fun _ => true)) h)
    else
      let fails := tickNow s :: l.failedAt.filter (fun t => decide (tickNow s < t + 100000000))
      let s3 := setLink s2 h (fun d => { d with failedAt := fails })
      if 3 ≤ fails.length then .next (linkDown s3 h 1)
      else if rxw = 0 ∨ txw = 0 then .next (linkDown s3 h 2)
      else .next s3

/-- The first field of the identity records that makes a link a miswire (R263), by its place in the record: 1 SYSTEM,
2 TOPO, 3 FLASK or spare, 4 ADDR, 6 dimension; none where they agree. -/
def identityFault (s : State) (h : Nat) (b : Bringup) : Option Nat :=
  let d := linkDim s h
  if b.system ≠ rd s SPR_SYSTEM then some 1
  else if b.crossed ≠ bit (rd s SPR_TOPO) 0 then some 2
  else if b.dim ≠ d then some 6
  else if d < 16 then (if b.spare || b.addr != nb s ((ownAddress s).getD 0) d then some 4 else none)
  else if b.flask ≠ selfFlask s ∨ b.spare = isSpare s then some 3
  else none

/-- Bits of a mask of lanes. -/
def laneMask (l : List Nat) : Nat := (l.eraseDups.map (fun i => 2 ^ i)).sum

/-- A bring-up attempt fails (R258): the sprue stays DOWN and starts again after 100 ms, three attempts at most. -/
def bringupFails (s : State) (h : Nat) : State :=
  let n := (linkAt s h).attempts + 1
  setLink (setLinkState s h 0) h (fun l => { l with
    attempts := n, retryAt := if n < 3 then some (tickNow s + 10000000) else none })

/-- One bring-up attempt (R258 to R264, Table 7.1): the DC test, training, lane identity, the identity exchange, lock and
the credit exchange. -/
def bringup (s : State) (h : Nat) (b : Bringup) : State :=
  let i := h / 2
  let j := h % 2
  let n := linkLanes s h
  let l := linkAt s h
  let short := b.isolated.flatMap (fun e => if e.2 < 16 then [e.1, e.2] else [e.1])
  let iso := l.isolated ||| laneMask short
  let s1 := b.isolated.foldl (fun st e => logLink st 0x0101 h [e.1, e.2]) (setLink s h (fun d => { d with isolated := iso, retryAt := none }))
  let rx := b.rxFail ||| iso
  let rxBad := onesBelow rx n
  let txBad := onesBelow (b.txFail ||| iso) n
  let rxw := linkWidth n rxBad
  let txw := linkWidth n txBad
  let s2 := setReg (setReg s1 (SPR_LANE_FAIL i j) (rx % 65536 + iso % 65536 * 65536)) (SPR_LANE_POL i j) b.inverted
  if b.failing = 1 then bringupFails s2 h
  else if b.failing = 2 ∨ b.failing = 3 ∨ rxw = 0 ∨ txw = 0 then
    bringupFails (logLink s2 0x0104 h [if txw = 0 then 1 else 2, 0, if txw = 0 then txBad else rxBad]) h
  else
    let s3 := if b.reversed then logLink s2 0x0103 h [j] else s2
    let base := b2n b.reversed * 2 ^ 13 + 2 ^ 15 * b2n (sprSplit s h)
    let partner := b.addr % 65536 + b.flask % 8192 * 65536 + 2 ^ 29 * b2n b.spare + 2 ^ 30
    let port := b.sprue % 32 + b.half % 2 * 32 + b.dim % 32 * 256
    let s4 := setReg (setReg s3 (SPR_PARTNER i j) partner) (SPR_PARTNER_PORT i j) port
    let wrong := if b.misorder then some 0 else identityFault s h b
    match wrong with
    | some f =>
      let s5 := setReg s4 (SPR_STATUS i j) (3 + base + 2 ^ 14 + txw * 8 + rxw * 256)
      logLink (setLink s5 h (fun d => { d with attempts := 0 })) 0x0105 h [partner, port, f]
    | none =>
      if b.failing = 5 then bringupFails (logLink s4 0x0106 h [2, 0]) h
      else if b.failing ≠ 0 then bringupFails (logLink s4 0x0108 h [3, 0]) h
      else
        let r := drawNat s4
        let s5 := setReg r.2 (SPR_STATUS i j) (2 + base + txw * 8 + rxw * 256)
        let s6 := setWidths s5 h txw rxw txBad rxBad n n
        let s7 := setLink s6 h (fun d => { SprLink.init with
          isolated := d.isolated, seed := r.1 % 2 ^ 58, pseed := b.seed % 2 ^ 58, busyAt := tickNow s })
        linkChanged (logLink (logLink s7 0x0106 h [1, 0]) 0x0109 h [txw, rxw, b.addr]) h

/-- SPRUE_BRINGUP (R258): a sprue that is TRAINING makes its attempt. -/
def execSprueBringup (h : Nat) (b : Bringup) (s : State) : Host.Outcome State Fault Refusal :=
  if linkState s h = 1 ∧ linkDim s h ≠ 31 then .next (bringup s h b) else .next s

/-- BRINGUP_RETRY (R258): 100 ms after a failed attempt. -/
def execBringupRetry (h : Nat) (b : Bringup) (s : State) : Host.Outcome State Fault Refusal :=
  match (linkAt s h).retryAt with
  | some t => if t ≤ tickNow s ∧ linkState s h = 0 ∧ linkDim s h ≠ 31 then .next (bringup s h b) else .next s
  | none => .next s

/-- SPR_ENABLE (R258, R281): enabling starts the bring-up of a DOWN sprue, with three new attempts; a disabled link is
unusable. -/
def linkEnable (s : State) (src : Src) (h : Nat) (on_ : Bool) (note : Bool := true) : State :=
  let o := SPR_CTRL (h / 2) (h % 2)
  let v := setBits (rd s o) 0 1 (b2n on_)
  let s1 := if rd s o = v ∧ !on_ then s else logAccIf note (setReg s o v) src o v
  if on_ then
    let s2 := if linkState s1 h = 0 ∧ linkDim s1 h ≠ 31 then
        setLink (setLinkState s1 h 1) h (fun l => { l with attempts := 0, retryAt := none })
      else s1
    linkChanged s2 h
  else
    let s2 := if linkState s1 h = 1 ∨ linkState s1 h = 0 then
        setLink (setLinkState s1 h 0) h (fun l => { l with retryAt := none })
      else s1
    linkChanged s2 h

/-- SPR_ENABLE (R258). -/
def execSprEnable (src : Src) (h : Nat) (on_ : Bool) (s : State) : Host.Outcome State Fault Refusal :=
  if !isReady s then .next (emit s (.unsupported src)) else .next (linkEnable s src h on_)

/-- Bytes 0 to 251 of a flit (Table 7.2). -/
def flitBytes (f : Flit) : List Byte :=
  leBytes 2 (f.seq % 4096 + f.kind % 4 * 2 ^ 12 + 2 ^ 14 * b2n f.last + 2 ^ 15 * b2n f.stomp) ++
  leBytes 2 (f.crClass % 16 + f.crCount % 4096 * 16) ++ (f.data ++ List.replicate 248 0).take 248

/-- Acknowledges the flits received (R268). -/
def sendAck (s : State) (h : Nat) : State :=
  let s1 := setLink s h (fun l => { l with owed := 0, owedAt := none })
  sendLc s1 h "LINK_ACK" [(linkAt s h).rxSeq]

/-- A NAK for the flit expected (R268); the eighth in a row for one number enters a retrain (R269). -/
def sendNak (s : State) (h : Nat) : State :=
  let l := linkAt s h
  let s1 := emit (setLink s h (fun d => { d with nakOut := true, nakTx := d.nakTx + 1 })) (.link h "NAK" [l.rxSeq])
  if 8 ≤ l.nakTx + 1 then enterRetrain s1 h 1 0 else s1

/-- A whole packet has arrived on a link (R274, R279): fence and slice mask first, then its route; a packet for this
device leaves its buffer. Two errors in its routing entry put it on the escape channel (R366). -/
def packetIn (s : State) (h : Nat) (p0 : PktHdr) (data : List (List Byte)) (ecc : Nat) : State :=
  let p := if 2 ≤ ecc then { p0 with layer := some (p0.layer.getD 0) } else p0
  let w : LinkWait := ⟨p, data, h, packetKey p0, s.clock.half, 16⟩
  if dimFenced s (linkDim s h) then maskedPacket s h w false
  else if !sliceAllowed s h p.slice then maskedPacket s h w true
  else
    let r := routePacket s w
    let s1 := tableError r.1 1 (65536 * p.bank + p.dest) ecc
    if r.2 then returnCredit s1 h w.key p.flits else s1

/-- A flit in sequence (R268, R270): its packet grows, and is routed or, stomped, discarded at its last flit. -/
def flitIn (s : State) (h : Nat) (f : Flit) (ecc : Nat) : State :=
  let l := linkAt s h
  let n := l.owed + 1
  let s1 := setLink s h (fun d => { d with
    rxSeq := (f.seq + 1) % 4096, owed := n, nakOut := false, nakTx := 0,
    owedAt := some (d.owedAt.getD (tickNow s)), busyAt := if f.kind = 0 then d.busyAt else tickNow s })
  let s2 := cntAdd s1 (SPR_RXFLIT_CNT_LO (h / 2) (h % 2)) 1
  let s3 := if f.kind = 0 ∨ linkState s h = 3 then s2 else
    let rx := (if f.kind = 1 then [] else l.rx) ++ [(f.hdr, f.data)]
    if !f.last then setLink s2 h (fun d => { d with rx := rx })
    else
      let st := setLink s2 h (fun d => { d with rx := [], whole := if f.stomp then d.whole else f.seq })
      let p := (rx.headD (f.hdr, [])).1
      if f.stomp then returnCredit st h (packetKey p) rx.length else packetIn st h p (rx.map (·.2)) ecc
  if 64 ≤ n then sendAck s3 h else s3

/-- FLIT_RECEIVE (R264, R268): `ucw` tells an uncorrectable codeword, `csym` the symbols corrected, `ecc` the errors in the
routing entry that the packet meets. A bad flit, and all
after it, is discarded with a NAK; a flit already received is only acknowledged again. -/
def execFlitReceive (h : Nat) (ucw : Bool) (csym : Nat) (f : Flit) (ecc : Nat) (s : State) : Host.Outcome State Fault Refusal :=
  if !(linkUp s h || linkState s h == 3) then .next s else
  let i := h / 2
  let j := h % 2
  let c0 := rd64 s (SPR_FEC_CSYM_CNT_LO i j)
  let s1 := cntAdd (cntAdd s (SPR_FEC_CSYM_CNT_LO i j) csym) (SPR_FEC_UCW_CNT_LO i j) (b2n ucw)
  let s2 := riskAdd s1 (sprPart h) (2 ^ 16 * ((c0 + csym) / 1000000000 - c0 / 1000000000))
  let s3 := if linkState s2 h = 4 then setLink (setLinkState s2 h 2) h (fun l => { l with lp := 0 }) else s2
  if ucw || f.crc != crc32c ((flitBytes f).map (·.toNat)) then .next (sendNak s3 h)
  else
    let s4 := if f.crCount = 0 then s3 else
      drainLink (setLink s3 h (fun l => { l with
        used := spPut l.used f.crKey (spGet l.used f.crKey 0 - f.crCount) 0, spent := unspend f.crKey f.crCount l.spent })) h
    let l := linkAt s4 h
    let d := (4096 + f.seq - l.rxSeq) % 4096
    if f.kind = 3 then .next s4
    else if d = 0 then .next (flitIn s4 h f ecc)
    else if 2048 ≤ d then
      .next (setLink s4 h (fun e => { e with owed := e.owed + 1, owedAt := some (e.owedAt.getD (tickNow s)) }))
    else if l.nakOut then .next s4 else .next (sendNak s4 h)

/-- NAK (R268, R269): the sender replays from the flit named; the eighth in a row for one number enters a retrain. -/
def execNak (h seq : Nat) (s : State) : Host.Outcome State Fault Refusal :=
  if !(linkUp s h || linkState s h == 3) then .next s else
  let l := linkAt s h
  let n := if l.nakRx ≠ 0 ∧ l.nakSeq = seq % 4096 then l.nakRx + 1 else 1
  let s1 := setLink s h (fun d => { d with nakRx := n, nakSeq := seq % 4096 })
  if 8 ≤ n then .next (enterRetrain s1 h 1 0)
  else .next (replay s1 h (fun f => f.seq == seq % 4096 || seqAfter f.seq seq))

/-- LINK_ACK (R268): every flit before the one that the partner expects next leaves the retry buffer. -/
def execLinkAck (h seq : Nat) (s : State) : Host.Outcome State Fault Refusal :=
  if !(linkUp s h || linkState s h == 3) then .next s else
  .next (drainLink (setLink s h (fun l => { l with
    retry := l.retry.filter (fun f => f.seq == seq % 4096 || seqAfter f.seq seq), nakRx := 0 })) h)

/-- ACK_SEND_TIMER (R268): 2 µs after the arrival of a flit not yet acknowledged. -/
def execAckSendTimer (h : Nat) (s : State) : Host.Outcome State Fault Refusal :=
  match (linkAt s h).owedAt with
  | some t => if t + 200 ≤ tickNow s ∧ (linkUp s h || linkState s h == 3) then .next (sendAck s h) else .next s
  | none => .next s

/-- ACK_TIMEOUT (R269): no acknowledgement within 10 µs of a flit sent. -/
def execAckTimeout (h : Nat) (s : State) : Host.Outcome State Fault Refusal :=
  match (linkAt s h).retry.head? with
  | some f => if f.sent + 1000 ≤ tickNow s then .next (enterRetrain s h 2 0) else .next s
  | none => .next s

/-- ESCAPE_WAIT (R280): the oldest request that has waited 64 LCLK cycles at an output without credit moves to the escape
channel. -/
def execEscapeWait (h : Nat) (s : State) : Host.Outcome State Fault Refusal :=
  match (linkAt s h).waits.find? (fun w => w.hdr.cls == 3 && w.hdr.layer.isNone && !mayStart s h w &&
      decide (w.since + 64 * lclkHalf ≤ s.clock.half)) with
  | none => .next s
  | some w =>
    let s1 := setLink s h (fun l => { l with waits := l.waits.erase w })
    .next (routePacket s1 { w with hdr := { w.hdr with layer := some 0 } }).1

/-- Whether a side has nothing to send on a link (R292). -/
def linkQuiet (s : State) (h : Nat) : Bool := (linkAt s h).waits.isEmpty && (linkAt s h).rx.isEmpty

/-- LP_IDLE_TIMER (R292): after LP_IDLE µs of idle, with LP_EN, a side proposes. -/
def execLpIdleTimer (h : Nat) (s : State) : Host.Outcome State Fault Refusal :=
  let l := linkAt s h
  let v := linkCtrl s h
  if linkState s h = 2 ∧ bit v 2 ∧ l.lp = 0 ∧ linkQuiet s h ∧ l.busyAt + max 1 (bits v 16 16) * 100 ≤ tickNow s then
    .next (emit (setLink s h (fun d => { d with lp := 1 })) (.link h "LP_PROPOSE" []))
  else .next s

/-- The end of a countdown that starts now: 64 LCLK cycles. -/
def lpCountdown (s : State) : Nat := s.clock.half + 64 * lclkHalf

/-- LP_PROPOSE (R292): a side with a PROPOSE of its own outstanding takes it as ACCEPT; another accepts where it has
nothing queued, and declines otherwise. -/
def execLpPropose (h : Nat) (s : State) : Host.Outcome State Fault Refusal :=
  let l := linkAt s h
  if linkState s h ≠ 2 then .next s
  else if l.lp = 1 then .next (setLink s h (fun d => { d with lp := 2, lpEnd := lpCountdown s }))
  else if l.lp = 0 ∧ linkQuiet s h then
    .next (emit (setLink s h (fun d => { d with lp := 3, lpEnd := lpCountdown s })) (.link h "LP_ACCEPT" []))
  else .next (emit s (.link h "LP_DECLINE" []))

/-- LP_ACCEPT (R292): the proposer starts its countdown. A side that has aborted stays active (R293). -/
def execLpAccept (h : Nat) (s : State) : Host.Outcome State Fault Refusal :=
  if linkState s h = 2 ∧ (linkAt s h).lp = 1 then
    .next (setLink s h (fun d => { d with lp := 2, lpEnd := lpCountdown s }))
  else .next s

/-- LP_DECLINE (R292). -/
def execLpDecline (h : Nat) (s : State) : Host.Outcome State Fault Refusal :=
  if (linkAt s h).lp = 1 then .next (setLink s h (fun d => { d with lp := 0 })) else .next s

/-- LP_ABORT (R293, Table 7.7): the receiver leaves its countdown and stays active; after its electrical idle it
performs the exit of R294. -/
def execLpAbort (h : Nat) (s : State) : Host.Outcome State Fault Refusal :=
  let l := linkAt s h
  if l.lp = 4 then .next (setLinkState (setLink s h (fun d => { d with lp := 0, busyAt := tickNow s })) h 2)
  else if l.lp = 2 ∨ l.lp = 3 then
    .next (logLink (cntAdd (setLink s h (fun d => { d with lp := 0, busyAt := tickNow s }))
      (SPR_LP_ABORT_CNT_LO (h / 2) (h % 2)) 1) 0x010E h [l.lp - 1, 4])
  else .next (setLink s h (fun d => { d with lp := 0 }))

/-- ELECTRICAL_IDLE_ENTRY (R292): 64 LCLK cycles after ACCEPT. -/
def execElectricalIdleEntry (h : Nat) (s : State) : Host.Outcome State Fault Refusal :=
  let l := linkAt s h
  if (l.lp = 2 ∨ l.lp = 3) ∧ l.lpEnd ≤ s.clock.half ∧ linkState s h = 2 then
    .next (cntAdd (setLinkState (setLink s h (fun d => { d with lp := 4 })) h 4) (SPR_LP_ENTRY_CNT_LO (h / 2) (h % 2)) 1)
  else .next s

/-- LP_WAKE (R293, Table 7.7): a flit to send arrives. -/
def execLpWake (h : Nat) (s : State) : Host.Outcome State Fault Refusal :=
  if linkUp s h then .next (drainLink (wakeLink s h) h) else .next s

/-- LP_EXIT_DETECT (R294): the partner's signal leaves electrical idle, and lock resumes without training. -/
def execLpExitDetect (h : Nat) (s : State) : Host.Outcome State Fault Refusal :=
  if (linkAt s h).lp = 4 ∧ linkState s h = 4 then
    .next (drainLink (setLinkState (setLink s h (fun d => { d with lp := 0, busyAt := tickNow s })) h 2) h)
  else .next s

/-- SPR_FENCE_CHANGE (R279, R289): SPR_FENCE is written, or a link's SPR_SLICE_MASK; pools are reserved or released
with it. -/
def fenceChange (s : State) (src : Src) (link : Option Nat) (v : Nat) : State :=
  let o := match link with
    | some h => SPR_SLICE_MASK (h / 2) (h % 2)
    | none => SPR_FENCE
  let n := v % 65536
  let s1 := if rd s o = n then s else logAccepted (setReg s o n) src 0 o n
  let s2 := noteDetours s1
  reroute ((match link with
    | some h => [h]
    | none => allLinks s2).foldl reserveLink s2) noLink

/-- SPR_FENCE_CHANGE (R289). -/
def execSprFenceChange (src : Src) (link : Option Nat) (v : Word) (s : State) : Host.Outcome State Fault Refusal :=
  if !isReady s then .next (emit s (.unsupported src)) else .next (fenceChange s src link v.toNat)

/-- Whether some context's current bank is this one (R278). -/
def bankNamed (s : State) (b : Nat) : Bool := (List.range 16).any (fun x => phaseOf s x == b)

/-- Why the first hop of a bank's route to a destination fails, as this device sees it (R278): 2 where no link leads on. -/
def hopFails (s : State) (b dest : Nat) : Option Nat :=
  let e := routeEntry s b dest
  let dims := [bits e 0 5, bits e 5 5]
  if ownAddress s = some dest then (if bit e 31 && bit e 10 then none else some 2)
  else if !bit e 31 || bit e 10 then some 2
  else if dims.any (fun d => (linksOf s d).any (fun h => linkUp s h)) then none else some 2

/-- SPR_RT_CHECK (R278): every destination is checked. `beyond` is what the routes meet at other devices, as those
devices answer: each failing destination with its code, 2 to 4. -/
def rtCheck (s : State) (src : Src) (beyond : List (Nat × Nat)) : State :=
  let o := SPR_RT_CTRL
  let v := rd s o
  let b := bits v 0 2
  let s1 := logAccepted s src 0 o (setBits v 4 1 1)
  let codeAt (d : Nat) : Option Nat := match hopFails s b d with
    | some c => some c
    | none => lowestCode ((beyond.filter (fun e => e.1 == d)).map (·.2))
  match (List.range (2 ^ bits (rd s SPR_TOPO) 4 5)).find? (fun d => (codeAt d).isSome) with
  | some d => logUnit (setReg s1 o (setBits v (8 + b) 1 0)) 0x010F 0 [b, d, (codeAt d).getD 2]
  | none => setReg s1 o (setBits v (8 + b) 1 1)
where
  /-- The least of some codes. -/
  lowestCode (l : List Nat) : Option Nat := l.foldl (fun a n => match a with
    | none => some n
    | some m => some (min m n)) none

/-- SPR_RT_CHECK (R278). -/
def execSprRtCheck (src : Src) (beyond : List (Nat × Nat)) (s : State) : Host.Outcome State Fault Refusal :=
  if !isReady s then .next (emit s (.unsupported src)) else .next (rtCheck s src beyond)

/-- SPR_RT_DATA_ACCESS (R278, R296): the entry of bank RT_SEL at RT_INDEX is read or written, and RT_INDEX advances. A
write to a bank that some context names is discarded and recorded. -/
def rtAccess (s : State) (src : Src) (write : Bool) (v : Nat) : State :=
  let b := bits (rd s SPR_RT_CTRL) 0 2
  let n := bits (rd s SPR_RT_INDEX) 0 16
  let s1 := setReg s SPR_RT_INDEX ((n + 1) % 65536)
  if !write then emit s1 (.readData src (routeEntry s b n) 4 false)
  else if bankNamed s b then logDiscard (logUnit s1 0x010F 0 [b, n, 1]) src SPR_RT_DATA 4 8
  else
    let w := bits v 0 11 + 2 ^ 31 * bits v 31 1
    let s2 := if routeEntry s b n = w then s1 else logAccepted s1 src 0 SPR_RT_DATA w
    s2.withSprues { s2.sprues with banks := spPut s2.sprues.banks (65536 * b + n) (BitVec.ofNat 32 w) 0#32 }

/-- SPR_RT_DATA_ACCESS (R296). -/
def execSprRtDataAccess (src : Src) (write : Bool) (v : Word) (s : State) : Host.Outcome State Fault Refusal :=
  if !isReady s then .next (emit s (.unsupported src)) else .next (rtAccess s src write v.toNat)

/-- SPR_TAKEOVER (R283): the flask's spare serves a failed device's address. -/
def takeover (s : State) (src : Src) (v : Nat) : State :=
  let n := v % 16
  let old := rd s SPR_TAKEOVER
  let s1 := if old = n then s else logAccepted (setReg s SPR_TAKEOVER n) src 0 SPR_TAKEOVER n
  let s2 := if bit n 3 ∧ old ≠ n then
      logUnit s1 0x010B 0 [selfFlask s, bits n 0 3, selfFlask s * 8 + bits n 0 3]
    else s1
  reroute s2 noLink

/-- SPR_TAKEOVER (R283). -/
def execSprTakeover (src : Src) (v : Word) (s : State) : Host.Outcome State Fault Refusal :=
  if !isReady s then .next (emit s (.unsupported src)) else .next (takeover s src v.toNat)

end Sys2Proof.Machine
end

