-- ==== Sys2Proof/Machine/Integrity.lean ====
section
/-! DEFINITION. Fettle tests, taint, verify mode, cope/drag records and choices (chapter 10). -/
namespace Sys2Proof.Machine
open Reg

/-- REFCLK ticks in a second. -/
def ticksPerSecond : Nat := 100000000
/-- The state of a physical crucible in the fettle schedule: 0 IN_SERVICE, 1 DUE, 2 MOVING, 3 TESTING, 4 OVERDUE,
5 FAILED (Table 10.7). -/
def ftlState (s : State) (p : Nat) : Nat := spGet s.integ.ftl p 0
/-- The state with a crucible's fettle state changed. -/
def setFtl (s : State) (p n : Nat) : State := s.withInteg { s.integ with ftl := spPut s.integ.ftl p n 0 }
/-- The tick of a crucible's last pass. -/
def ftlLast (s : State) (p : Nat) : Nat := rd64 s (CUP_FTL_LAST_LO p)
/-- The risk score of a part (R453). -/
def riskScore (s : State) (u : Nat) : Nat := bits (rd s (CUP_RISK_SCORE u)) 0 8
/-- The tick at which a crucible is due (R372, R455). -/
def ftlDue (s : State) (p : Nat) : Nat :=
  let period := rd s CUP_FTL_PERIOD
  ftlLast s p + ticksPerSecond *
    (if (carriedBy s p).isSome then max 600 (period * (256 - riskScore s p) / 256) else period)
/-- The tick of a crucible's deadline (R372). -/
def ftlDeadline (s : State) (p : Nat) : Nat := ftlLast s p + ticksPerSecond * rd s CUP_FTL_DEADLINE

/-- Begins the test of a physical crucible (R369). -/
def beginTest (s : State) (p : Nat) : State :=
  setFtl (setCru s p { cruOf s p with testing := some (tickNow s), resident := none, switching := none }) p 3

/-- The due crucible of a casting that a free spare serves next (R375): the earliest due time, then the lower index. -/
def nextDue (s : State) (k : Nat) : Option Nat :=
  ((castingPhys k).filter (fun p => ftlState s p == 1 && (carriedBy s p).isSome &&
    decide (spGet s.integ.retryAt p 0 ≤ tickNow s))).foldl
    (fun (b : Option Nat) p => match b with
      | none => some p
      | some q => if ftlDue s p < ftlDue s q then some p else some q) none

/-- Free spares of a casting that no pending fettle move counts on. -/
def sparesLeft (s : State) (k : Nat) : Nat :=
  (castingPhys k).countP (isFreeSpare s) - s.tnd.moves.countP (fun m => m.logical / 64 == k && m.endAt.isNone)

/-- Orders moves of due crucibles while free spares are left (R373, R375). -/
def orderDue : Nat → State → Nat → State
  | 0, s, _ => s
  | f + 1, s, k =>
    if sparesLeft s k = 0 then s else
    match nextDue s k with
    | none => s
    | some p => match carriedBy s p with
      | none => s
      | some c => orderDue f (orderMove (setFtl s p 2) c true) k

/-- Orders the fettle moves of a casting. -/
def fettleOrder (s : State) (k : Nat) : State := orderDue 66 s k

/-- FETTLE_DUE (R372, R373, R455): a crucible that carries no load is tested at once; another waits for a spare. -/
def execFettleDue (p : Nat) (s : State) : Host.Outcome State Fault Refusal :=
  if s.mode != .ready || 264 ≤ p || ftlState s p != 0 || decide (tickNow s < ftlDue s p) then .next s
  else if (carriedBy s p).isNone then .next (beginTest s p)
  else .next (fettleOrder (setFtl s p 1) (physCasting p))

/-- The ticks for which the resident context's command, or keep chain, has lasted on a logical crucible (R125). -/
def commandAge (s : State) (c : Nat) : Nat :=
  match residentOn s c with
  | none => 0
  | some x => ((List.range 8).map (fun q => match (qOf s (qKey c x q)).cmdStart with
    | some t => tickNow s - t
    | none => 0)).foldl max 0

/-- FETTLE_DEFER (R373): the resident command's duration reaches 200 ms before the move has begun, and the order is
withdrawn; a deadline's order never is (R376). -/
def execFettleDefer (p : Nat) (s : State) : Host.Outcome State Fault Refusal :=
  match carriedBy s p with
  | none => .next s
  | some c =>
    if ftlState s p ≠ 2 ∨ commandAge s c < 20000000 ∨
        ¬ s.tnd.moves.any (fun m => m.logical == c && m.endAt.isNone && m.fettle) then .next s
    else
      let retry := tickNow s + ticksPerSecond * rd s CUP_FTL_RETRY
      let s1 := s.withTnd { s.tnd with moves := s.tnd.moves.filter (fun m => m.logical != c) }
      let s2 := s1.withInteg { s1.integ with
        ftl := spPut s1.integ.ftl p 1 0
        defers := spPut s1.integ.defers p (spGet s1.integ.defers p 0 + 1) 0
        retryAt := spPut s1.integ.retryAt p retry 0 }
      .next (logUnit (riskAdd (cntAdd s2 CUP_FTL_DEFER_CNT_LO 1) p 65536) 0x0612 (16 + c)
        ([p, commandAge s c] ++ datum64 retry))

/-- FETTLE_RETRY (R373): RETRY seconds after a withdrawal the move is ordered again. -/
def execFettleRetry (p : Nat) (s : State) : Host.Outcome State Fault Refusal :=
  if ftlState s p = 1 ∧ spGet s.integ.retryAt p 0 ≤ tickNow s then .next (fettleOrder s (physCasting p)) else .next s

/-- FETTLE_DEADLINE (R376, R377): with a free spare the move is ordered without withdrawal; with none the crucible is
tested in place at the next pre-emptible boundary of its resident context. -/
def execFettleDeadline (p : Nat) (s : State) : Host.Outcome State Fault Refusal :=
  match carriedBy s p with
  | none => .next s
  | some c =>
    if s.mode != .ready || decide (tickNow s < ftlDeadline s p) || ftlState s p == 3 || ftlState s p == 5 then .next s
    else
      match s.tnd.moves.any (fun m => m.logical == c && m.endAt.isSome), freeSpare s c with
      | true, _ => .next s
      | false, some t =>
        if ftlState s p = 4 then .next (arbitrate s c) else
        let s1 := logUnit (setFtl s p 4) 0x0613 (16 + c) [p, t]
        if s.tnd.moves.any (fun m => m.logical == c) then
          .next (arbitrate (s1.withTnd { s1.tnd with moves := s1.tnd.moves.map (fun m =>
            if m.logical = c then { m with fettle := false } else m) }) c)
        else .next (orderMove s1 c false)
      | false, none =>
        if !canSwitch s c then .next (setFtl s p 4) else
        let x := residentOn s c
        let s1 := match x with
          | some y => saveQueues s c y
          | none => s
        let s2 := beginTest (cntAdd s1 CUP_FTL_INPLACE_CNT_LO 1) p
        .next (s2.withInteg { s2.integ with inPlace := spIns (spDel s2.integ.inPlace p) p (x, tickNow s) })

/-- The scratchpad after phase 5 of a test (Table 10.2): zero, with tags "none". -/
def clearSpad (s : State) (p : Nat) : State :=
  { s.withSpad (s.spad.filter (fun e => e.1 / 2 ^ 22 != p)) with tags := s.tags.filter (fun e => e.1 / 2 ^ 15 != p) }

/-- Takes a logical crucible that is unavailable since a failed test to a spare that has become free (R371, R378). -/
def serveUnavailable (s : State) (k : Nat) : State :=
  ((List.range 64).map (fun i => 64 * k + i)).foldl (fun st c =>
    if available st c then st else arbitrate st c) s

/-- FETTLE_TEST_END (R369, R375, R377, R378): `pass` tells whether every signature matched; a failure names its phase and
its first failing signature. -/
def execFettleTestEnd (p : Nat) (pass : Bool) (phase signature : Nat) (s : State) : Host.Outcome State Fault Refusal :=
  match (cruOf s p).testing with
  | none => .next s
  | some t =>
    if tickNow s < t + 150000 then .next s else
    let k := physCasting p
    let c := carriedBy s p
    let inPlace := (s.integ.inPlace.find? (fun e => e.1 == p)).map (·.2)
    let s1 := clearSpad (cntAdd (setCru s p { cruOf s p with testing := none }) CUP_FTL_RUN_CNT_LO 1) p
    let s2 := s1.withInteg { s1.integ with inPlace := spDel s1.integ.inPlace p }
    let s3 := match inPlace, c with
      | some (x, since), some l =>
        logUnit s2 0x0614 (16 + l) [p, x.getD 0, tickNow s - since]
      | _, _ => s2
    if pass then
      let s4 := logUnit s3 0x0610 (16 + c.getD 0) [p, c.getD 0x1FF, spGet s3.integ.defers p 0]
      let s5 := setReg64 (s4.withInteg { s4.integ with
        ftl := spPut s4.integ.ftl p 0 0
        defers := spPut s4.integ.defers p 0 0
        retryAt := spPut s4.integ.retryAt p 0 0
        carried := spPut s4.integ.carried p 0 0 }) (CUP_FTL_LAST_LO p) (tickNow s)
      let s6 := match inPlace, c with
        | some (x, _), some l => if x.isSome then beginSwitch s5 l x 0 else s5
        | _, _ => s5
      .next (fettleOrder (serveUnavailable s6 k) k)
    else
      let s4 := logUnit s3 0x0611 (16 + c.getD 0) ([p, phase] ++ datum64 signature ++ datum64 (ftlLast s p))
      let s5 := satAdd (cntAdd (setFtl s4 p 5) CUP_FTL_FAIL_CNT_LO 1) (CUP_FTL_FAILS p) 1
      let s6 := riskAdd s5 p (65536 * 255)
      let s7 := if spGet s6.integ.carried p 0 = 1 then taint s6 4 0 p else s6
      match c with
      | none => .next s7
      | some l =>
        let s8 := { s7 with physMap := spPut s7.physMap l 0x1FF l }
        .next (orderMove s8 l false)

/-- CUP_INT_CTRL_VERIFY (R380): verify mode is set or cleared. -/
def setVerify (s : State) (src : Src) (on_ : Bool) (note : Bool := true) : State :=
  let v := setBits (rd s CUP_INT_CTRL) 0 1 (b2n on_)
  if rd s CUP_INT_CTRL = v then s else logAccIf note (setReg s CUP_INT_CTRL v) src CUP_INT_CTRL v

/-- CUP_INT_CTRL_VERIFY (R380). -/
def execCupIntCtrlVerify (src : Src) (on_ : Bool) (s : State) : Host.Outcome State Fault Refusal :=
  if !isReady s then .next (emit s (.unsupported src)) else .next (setVerify s src on_)

/-- The choice counters and DET_BROKEN cleared (R390, Table 10.7). -/
def zeroChoices (s : State) : State :=
  let s1 := (List.range 6).foldl (fun st k => setReg st (CUP_CHOICE_KIND_CNT k) 0) (setReg64 s CUP_CHOICE_CNT_LO 0)
  let s2 := setReg (setReg s1 CUP_CHOICE_FIRST 0) CUP_CHOICE_FIRST_STEP 0
  s2.withInteg { s2.integ with detBroken := false }

/-- CLR_CHOICE (R390). -/
def clearChoice (s : State) (src : Src) (note : Bool := true) : State :=
  zeroChoices (logAccIf note s src CUP_INT_CTRL (setBits (rd s CUP_INT_CTRL) 1 1 1))

/-- CLR_CHOICE (R390). -/
def execClrChoice (src : Src) (s : State) : Host.Outcome State Fault Refusal :=
  if !isReady s then .next (emit s (.unsupported src)) else .next (clearChoice s src)

/-- CUP_INT_TAINT_CLEAR (R368): a W1C write clears causes, and event 0x0603 records them. -/
def taintClear (s : State) (src : Src) (v : Nat) : State :=
  let old := rd s CUP_INT_TAINT
  let gone := old &&& v % 64
  if gone = 0 then s else
  let s1 := logAccepted (setReg s CUP_INT_TAINT (old - gone)) src 0 CUP_INT_TAINT (old - gone)
  logUnit s1 0x0603 0 [gone, srcDatum src]

/-- CUP_INT_TAINT_CLEAR (R368). -/
def execCupIntTaintClear (src : Src) (v : Word) (s : State) : Host.Outcome State Fault Refusal :=
  if !isReady s then .next (emit s (.unsupported src)) else .next (taintClear s src v.toNat)

/-- DIGEST_RECORD (R389): a record of the partner arrives and is matched by its key. -/
def execDigestRecord (key digest : Nat) (s : State) : Host.Outcome State Fault Refusal :=
  if s.integ.cope = 0 ∨ s.integ.cope = 4 then .next s else
  .next (matchDigest (s.withInteg { s.integ with theirs := s.integ.theirs ++ [(key, digest, tickNow s)] }) key)

/-- COPE_UNMATCHED_TIMEOUT (R389): a record unmatched for 1 s stops the pair. -/
def execCopeUnmatchedTimeout (s : State) : Host.Outcome State Fault Refusal :=
  let all := s.integ.mine ++ s.integ.theirs
  let oldest := all.foldl (fun (b : Option (Nat × Nat × Nat)) e => match b with
    | none => some e
    | some f => if e.2.2 < f.2.2 then some e else some f) none
  match oldest with
  | none => .next s
  | some e =>
    if s.integ.cope ≠ 1 ∨ tickNow s < e.2.2 + ticksPerSecond then .next s else
    .next (logUnit (s.withInteg { s.integ with cope := 3 }) 0x0631 0 (datum64 e.1))

end Sys2Proof.Machine
end

