-- ==== Sys2Proof/Machine/Ingot.lean ====
section
/-! DEFINITION. The ingot: its configuration, cuts, the drain to the buddy, restore and load (R397 to R415). -/
namespace Sys2Proof.Machine
open Reg

/-- Whether a context is masked (R397). -/
def masked (s : State) (x : Nat) : Bool := bit (rd s CUP_ING_CTXMASK) x
/-- KIND of an ingot range (Table 11.1). -/
def rngKind (s : State) (r : Nat) : Nat := bits (rd s (CUP_ING_RNG_KIND r)) 0 2
/-- A range as byte addresses [BASE, LIMIT). -/
def rngSpan (s : State) (r : Nat) : Nat × Nat := (65536 * rd s (CUP_ING_RNG_BASE r), 65536 * rd s (CUP_ING_RNG_LIMIT r))
/-- The ranges that are not off. -/
def liveRanges (s : State) : List Nat := (List.range 64).filter (fun r => rngKind s r != 0)
/-- The pages of the ranges of some kinds, in range and page order, by address. -/
def rngPages (s : State) (kinds : List Nat) : List Nat :=
  ((List.range 64).filter (fun r => kinds.contains (rngKind s r))).flatMap (fun r =>
    (List.range (rd s (CUP_ING_RNG_LIMIT r) - rd s (CUP_ING_RNG_BASE r))).map (fun i => (rd s (CUP_ING_RNG_BASE r) + i) * 65536))
/-- The number of pages of PRIVATE and REPLICATED ranges (R398). -/
def pageCount (s : State) : Nat := ingPagesBelow s 64

/-- Whether a byte range lies wholly inside one tier: near or the far tier's general part. -/
def spanInTier (a b : Nat) : Bool :=
  decide (a < b) && (decide (b ≤ 0x8000000000) || (decide (0x20000000000 ≤ a) && decide (b ≤ 0x40000000000)))
/-- Whether two byte ranges meet. -/
def spansMeet (p q : Nat × Nat) : Bool := decide (p.1 < q.2) && decide (q.1 < p.2) && decide (p.1 < p.2) && decide (q.1 < q.2)
/-- The store, the map and the buddy store. -/
def storeSpan (s : State) : Nat × Nat :=
  (rd64 s CUP_ING_STORE_BASE_LO, rd64 s CUP_ING_STORE_BASE_LO + 65536 * rd s CUP_ING_STORE_SLOTS)
/-- The map: 16 bytes a page. -/
def mapSpan (s : State) : Nat × Nat := (rd64 s CUP_ING_MAP_BASE_LO, rd64 s CUP_ING_MAP_BASE_LO + 16 * pageCount s)
/-- The buddy store. -/
def bstoreSpan (s : State) : Nat × Nat :=
  (rd64 s CUP_ING_BSTORE_BASE_LO, rd64 s CUP_ING_BSTORE_BASE_LO + 65536 * rd s CUP_ING_BSTORE_SLOTS)
/-- Whether a byte range is covered by PRIVATE ranges. -/
def inPrivate (s : State) (a n : Nat) : Bool :=
  n == 0 || (List.range ((a + n - 1) / 65536 - a / 65536 + 1)).all (fun i => (List.range 64).any (fun r =>
    rngKind s r == 1 && decide (rd s (CUP_ING_RNG_BASE r) ≤ a / 65536 + i) && decide (a / 65536 + i < rd s (CUP_ING_RNG_LIMIT r))))

/-- The first condition of R398 that holds, by its place in the list. Range addresses are in units of 64 KiB, so that no
range can be misaligned. -/
def ingFails (s : State) : Option Nat :=
  let rs := liveRanges s
  let spans := rs.map (rngSpan s)
  let own := [(0x3FFF0000000, 0x40000000000), storeSpan s, mapSpan s, bstoreSpan s]
  let n := pageCount s
  let b := rd s CUP_ING_BUDDY
  let st := rd s CUP_ING_STRIPE
  let w := winBytes s
  if !spans.all (fun p => spanInTier p.1 p.2) ||
      rs.any (fun r => rs.any (fun q => decide (q < r) && spansMeet (rngSpan s q) (rngSpan s r))) then some 1
  else if spans.any (fun p => own.any (spansMeet p)) then some 2
  else if rd s CUP_ING_STORE_SLOTS < n + imageSlots then some 3
  else if rd64 s CUP_ING_MAP_BASE_LO % 64 ≠ 0 ∨ 0x8000000000 < (mapSpan s).2 then some 4
  else if bit b 16 ∧ bits b 3 13 = selfFlask s then some 5
  else if bits st 16 16 + 1 ≤ bits st 0 16 then some 6
  else if bits (rd s FLK_CTRL) 0 2 ≠ 0 ∧ !(inPrivate s (rd64 s FLK_WIN_BACK_LO) w && inPrivate s (rd64 s FLK_DIR_BASE_LO) (w / 32) &&
      inPrivate s (rd64 s FLK_CACHE_BASE_LO) (cacheLines s * 128)) then some 7
  else none

/-- The state with every map half cleared and every store slot free. -/
def clearMap (s : State) : State :=
  let a := rd64 s CUP_ING_MAP_BASE_LO
  let s1 := s.withMem (s.mem.filter (fun e => !(decide (a ≤ e.1) && decide (e.1 < a + 16 * pageCount s))))
  s1.withIngot { s1.ingot with used := [] }

/-- CUP_ING_CTRL's bits that stay: ENABLE, AUTO and SLICE (Table 11.6). -/
def ingCtrlBits (v : Nat) : Nat := bits v 0 2 + bits v 8 4 * 256

/-- A write of CUP_ING_CTRL without its self-clearing bits (R398): ENABLE going to 1 checks the configuration; the map
starts empty. ENABLE going to 0 turns the ingot off, with its pending cut and its drain. -/
def ingEnable (s : State) (src : Src) (v : Nat) (note : Bool := true) : State :=
  let n := ingCtrlBits v
  let old := rd s CUP_ING_CTRL
  let put (st : State) (m : Nat) : State := if old = m then st else logAccIf note (setReg st CUP_ING_CTRL m) src CUP_ING_CTRL m
  let acc (st : State) : State := put st n
  if bit n 0 && !bit old 0 then
    match ingFails s with
    | some c => logCup (put s (n - 1)) 0x070F [c]
    | none =>
      let s1 := clearMap (acc s)
      s1.withIngot { s1.ingot with images := [], caches := [], want := none, drain := none, failed := false }
  else if !bit n 0 && bit old 0 then
    let s1 := acc s
    s1.withIngot { s1.ingot with want := none, drain := none, chilled := [] }
  else acc s

/-- CUP_ING_ENABLE (R398). -/
def execCupIngEnable (src : Src) (v : Word) (s : State) : Host.Outcome State Fault Refusal :=
  if !isReady s then .next (emit s (.unsupported src)) else .next (ingEnable s src v.toNat)

/-- A write of CUT (R403): a migration cut. -/
def cutWrite (s : State) (src : Src) (note : Bool := true) : State :=
  requestCut (logAccIf note s src CUP_ING_CTRL (setBits (rd s CUP_ING_CTRL) 2 1 1)) 2 0

/-- CUT (R403). -/
def execCut (src : Src) (s : State) : Host.Outcome State Fault Refusal :=
  if !isReady s then .next (emit s (.unsupported src)) else .next (cutWrite s src)

/-- A write of ABANDON (R403): a pending request is withdrawn. -/
def abandonWrite (s : State) (src : Src) (note : Bool := true) : State :=
  let s1 := logAccIf note s src CUP_ING_CTRL (setBits (rd s CUP_ING_CTRL) 5 1 1)
  if s.ingot.want.isNone then s1 else logCup (s1.withIngot { s1.ingot with want := none }) 0x0702 [3]

/-- ABANDON (R403). -/
def execAbandon (src : Src) (s : State) : Host.Outcome State Fault Refusal :=
  if !isReady s then .next (emit s (.unsupported src)) else .next (abandonWrite s src)

/-- A wait that begins a command and is unsatisfied: the one kind of accepted item that a cut allows (R404). -/
def cutAllows (s : State) (k : Nat) (i : Item) : Bool :=
  isWait i && i.first &&
  (if i.op = 0x61 then decide (rd s (CRU_SEM (qCru k) (qCtx k) (bits (i.w 1) 0 6)) < i.w 2)
   else decide (rd s (TND_SSEM_VAL (bits (i.w 1) 0 10)) < i.w 2))

/-- Open home and requester transactions (Table 9.5). -/
def flkOpen (s : State) : Nat :=
  s.flask.home.length + s.flask.queued.length + s.flask.wbs.length +
  s.ladle.reqs.countP (fun r => decide (10 ≤ r.kind ∧ r.kind < 19) && r.kind != 15 && r.issued.isSome && r.answer.isNone)

/-- Whether a request of a masked context to another device's memory is out (R404). -/
def maskedRemote (s : State) : Bool := s.ladle.reqs.any (fun r =>
  decide (r.kind < 4) && r.issued.isSome && r.answer.isNone && masked s (qCtx r.queue))

/-- Whether a group is owned by a masked context. -/
def maskedGroup (s : State) (g : Nat) : Bool := bit (rd s (ALY_GRP_CTRL g)) 0 && masked s (bits (rd s (ALY_GRP_CTRL g)) 4 4)

/-- Whether the conditions of R404 hold; `peers` are the flask's working devices with WIN_EN or CACHE_EN set, by position
(R406). -/
def cutReady (s : State) (kind : Nat) (peers : List Nat) : Bool :=
  !s.queues.any (fun e => e.2.items.any (fun i => i.op == 0x40 && (i.lop == 8 || i.lop == 9))) &&
  (rd s CUP_ING_EPOCH == 0 || !unsealed s) &&
  s.queues.all (fun e => !masked s (qCtx e.1) || (e.2.items.all (cutAllows s e.1) && e.2.held.isEmpty)) &&
  (List.range 256).all (fun g => !maskedGroup s g || grpIdle s g) &&
  !maskedRemote s && flkOpen s == 0 &&
  (bits (rd s FLK_CTRL) 0 2 == 0 || (peers.filter (· != ownPos s)).all (fun p => s.ingot.chilled.contains p)) &&
  (kind != 2 || (List.range 16).all (fun x => !masked s x || ctxState s x == 0 || ctxState s x == 3))

/-- The shared semaphores that the image holds (Table 11.2). -/
def imageSems (s : State) : List Nat := (List.range 1024).filter (fun i =>
  let v := rd s (TND_SSEM_CTRL i)
  bit v 12 && (List.range 16).any (fun x => masked s x && sliceTag s x == bits v 8 4))

/-- The registers that the image holds one by one (Table 11.2). -/
def imageRegs (s : State) : List Nat :=
  ((List.range 16).filter (masked s)).flatMap (fun x =>
    [TND_CTX_CTRL x, TND_CTX_SEED_LO x, TND_CTX_SEED_LO x + 4, SPR_CTX_PHASE x] ++
    (List.range 8).map (TND_CTX_CSET x) ++
    (List.range 4).map (fun n => LDL_SLAG_BASE_LO x + 4 * n) ++
    (List.range 12).map (fun n => LDL_KV_PT_BASE_LO x + 4 * n) ++
    (List.range 32).map (fun n => LDL_RNG_BASE x 0 + 4 * n)) ++
  (imageSems s).flatMap (fun i => [TND_SSEM_VAL i, TND_SSEM_CTRL i]) ++
  [LDL_SWP_CTRL, LDL_SWP_SCALE, LDL_SWP_SCALE_MAX, LDL_SWP_INTERVAL, LDL_SWP_CLEAN, LDL_SWP_SPK_CTRL, LDL_SWP_SPK_K,
   LDL_SWP_SPK_E, LDL_SWP_SPK_D, LDL_SWP_SPK_SEEN] ++
  ((List.range 256).filter (maskedGroup s)).flatMap (fun g => (List.range 16).map (fun n => ALY_GRP_CTRL g + 4 * n)) ++
  [CUP_ASSAY_CTRL, CUP_ASSAY_NEXT, CUP_ASSAY_LAST_LO, CUP_ASSAY_LAST_LO + 4, CUP_ASSAY_STEP, CUP_ASSAY_STAT]

/-- Whether an offset is a queue set's register or a crucible semaphore of a masked context (Table 11.2). -/
def inCruImage (s : State) (off : Nat) : Bool :=
  let r := off % 0x10000
  decide (0x1000000 ≤ off ∧ off < 0x2000000) &&
  ((decide (0x1000 ≤ r ∧ r < 0x3000) && masked s ((r - 0x1000) / 0x200)) ||
   (decide (0x4000 ≤ r ∧ r < 0x5000) && masked s ((r - 0x4000) / 0x100)))

/-- The queue as a cut captures it: its unsatisfied wait is not yet accepted (R404). -/
def cutQueue (s : State) (k : Nat) : State :=
  let q := qOf s k
  match q.items with
  | i :: _ => setQ (setReg s (qReg k 0x14) i.index) k { q with items := [], openCmd := false, bndIn := false }
  | [] => s

/-- The flags of a queue that the image holds. -/
def queueFlags (q : QState) : Nat :=
  b2n q.halted + 2 * b2n q.openCmd + 4 * b2n q.bndIn + 8 * b2n q.poisonedHead + 16 * b2n q.refBnd
/-- The queue that an image's flags give; its boundary counts as crossed. -/
def flagsQueue (n : Nat) : QState :=
  { QState.init with halted := bit n 0, openCmd := bit n 1, bndIn := bit n 2, poisonedHead := bit n 3, refBnd := bit n 4,
                     crossed := true }

/-- The register image of the masked contexts (R399, Table 11.2). -/
def captureImage (s : State) : List (Nat × Nat) :=
  let ks := (s.queues.map (·.1)).filter (fun k => masked s (qCtx k))
  let t := ks.foldl cutQueue s
  ((t.regs.filter (fun e => inCruImage s e.1)).map (fun e => (e.1, e.2.toNat))) ++
  ((imageRegs s).map (fun o => (o, rd s o))) ++
  (ks.map (fun k => (2 ^ 28 + k, queueFlags (qOf t k)))) ++
  (((List.range 256).filter (maskedGroup s)).map (fun g => (2 ^ 29 + g, (grpAt s g).seq)))

/-- The image of the newest epoch in 64 KiB pages, by the store slots reserved for it: at most 128 slots. How the registers
are laid out in it is not stated (R399, log entry 57). -/
def imagePages (s : State) (e : Nat) : List (Nat × List Byte) :=
  let im := spGet s.ingot.images e []
  (List.range (1 + Config.imageSize im % 128)).map (fun n =>
    (storeAddr s (e % 2 * 128 + n), (List.range 65536).map (fun i => Config.imageByte im (65536 * n + i))))

/-- A page as it stood at the cut of an epoch: its copy of that epoch, else the live page (R410). -/
def pageAt (s : State) (e a : Nat) : List Byte :=
  match ingPageOf s a with
  | none => bytesAt s.mem a 65536
  | some pg =>
    let is (n : Nat) : Bool := halfValid (mapHalf s pg n) && halfEpoch (mapHalf s pg n) == e % 65536
    if is 0 then bytesAt s.mem (storeAddr s (halfSlot (mapHalf s pg 0))) 65536
    else if is 1 then bytesAt s.mem (storeAddr s (halfSlot (mapHalf s pg 1))) 65536
    else bytesAt s.mem a 65536

/-- The REPLICATED pages of the device's own stripe (R409). -/
def stripePages (s : State) : List Nat :=
  let st := rd s CUP_ING_STRIPE
  ((rngPages s [2]).zipIdx.filter (fun e => e.2 % (bits st 16 16 + 1) == bits st 0 16)).map (·.1)

/-- The digest of a page under its address (R411). -/
def pageDigest (a : Nat) (bs : List Byte) : Nat :=
  tileDigest a ((List.range 16384).map (fun i => leNat ((bs.drop (4 * i)).take 4)))

/-- The slice and phase bank of drain traffic (R408, Table 11.6). -/
def drainSlice (s : State) : Nat := bits (rd s CUP_ING_CTRL) 8 4
/-- The phase bank of the sweep's owner. -/
def drainBank (s : State) : Nat := phaseOf s (sweepOwner s)

/-- Drains the newest cut (R408 to R411): the image, the PRIVATE pages, the stripe, each in order, then the seal record.
Without a buddy the drain fails, and starts again 1 s later. -/
def startDrain (s : State) : State :=
  let e := rd s CUP_ING_EPOCH
  let b := rd s CUP_ING_BUDDY
  if !bit b 16 then
    logCup (s.withIngot { s.ingot with drain := some (e, 0, tickNow s, 0, some (tickNow s + ticksPerSecond)) }) 0x0704 [e, 2, 0]
  else
    let pages := imagePages s e ++ ((rngPages s [1] ++ stripePages s).map (fun a => (a, pageAt s e a)))
    let s1 := pages.zipIdx.foldl (fun st p =>
      sendMsg st "DRAIN_PACKET" (bits b 0 16) ([e, p.2] ++ datum64 p.1.1 ++ p.1.2.map (·.toNat)) 3 (drainSlice s) (drainBank s)
        0 p.1.2.length) s
    let d := (pages.map (fun p => pageDigest p.1 p.2)).sum % 2 ^ 64
    let s2 := sendMsg s1 "SEAL_RECORD" (bits b 0 16) ([e, rd s CUP_ING_CUT_STEP, pages.length] ++ datum64 d) 3 (drainSlice s)
      (drainBank s) 0 24
    cntAdd (s2.withIngot { s2.ingot with drain := some (e, pages.length, tickNow s, d, none) }) CUP_ING_DRAIN_CNT_LO pages.length

/-- Takes a cut (R405): the epoch advances, the image is captured, and the drain starts. -/
def takeCut (s : State) (kind step since : Nat) : State :=
  let e := rd s CUP_ING_EPOCH + 1
  let s1 := setReg64 (setReg s CUP_ING_EPOCH e) CUP_ING_CUTTIME_LO (tickNow s)
  let s2 := cntAdd (if kind = 1 then setReg s1 CUP_ING_CUT_STEP step else s1) CUP_ING_CUT_CNT_LO 1
  let im := captureImage s
  let s3 := s2.withIngot { s2.ingot with
    want := none, chilled := [],
    images := spIns (spDel s2.ingot.images e) e im,
    caches := spIns (spDel s2.ingot.caches e) e s.flask.cache }
  let s4 := (imagePages s3 e).foldl (fun st p => st.withMem (putBytes st.mem p.1 p.2)) s3
  startDrain (logCup s4 0x0701 [e, rd s4 CUP_ING_CUT_STEP, kind, tickNow s - since])

/-- CUT_TAKE (R404 to R407): `peers` are the working devices of the flask with WIN_EN or CACHE_EN set, by position. -/
def execCutTake (peers : List Nat) (s : State) : Host.Outcome State Fault Refusal :=
  match s.ingot.want with
  | none => .next s
  | some (kind, step, since) => if cutReady s kind peers then .next (takeCut s kind step since) else .next s

/-- CHILL_ANNOUNCE (R406): a flask peer has announced its cut. -/
def execChillAnnounce (pos : Nat) (s : State) : Host.Outcome State Fault Refusal :=
  if s.mode != .ready then .next (dropArrival s) else
  if s.ingot.chilled.contains pos then .next s
  else .next (s.withIngot { s.ingot with chilled := s.ingot.chilled ++ [pos] })

/-- Whether a device is the ward (R408). -/
def isWard (s : State) (src : Nat) : Bool := bit (rd s CUP_ING_WARD) 16 && bits (rd s CUP_ING_WARD) 0 16 == src
/-- The slots of one half of the buddy store (R411). -/
def halfSlots (s : State) : Nat := rd s CUP_ING_BSTORE_SLOTS / 2

/-- DRAIN_PACKET (R408, R411): page `n` of the ward's drain is written into the half that does not hold its newest sealed
copy, and its digest is added. The first packet begins the drain anew. -/
def execDrainPacket (src epoch n addr : Nat) (data : List Byte) (s : State) : Host.Outcome State Fault Refusal :=
  if s.mode != .ready then .next (dropArrival s) else
  if !isWard s src then .next (logCup s 0x0706 [src, 4]) else
  let g := if n = 0 then 0 else s.ingot.wardGot
  let sum := if n = 0 then 0 else s.ingot.wardSum
  if n ≠ g then .next s else
  let a := rd64 s CUP_ING_BSTORE_BASE_LO + 65536 * ((1 - s.ingot.wardHalf) * halfSlots s + n)
  let s1 := if n < halfSlots s then s.withMem (putBytes s.mem a (data.take 65536)) else s
  let s2 := s1.withIngot { s1.ingot with wardGot := g + 1, wardSum := (sum + pageDigest addr data) % 2 ^ 64 }
  .next (sendMsg s2 "ACK" src [epoch, n] 1 (drainSlice s) 0 0 0)

/-- SEAL_RECORD (R411): the buddy compares its digest, and seals the half or refuses it. -/
def execSealRecord (src epoch _step pages digest : Nat) (s : State) : Host.Outcome State Fault Refusal :=
  if s.mode != .ready then .next (dropArrival s) else
  if !isWard s src then .next (logCup s 0x0706 [src, 4]) else
  let answer (st : State) (r : Nat) : State := sendMsg st "SEALED" src [epoch, r] 1 (drainSlice s) 0 0 0
  let clear (st : State) : State := st.withIngot { st.ingot with wardGot := 0, wardSum := 0 }
  if halfSlots s < pages then .next (answer (logCup (clear s) 0x0706 [src, 3]) 3)
  else if s.ingot.wardGot ≠ pages ∨ s.ingot.wardSum ≠ digest then .next (answer (logCup (clear s) 0x0706 [src, 1]) 1)
  else
    let s1 := clear (setReg s CUP_ING_WARD_SEALED epoch)
    let s2 := s1.withIngot { s1.ingot with wardHalf := 1 - s1.ingot.wardHalf }
    .next (answer (logCup s2 0x0705 [src, epoch]) 0)

/-- Whether a copy's epoch, of 16 bits, is an epoch or later, by signed difference. -/
def epochFrom (h e : Nat) : Bool := decide ((65536 + h - e % 65536) % 65536 < 32768)

/-- Clears the map halves that a test picks, and frees their slots (R402). -/
def dropCopies (s : State) (gone : Nat → Bool) : State :=
  (List.range (2 * pageCount s)).foldl (fun st i =>
    let h := mapHalf st (i / 2) (i % 2)
    if halfValid h && gone (halfEpoch h) then
      let t := setMapHalf st (i / 2) (i % 2) 0
      t.withIngot { t.ingot with used := spPut t.ingot.used (halfSlot h) 0 0 }
    else st) s

/-- A cut is sealed (R402, R411): what earlier epochs kept is freed, and waiting writers go on. -/
def sealCut (s : State) (e : Nat) : State :=
  let s1 := dropCopies (setReg s CUP_ING_SEALED e) (fun h => !epochFrom h e)
  s1.withIngot { s1.ingot with
    drain := none, waiting := false, sweepHeld := none
    images := s1.ingot.images.filter (fun p => decide (e ≤ p.1))
    caches := s1.ingot.caches.filter (fun p => decide (e ≤ p.1)) }

/-- SEALED (R411): the buddy's answer to the seal record: 0 sealed; 1 unequal digests, 3 a half too small; 2 tells that
the buddy did not answer in time (R357). -/
def execSealed (src epoch result : Nat) (s : State) : Host.Outcome State Fault Refusal :=
  if s.mode != .ready then .next (dropArrival s) else
  match s.ingot.drain with
  | some (e, n, start, d, none) =>
    if e ≠ epoch ∨ src ≠ bits (rd s CUP_ING_BUDDY) 0 16 then .next s
    else if result = 0 then .next (logCup (sealCut s e) 0x0703 [e, n, tickNow s - start])
    else .next (logCup (s.withIngot { s.ingot with
      drain := some (e, n, start, d, some (tickNow s + ticksPerSecond)) }) 0x0704 [e, result, n])
  | _ => .next s

/-- DRAIN_RETRY (R411): 1 s after a failure the drain starts again from its first packet. -/
def execDrainRetry (s : State) : Host.Outcome State Fault Refusal :=
  match s.ingot.drain with
  | some (_, _, _, _, some t) => if tickNow s < t ∨ s.mode ≠ .ready then .next s else .next (startDrain s)
  | _ => .next s

/-- Writes +0 to the ZERO ranges (R413). -/
def zeroRanges (s : State) : State :=
  let spans := ((List.range 64).filter (fun r => rngKind s r == 3)).map (rngSpan s)
  let hit (a : Nat) : Bool := spans.any (fun p => decide (p.1 ≤ a) && decide (a < p.2))
  { s.withMem (s.mem.filter (fun e => !hit e.1)) with poison := s.poison.filter (fun e => !hit (e.1 * 64)) }

/-- Restores a register image (R413): the masked contexts' queue sets and semaphores become the image's, and so does
every register that it names. -/
def restoreImage (s : State) (im : List (Nat × Nat)) : State :=
  let s1 := s.withRegs (s.regs.filter (fun e => !inCruImage s e.1))
  let s2 := { s1 with queues := s1.queues.filter (fun e => !masked s (qCtx e.1)) }
  im.foldl (fun st e =>
    if e.1 < 2 ^ 28 then setReg st e.1 e.2
    else if e.1 < 2 ^ 29 then setQ st (e.1 - 2 ^ 28) (flagsQueue e.2)
    else setGrp st (e.1 - 2 ^ 29) { grpAt st (e.1 - 2 ^ 29) with seq := e.2 }) s2

/-- The masked contexts after a restore or load (R413): those that the image enables are STOPPED, with ENABLE and STOP
set and their credits reserved again; the others are DISABLED. -/
def restoreContexts (s : State) : State :=
  let xs := (List.range 16).filter (masked s)
  let s1 := xs.foldl (fun st x =>
    let v := rd st (TND_CTX_CTRL x)
    let t := st.withTnd { st.tnd with staged := st.tnd.staged.filter (fun e => e.1 / 8 != x), waits := st.tnd.waits.filter (fun w => w.ctx != x) }
    if bit v 0 then setCtxState (setReg t (TND_CTX_CTRL x) (setBits v 1 1 1)) x 3 else setCtxState t x 0) s
  xs.foldl (fun st x => (reserveSlice st (sliceTag st x)).1) s1

/-- What a restore and a load end with (R413): the epoch, the streams of masked contexts, verify mode, and the marks of
dead positions, which a rollback undoes (R358). -/
def endRollback (s : State) (e : Nat) : State :=
  let s1 := (s.ladle.streams.map (·.1)).foldl (fun st n => if masked st (streamAt st n).ctx then endStream st n else st) s
  setReg (setReg (setReg s1 CUP_ING_EPOCH e) FLK_DEADPOS 0) CUP_INT_CTRL (setBits (rd s1 CUP_INT_CTRL) 0 1 1)

/-- The first condition of R413 for which a restore is refused. -/
def restoreFails (s : State) (t : Nat) : Option Nat :=
  let e := rd s CUP_ING_EPOCH
  let epochOk := ingOn s && e != 0 && (t == e || (unsealed s && t + 1 == e)) && s.ingot.images.any (fun p => p.1 == t)
  if !epochOk then some 1
  else if (List.range 16).any (fun x => masked s x && !(ctxState s x == 0 || ctxState s x == 3)) then some 2
  else if (List.range 256).any (fun g => maskedGroup s g && !grpIdle s g) then some 3
  else if s.queues.any (fun q => masked s (qCtx q.1) && q.2.items.any (fun i => i.op == 0x40)) then some 4
  else none

/-- Writes back to each page the earliest of its copies saved in an epoch or later (R413); answers the pages written. -/
def writeBack (s : State) (t : Nat) : State × Nat :=
  (rngPages s [1, 2]).zipIdx.foldl (fun (st : State × Nat) p =>
    let hs := ([mapHalf st.1 p.2 0, mapHalf st.1 p.2 1]).filter (fun h => halfValid h && epochFrom (halfEpoch h) t)
    let first := hs.foldl (fun (b : Option Nat) h => match b with
      | none => some h
      | some g => if epochFrom (halfEpoch h) (halfEpoch g) then some g else some h) none
    match first with
    | none => st
    | some h => (copyPage st.1 (storeAddr st.1 (halfSlot h)) p.1, st.2 + 1)) (s, 0)

/-- A write of RESTORE (R413): the device returns to epoch T, or the restore is refused with event 0x0709. -/
def restoreWrite (s : State) (src : Src) (note : Bool := true) : State :=
  let t := rd s CUP_ING_TARGET
  let s0 := logAccIf note s src CUP_ING_CTRL (setBits (rd s CUP_ING_CTRL) 3 1 1)
  if s.ingot.busy ≠ 0 then logDiscard s src CUP_ING_CTRL 4 8
  else match restoreFails s t with
    | some c => logCup s0 0x0709 [t, c]
    | none =>
      let r := writeBack s0 t
      let s1 := zeroRanges (dropCopies r.1 (fun h => epochFrom h t))
      let s2 := endRollback (restoreImage s1 (spGet s.ingot.images t [])) t
      let s3 := s2.withFlask { s2.flask with cache := spGet s.ingot.caches t [] }
      let keep := (s.ingot.drain.filter (fun d => d.1 == t))
      restoreContexts (s3.withIngot { s3.ingot with
        busy := 4, busyAt := tickNow s, wrote := r.2, failed := false, drain := keep, want := none, waiting := false
        images := s.ingot.images.filter (fun p => decide (p.1 ≤ t))
        caches := s.ingot.caches.filter (fun p => decide (p.1 ≤ t)) })

/-- RESTORE (R413). -/
def execRestore (src : Src) (s : State) : Host.Outcome State Fault Refusal :=
  if !isReady s then .next (emit s (.unsupported src)) else .next (restoreWrite s src)

/-- RESTORE_COMPLETE (R413): event 0x0708. -/
def execRestoreComplete (s : State) : Host.Outcome State Fault Refusal :=
  if s.ingot.busy ≠ 4 then .next s else
  .next (logCup (s.withIngot { s.ingot with busy := 0 }) 0x0708
    [rd s CUP_ING_EPOCH, s.ingot.wrote, tickNow s - s.ingot.busyAt])

/-- A write of LOAD (R414, R415): the spare of a flask, with an address taken and its masked contexts DISABLED, reads
epoch T from the buddy and the source positions. -/
def loadWrite (s : State) (src : Src) (note : Bool := true) : State :=
  let t := rd s CUP_ING_TARGET
  let v := rd s CUP_ING_LOADSRC
  let ok := isSpare s && (ownAddress s).isSome && (List.range 16).all (fun x => !masked s x || ctxState s x == 0)
  if s.ingot.busy ≠ 0 then logDiscard s src CUP_ING_CTRL 4 8 else
  let s0 := logAccIf note s src CUP_ING_CTRL (setBits (rd s CUP_ING_CTRL) 4 1 1)
  if !ok then logCup (s0.withIngot { s0.ingot with failed := true }) 0x070B [t, 0, 0] else
  let s1 := s0.withIngot { s0.ingot with busy := 5, busyAt := tickNow s, failed := false }
  let ask (st : State) (d : Nat) : State := sendMsg st "LOAD_READ" d [t] 3 (drainSlice s) (drainBank s) 0 0
  let s2 := if bit v 31 then s1 else ask s1 (bits (rd s CUP_ING_BUDDY) 0 16)
  ((List.range 9).filter (fun p => bit v p)).foldl (fun st p => ask st (posDest st p)) s2

/-- LOAD (R414). -/
def execLoad (src : Src) (s : State) : Host.Outcome State Fault Refusal :=
  if !isReady s then .next (emit s (.unsupported src)) else .next (loadWrite s src)

/-- LOAD_COMPLETE (R414, R415): what the reads have brought: the register image, the pages by address, and the lines of
the window cache, as position and line, state and data; or the source and page of a read that failed. -/
def execLoadComplete (fail : Option (Nat × Nat)) (image : List (Nat × Nat)) (pages : List (Nat × List Byte))
    (lines : List (Nat × Bool × List Byte)) (s : State) : Host.Outcome State Fault Refusal :=
  if s.ingot.busy ≠ 5 then .next s else
  let t := rd s CUP_ING_TARGET
  let v := rd s CUP_ING_LOADSRC
  let fresh := bit v 31
  let s0 := s.withIngot { s.ingot with busy := 0 }
  match fail with
  | some (source, page) => .next (logCup (s0.withIngot { s0.ingot with failed := true }) 0x070B [t, source, page])
  | none =>
    let want := rngPages s (if fresh then [2] else [1, 2])
    let s1 := (pages.filter (fun p => want.contains p.1)).foldl (fun st p =>
      (List.range 1024).foldl (fun u i => setPoison u (p.1 + 64 * i) false) (st.withMem (putBytes st.mem p.1 (p.2.take 65536)))) s0
    let s2 := dropCopies (zeroRanges s1) (fun _ => true)
    let s3 := if fresh then s2 else restoreImage s2 image
    let s4 := setReg (endRollback s3 t) CUP_ING_SEALED t
    let s5 := if fresh then s4 else
      s4.withFlask { s4.flask with cache := lines.foldl (fun l e => spIns (spDel l e.1) e.1 ⟨e.2.1, e.2.2⟩) [] }
    let s6 := s5.withIngot { s5.ingot with
      images := if fresh then [] else [(t, image)], caches := if fresh then [] else [(t, s5.flask.cache)], drain := none }
    .next (logCup (if fresh then s6 else restoreContexts s6) 0x070A [t, bits v 0 9, tickNow s - s.ingot.busyAt])

end Sys2Proof.Machine
end

