-- ==== Sys2Proof/Machine/Samples.lean ====
section
/-! DEFINITION. The registers that show a unit's state as it stands: the samples of every block (R456), and the value
that a register reads as. -/
namespace Sys2Proof.Machine
open Reg

/-- CRU_GATE_STATUS of a physical crucible (Table 3.12). -/
def gateStatus (s : State) (p : Nat) : Nat :=
  let c := cruOf s p
  c.resident.getD 0 + 16 * b2n c.resident.isSome + 32 * b2n c.switching.isSome +
  64 * b2n (s.cup.hold || s.clock.changing.isSome) + 128 * b2n c.testing.isSome + 256 * (p % 512)

/-- CRU_GATE_CMDAGE of a logical crucible (R125). -/
def cmdAge (s : State) (c : Nat) : Nat := min (commandAge s c) 0xFFFFFFFF

/-- CRU_ARR_STATUS (Table 2.7). -/
def arrStatus (s : State) (p a : Nat) : Nat :=
  let r := arrOf s p a
  let body := (arrItem s p a).map (·.2.2)
  b2n r.cmd.isSome + 2 * b2n r.shadow.isSome + 4 * b2n r.frozen + 8 * (r.bank % 2) + 16 * b2n (!r.drains.isEmpty) +
  32 * b2n ((body.map (·.riser)).getD false) + 64 * ((body.map (·.pair)).getD 0)

/-- CRU_Q_STATUS (Table 3.13). -/
def queueStatus (s : State) (k : Nat) : Nat :=
  let q := qOf s k
  let waiting : Bool := match q.items.head? with
    | some i => isWait i && i.phase == .issued
    | none => false
  let st := if !qEnabled s k then 0 else if q.halted then 2 else if waiting then 3 else 1
  let valid := decide (0 < qAvail s k)
  st + 4 * b2n q.openCmd + 8 * (qHeld s k % 16) + (if valid then 256 * hOp (qWord s k (qHead s k)) + 65536 else 0) +
  2 ^ 17 * b2n q.resetPend

/-- GLB_STATUS (Table 14.5). -/
def glbStatus (s : State) : Nat :=
  b2n (s.mode == .ready) + 2 * b2n (s.mode == .coldShut) + 4 * b2n (s.mode == .quenching || s.mode == .stopped) +
  8 * b2n s.cup.locked + 16 * b2n s.integ.failed + 256 * s.cup.profile

/-- GLB_AVAIL (Table 14.5). -/
def glbAvail (s : State) : Nat :=
  (List.range 256).countP (available s) + 65536 * (List.range 8).countP (fun i => isFreeSpare s (256 + i))

/-- CUP_STATUS (Table 12.12). -/
def cupStatus (s : State) : Nat :=
  (match s.mode with
    | .held | .coldStart => 0
    | .coldShut => 1
    | .ready => 2
    | .quenching | .stopped => 3) +
  8 * b2n s.cup.nvmFault + 16 * b2n s.cup.nvmSlow + 32 * b2n s.cup.imgSigned + 64 * b2n s.cup.program.isSome +
  256 * s.cup.profile + 65536 * s.cup.coldCause

/-- The core rail in mV at a point (R446). -/
def coreRail (k : Nat) : Nat := if k = 48 then 750 else Config.coreRail k

/-- CUP_LOOP_STATUS (Table 12.12). -/
def loopStatus (s : State) : Nat :=
  b2n s.integ.det + 2 * b2n s.cup.hold + 4 * b2n s.cup.override_ + 8 * b2n s.clock.changing.isSome +
  256 * (s.cup.tj % 256) + 65536 * (s.cup.p10 % 4096)

/-- CUP_INT_STATUS (Table 10.7). -/
def intStatus (s : State) : Nat :=
  bits (rd s CUP_INT_CTRL) 0 1 + 2 * b2n (tainted s) + 4 * b2n s.integ.det + 8 * b2n s.integ.detBroken +
  16 * b2n (s.integ.cope == 1) + 32 * b2n (s.integ.cope == 2 || s.integ.cope == 3)

/-- CUP_COPE_STATUS (Table 10.7). -/
def copeStatus (s : State) : Nat :=
  s.integ.cope + 8 * s.integ.copeRole + 65536 * min 65535 ((s.integ.mine.length + s.integ.theirs.length) / 16)

/-- CUP_ING_STATUS (Table 11.6). -/
def ingStatus (s : State) : Nat :=
  (if s.ingot.busy ≠ 0 then s.ingot.busy else if !ingOn s then 0 else if s.ingot.want.isSome then 2
    else if s.ingot.drain.isSome then 3 else 1) + 256 * b2n s.ingot.failed + 512 * b2n s.ingot.waiting

/-- CUP_ING_FREE (Table 11.6). -/
def ingFree (s : State) : Nat :=
  if ingOn s then rd s CUP_ING_STORE_SLOTS - imageSlots - s.ingot.used.length else 0

/-- CUP_MOD_STATUS (Table 13.6). -/
def modStatus (s : State) : Nat :=
  let m := s.module_
  b2n (decide (46000 ≤ m.vin ∧ m.vin ≤ 60000)) + 2 * b2n m.pwrEn + 4 * b2n m.rails + 8 * b2n m.holdover.isSome +
  16 * b2n m.thermal + 32 * b2n (m.faultN || s.integ.failed)

/-- HLG_STATUS (Table 12.13). -/
def hlgStatus (s : State) : Nat :=
  s.hlog.entries.length + 2 ^ 15 * b2n (decide (hlogSize ≤ s.hlog.entries.length)) + 2 ^ 16 * b2n s.hlog.clearing.isSome

/-- The first slot of the group whose time it is, and the cycle's number (R238). -/
def slotNow (s : State) : Nat × Nat :=
  let b := s.tnd.bank
  let c := cycleLen s b * 1000
  if c = 0 then (0, 0) else
  let o := tickNow s - cycleStart s
  (((groupHeads s b).filter (fun h => decide (slotOffset s b h ≤ o))).getLastD 0,
    (tickNow s - rd64 s TND_CYC_ORIGIN_LO) / c)

/-- TND_STATUS (Table 6.5). -/
def tndStatus (s : State) : Nat :=
  (slotNow s).1 + 256 * s.tnd.bank + 512 * b2n (!s.tnd.guards.isEmpty) + 65536 * ((slotNow s).2 % 65536)

/-- TND_CTX_STATUS (Table 6.6). -/
def ctxStatus (s : State) (x : Nat) : Nat :=
  ctxState s x + 4 * b2n (s.tnd.gifts.any (fun g => g.holder == x)) + 8 * effPrio s x + 256 * (residentCrus s x).length +
  2 ^ 17 * spGet s.tnd.enfail x 0

/-- TND_CTX_BT_STAT (Table 6.6). -/
def btStat (s : State) (x : Nat) : Nat :=
  let b := batchOf s x
  b.cur + 2 * b2n b.pending.isSome + 4 * b2n b.refused

/-- TND_SSEM_WAIT (Table 6.7). -/
def ssemWaits (s : State) (i : Nat) : Nat :=
  s.tnd.waits.countP (fun w => w.sem == i) +
  (s.queues.map (fun e => e.2.items.countP (fun j => j.op == 0x62 && j.phase == .issued && bits (j.w 1) 0 10 == i))).sum

/-- TND_PHYS (Table 6.5). -/
def tndPhys (s : State) (c : Nat) : Nat :=
  physOf s c % 512 + 512 * b2n (s.tnd.moves.any (fun m => m.logical == c && m.endAt.isSome))

/-- TND_SPARES (Table 6.5). -/
def tndSpares (s : State) (k : Nat) : Nat :=
  b2n (isFreeSpare s (256 + 2 * k)) + 2 * b2n (isFreeSpare s (257 + 2 * k)) +
  4 * ((carriedBy s (256 + 2 * k)).getD 0 % 256) + 1024 * ((carriedBy s (257 + 2 * k)).getD 0 % 256)

/-- ALY_GRP_STATUS (Table 8.7). -/
def grpStatus (s : State) (g : Nat) : Nat :=
  let a := grpAt s g
  (if !bit (rd s (ALY_GRP_CTRL g)) 0 then 0 else if a.cur.isNone && a.queue.isEmpty then 1 else 2) +
  4 * (a.queue.length % 32) + 128 * b2n a.cur.isSome + 65536 * (((a.cur.map (·.seq)).getD a.seq) % 65536)

/-- LDL_STATUS (Table 4.12). -/
def ldlStatus (s : State) : Nat :=
  ((List.range 4).map (fun k =>
    b2n (s.queues.any (fun e => e.2.items.any (fun i => i.op == 0x40 && i.phase == .issued && castingOf i.phys == k))) * 2 ^ k +
    b2n (s.ladle.reqs.any (fun r => r.slice == k && r.issued.isNone)) * 2 ^ (4 + k))).sum

/-- LDL_SWP_STATUS (Table 5.11). -/
def swpStatus (s : State) : Nat :=
  let busy (lop : Nat) : Nat := b2n (s.queues.any (fun e => e.2.items.any (fun i => i.op == 0x40 && i.lop == lop)))
  busy 8 + 2 * busy 9 + 4 * busy 0x0A + 8 * b2n s.ladle.sweep.skipped + 16 * s.ladle.sweep.cause

/-- MEM_STATUS and FAR_STATUS by risk part (Table 4.13). -/
def tierStatus (s : State) (u : Nat) : Nat :=
  let ctl := rd s (if u < 272 then MEM_SCRUB_CTRL (u - 264) else FAR_SCRUB_CTRL (u - 272))
  b2n (s.mode == .ready || s.mode == .quenching || s.mode == .stopped) + 2 * bits ctl 16 1 + 4 * spGet s.cup.throttled u 0 +
  256 * (spGet s.cup.temps u 0 % 256)

/-- FLK_STATUS (Table 9.5). -/
def flkStatus (s : State) : Nat :=
  min 2047 (flkOpen s) + 65536 * b2n (winOn s) + 2 ^ 17 * b2n s.ingot.want.isSome

/-- MTR_STATUS (Table 12.9). -/
def mtrStatus (s : State) : Nat :=
  b2n s.meters.armed.isSome + 2 * b2n s.meters.refused + 65536 * ((2 ^ 32 + rd s MTR_SEQ - rd s MTR_ACK) % 2 ^ 32 % 256)

/-- The STATE of a unit by its index (R457): the code of its own status register. -/
def unitState (s : State) (i : Nat) : Nat :=
  if i < 16 then ctxState s i
  else if i < 272 then bits (gateStatus s (physOf s (i - 16))) 0 8
  else if i < 528 then bits (grpStatus s (i - 272)) 0 2
  else if i < 564 then linkState s (i - 528)
  else bits (ingStatus s) 0 3

/-- The unit table's entry (R457): its low and its high word. -/
def unitEntry (s : State) (i : Nat) : Nat × Nat :=
  let e := spGet s.cup.units i (0, 0)
  let o := spGet s.cup.orders i 0
  (e.1 % 256 + 256 * o + 4096 * b2n (o != 0), e.2)

/-- A sample of the GLB block. -/
def sampleGlb (s : State) (off : Nat) : Option Nat :=
  if off = GLB_STATUS then some (glbStatus s)
  else if off = GLB_AVAIL then some (glbAvail s)
  else if off = GLB_SERIAL_LO then some (Config.serial % 2 ^ 32)
  else if off = GLB_SERIAL_HI then some (Config.serial / 2 ^ 32 % 2 ^ 32)
  else if 0x8000 ≤ off ∧ off < 0xA000 then
    let p := 256 + (off - 0x8000) / 0x400
    let r := off % 0x400
    if r = 0 then some (gateStatus s p)
    else if r = 4 then some ((carriedBy s p).elim 0 (cmdAge s))
    else if 0x200 ≤ r ∧ r % 0x40 = 0 then some (arrStatus s p ((r - 0x200) / 0x40))
    else none
  else none

/-- A sample of the CUP block. -/
def sampleCup (s : State) (off : Nat) : Option Nat :=
  if off = CUP_STATUS then some (cupStatus s)
  else if off = CUP_KEY_STAT then some (b2n s.cup.fused + 2 * b2n s.cup.require)
  else if off = CUP_VF_CUR then some (s.clock.point + 256 * (coreRail s.clock.point % 65536))
  else if off = CUP_LOOP_STATUS then some (loopStatus s)
  else if off = CUP_INT_STATUS then some (intStatus s)
  else if off = CUP_COPE_STATUS then some (copeStatus s)
  else if off = CUP_ING_STATUS then some (ingStatus s)
  else if off = CUP_ING_FREE then some (ingFree s)
  else if off = CUP_QUENCH_GO then some 0
  else if off = CUP_MOD_STATUS then some (modStatus s)
  else if off = CUP_MOD_VIN then some ((s.module_.vin.toNat % 65536) + 65536 * (s.module_.iin % 65536))
  else if off = CUP_MOD_PINSTAT then some (s.module_.shorts % 64 + 256 * b2n s.module_.i3cOff.isSome + 512 * b2n s.module_.pcieUp)
  else if off = CUP_MOD_COOL then some (s.module_.coolIn % 256 + 256 * (s.module_.coolOut % 256))
  else if CUP_FTL_STATE 0 ≤ off ∧ off < CUP_FTL_STATE 264 ∧ off % 16 = 0 then
    let p := (off - CUP_FTL_STATE 0) / 16
    some (ftlState s p + 256 * min 255 (spGet s.integ.defers p 0))
  else if CUP_UNIT_LO 0 ≤ off ∧ off < CUP_UNIT_LO 565 then
    let e := unitEntry s ((off - CUP_UNIT_LO 0) / 8)
    some (if off % 8 = 0 then e.1 else e.2)
  else none

/-- A sample of the TND block. -/
def sampleTnd (s : State) (off : Nat) : Option Nat :=
  if off = TND_STATUS then some (tndStatus s)
  else if off = TND_CYC_LEN then some (cycleLen s s.tnd.bank)
  else if 0x30100 ≤ off ∧ off < 0x30900 then
    let x := (off - 0x30100) / 0x80
    if off = TND_CTX_STATUS x then some (ctxStatus s x)
    else if off = TND_CTX_BT_STAT x then some (btStat s x)
    else none
  else if TND_SSEM_VAL 0 ≤ off ∧ off < TND_SSEM_VAL 1024 ∧ off % 16 = 8 then some (ssemWaits s ((off - TND_SSEM_VAL 0) / 16))
  else if TND_PHYS 0 ≤ off ∧ off < TND_PHYS 256 then some (tndPhys s ((off - TND_PHYS 0) / 4))
  else if off = TND_MOVE_REQ then
    let c := bits (rd s TND_MOVE_REQ) 0 8
    some (c + 2 ^ 30 * b2n (s.tnd.moves.any (fun m => m.logical == c && m.endAt.isNone)))
  else if TND_SPARES 0 ≤ off ∧ off < TND_SPARES 4 then some (tndSpares s ((off - TND_SPARES 0) / 4))
  else none

/-- A sample of the LDL block. -/
def sampleLdl (s : State) (off : Nat) : Option Nat :=
  if off = LDL_STATUS then some (ldlStatus s)
  else if off = LDL_SWP_STATUS then some (swpStatus s)
  else if off = LDL_SWP_EARLY_N then some s.ladle.sweep.early.length
  else if LDL_KV_PT_BASE_LO 0 ≤ off ∧ off < LDL_KV_PT_BASE_LO 16 then
    let x := (off - LDL_KV_PT_BASE_LO 0) / 0x40
    if off = LDL_KV_NEAR_FREE x then some (nearFree s x)
    else if off = LDL_KV_FAR_FREE x then some (farFree s x)
    else none
  else if LDL_RA_STATE 0 ≤ off ∧ off < LDL_RA_STATE 64 then
    let r := streamAt s ((off - LDL_RA_STATE 0) / 16)
    some (match off % 16 with
      | 0 => r.state + 4 * r.ctx + 64 * b2n r.kv
      | 4 => r.pos
      | 8 => r.dist
      | _ => r.buf.length)
  else none

/-- A sample of the HLG block and of the Heat Log's entries (R465, R468, R470). -/
def sampleHlg (s : State) (off : Nat) : Option Nat :=
  if off = HLG_STATUS then some (hlgStatus s)
  else if off = HLG_FIRST_SEQ then some s.hlog.firstSeq
  else if off = HLG_NEXT_SEQ then some s.hlog.nextSeq
  else if 0x3000000 ≤ off ∧ off < 0x3100000 then
    let e := s.hlog.entries.getD ((off - 0x3000000) / 64) []
    some (e.getD (off % 64 / 4) 0).toNat
  else none

/-- A sample of the CRU block: the state of the physical crucible that carries the logical one, the queue sets, and the
arrays of the physical crucible that the instance names (R95). -/
def sampleCru (s : State) (off : Nat) : Option Nat :=
  let c := (off - 0x1000000) / 0x10000
  let r := off % 0x10000
  if r = 0 then some (if available s c then gateStatus s (physOf s c) else 256 * 0x1FF)
  else if r = 4 then some (cmdAge s c)
  else if 0x1000 ≤ r ∧ r < 0x3000 ∧ r % 0x40 = 4 then some (queueStatus s (c * 128 + (r - 0x1000) / 0x40))
  else if 0x8000 ≤ r ∧ r < 0x8200 ∧ r % 0x40 = 0 then some (arrStatus s c ((r - 0x8000) / 0x40))
  else none

/-- The sample that a register shows; none where the register is held. -/
def sampleAt (s : State) (off : Nat) : Option Nat :=
  if off < 0x10000 then sampleGlb s off
  else if off < 0x20000 then sampleCup s off
  else if off < 0x30000 then sampleHlg s off
  else if off < 0x40000 then sampleTnd s off
  else if off < 0x50000 then
    let g := (off - 0x40000) / 0x100
    if off % 0x100 = 4 then some (grpStatus s g)
    else if off % 0x100 = 0xC then some (rd s off % 65536 + 65536 * grpSig s g)
    else none
  else if off < 0x60000 then sampleLdl s off
  else if off < 0x68000 then if off % 0x1000 = 0 then some (tierStatus s (264 + (off - 0x60000) / 0x1000)) else none
  else if off < 0x78000 then if off % 0x1000 = 0 then some (tierStatus s (272 + (off - 0x70000) / 0x1000)) else none
  else if off = FLK_STATUS then some (flkStatus s)
  else if off = MTR_NOW_LO then some (tickNow s % 2 ^ 32)
  else if off = MTR_NOW_LO + 4 then some (tickNow s / 2 ^ 32 % 2 ^ 32)
  else if off = MTR_STATUS then some (mtrStatus s)
  else if off = MTR_MAP_GO ∨ off = MTR_CLOSE_GO then some 0
  else if 0x100000 ≤ off ∧ off < 0x148000 ∧ off % 0x2000 = 0 then
    some (setBits (rd s off) 15 1 (b2n (sprSplit s ((off - 0x100000) / 0x2000))))
  else if off = SPR_RT_CTRL then
    some (rd s off % 4096 + 4096 * ((List.range 4).map (fun b => b2n (bankNamed s b) * 2 ^ b)).sum)
  else if 0x1000000 ≤ off ∧ off < 0x2000000 then sampleCru s off
  else if 0x3000000 ≤ off then sampleHlg s off
  else none

/-- The value of a register: its sample, or what it holds. -/
def regValue (s : State) (off : Nat) : Nat := (sampleAt s off).getD (rd s off)

end Sys2Proof.Machine
end

