-- ==== Sys2Proof/Machine/Quench.lean ====
section
/-! DEFINITION. The quench: its order, the shakeout, and what its first two phases clear (R417 to R422). -/
namespace Sys2Proof.Machine
open Reg

/-- The state with the Cupola changed. -/
def State.withCup (s : State) (c : Cupola) : State := { s with cup := c }

/-- A write of CUP_QUENCH_ARM (R417): a reserved cause, and any order during a quench, is discarded and logged. -/
def quenchArm (s : State) (src : Src) (v : Nat) : State :=
  let n := v &&& 0xFFFF00F7
  let c := bits n 4 3
  if s.mode != .ready || !(decide (1 ≤ c ∧ c ≤ 4)) then logDiscard s src CUP_QUENCH_ARM 4 8 else
  let s1 := setReg s CUP_QUENCH_ARM n
  let s2 := if rd s CUP_QUENCH_ARM = n then s1 else logAccepted s1 src 0 CUP_QUENCH_ARM n
  s2.withCup { s2.cup with armedAt := some (tickNow s) }

/-- CUP_QUENCH_ARM (R417). -/
def execCupQuenchArm (src : Src) (v : Word) (s : State) : Host.Outcome State Fault Refusal :=
  if !isReady s then .next (emit s (.unsupported src)) else .next (quenchArm s src v.toNat)

/-- What a quench meets in the ingot (R420): a pending cut is dropped, the ward's incomplete half is discarded, and a
restore or load is abandoned and shown as FAILED. The drain is abandoned until the quench ends. -/
def quenchIngot (s : State) : State :=
  s.withIngot { s.ingot with
    want := none, chilled := [], wardGot := 0, wardSum := 0, drain := none, waiting := false, blocked := false
    sweepHeld := none, failed := s.ingot.failed || s.ingot.busy != 0, busy := 0 }

/-- Whether a quench puts a register back to its reset value (Table 11.4): the blocks that the castings hold, the flask
block and the phase registers. -/
def quenchClears (off : Nat) : Bool :=
  decide (0x8000 ≤ off ∧ off < 0xA000) || decide (0x30000 ≤ off ∧ off < 0x60000) || decide (0x80000 ≤ off ∧ off < 0x90000) ||
  decide (0x148020 ≤ off ∧ off < 0x148060) || decide (0x1000000 ≤ off ∧ off < 0x2000000)

/-- Taint cleared by a quench or cold start, with its event (R368). -/
def dropTaint (s : State) : State :=
  let v := rd s CUP_INT_TAINT
  if v = 0 then s else logUnit (setReg s CUP_INT_TAINT 0) 0x0603 0 [v, srcDatum .cupola]

/-- The fettle state of a crucible after a quench: a test or move that it interrupts is due again. -/
def quenchFtl (n : Nat) : Nat := if n = 2 ∨ n = 3 then 1 else n

/-- Phases 1 and 2 of a quench (Table 11.3, Table 11.4): everything in flight is abandoned, and the castings' state is
cleared. The sprues, the tiers, the Heat Log, the meters, the fettle table and the ingot stay. -/
def quenchStop (s : State) : State :=
  let s1 := quenchIngot (zeroChoices (dropTaint s))
  let s2 := s1.withRegs (s1.regs.filter (fun e => !quenchClears e.1))
  let s3 := setReg (setReg s2 CUP_INT_CTRL (setBits (rd s2 CUP_INT_CTRL) 0 1 1)) CUP_QUENCH_ARM 0
  let ladle : Ladle := { s3.ladle with
    streams := [], moves := [], reqs := [], slots := [], sweepAt := [], sweeping := []
    sweep := ⟨[], none, 0, 0, false, 0⟩ }
  let tnd : Tundish := ⟨[], [], [], 0, [], [], [], [], [], [], [], [], [], 0, s3.tnd.credits⟩
  let integ : Integ := { s3.integ with
    det := false, cope := 0, copeRole := 0, mine := [], theirs := [], alyTest := none
    alyDue := s3.integ.alyDue || s3.integ.alyTest.isSome
    ftl := s3.integ.ftl.map (fun e => (e.1, quenchFtl e.2)), inPlace := [] }
  let s4 : State := { s3 with
    mem := s3.mem.filter (fun e => !(decide (0x40000000000 ≤ e.1 ∧ e.1 < 0x40010000000)))
    tags := [], queues := [], arrays := [], crus := [], ladle := ladle, alloy := [], tnd := tnd, integ := integ
    flask := { s3.flask with home := [], queued := [], lastAt := [], wbs := [], need := [] }
    sprues := { s3.sprues with asking := [], enabling := [] }
    cup := { s3.cup with armedAt := none, locked := false } }
  (List.range 16).foldl (fun st t => (reserveSlice st t).1) s4

/-- A quench begins (R417): with a shakeout first for cause WATCHDOG or with SHAKE, otherwise with its phases at once. -/
def beginQuench (s : State) (cause profile : Nat) (shake : Bool) (src : Src) : State :=
  let s1 : State := { s with mode := .quenching }
  let s2 := s1.withCup { s1.cup with armedAt := none, quench := some ⟨cause, profile, shake, false, tickNow s, src⟩ }
  if shake then s2 else quenchStop s2

/-- A write of CUP_QUENCH_GO (R417): with the armed NONCE, within 1 ms of the arming. -/
def quenchGo (s : State) (src : Src) (v : Nat) : State :=
  let a := rd s CUP_QUENCH_ARM
  let inTime := match s.cup.armedAt with
    | some t => decide (tickNow s ≤ t + 100000)
    | none => false
  if s.mode != .ready || !inTime || bits v 16 16 != bits a 16 16 then logDiscard s src CUP_QUENCH_GO 4 8 else
  beginQuench (logAccepted s src 0 CUP_QUENCH_GO (v / 65536 * 65536)) (bits a 4 3) (bits a 0 3)
    (bits a 4 3 == 2 || bit a 7) src

/-- CUP_QUENCH_GO (R417). -/
def execCupQuenchGo (src : Src) (v : Word) (s : State) : Host.Outcome State Fault Refusal :=
  if !isReady s then .next (emit s (.unsupported src)) else .next (quenchGo s src v.toNat)

/-- Registers as words, from an offset of BAR0. -/
def regWords (s : State) (off n : Nat) : List Nat := (List.range n).map (fun i => regValue s (off + 4 * i))

/-- An item as 64 bytes. -/
def itemBytes (i : Item) : List Byte :=
  ((i.words.map (fun (w : Word) => w.toNat) ++ List.replicate 16 0).take 16).flatMap (leBytes 4)

/-- The gate state of a physical crucible in a shakeout (Table 11.5), at most 8 KiB. -/
def shakeGate (s : State) (p : Nat) : List Byte :=
  let its := s.queues.flatMap (fun e => if carriedBy s p == some (qCru e.1) then e.2.items else [])
  let arrs := (List.range 8).flatMap (fun a => arrStatus s p a :: regWords s (arrCnt p a 0 - 4) 15)
  (leBytes 4 (gateStatus s p) ++ leBytes 4 ((carriedBy s p).elim 0 (cmdAge s)) ++ its.flatMap itemBytes ++
    (arrs ++ regWords s (gateCnt p 0) 24).flatMap (leBytes 4)).take 8192

/-- The items that a Ladle slice has accepted, in a shakeout. -/
def shakeSlice (s : State) (k : Nat) : List Byte :=
  (((s.queues.flatMap (fun e => e.2.items)).filter (fun i => i.op == 0x40 && castingOf i.phys == k)).take 1024).flatMap itemBytes

/-- The queued items of a group, in a shakeout. -/
def shakeGroup (s : State) (g : Nat) : List Byte :=
  let its := (grpAt s g).queue.filterMap (fun e => findItem s e.1 e.2.1)
  (regWords s (ALY_GRP_CTRL g) 64).flatMap (leBytes 4) ++ (its.take 16).flatMap itemBytes

/-- Open home transactions, four words each: line, position, tag, and the positions that have not answered. -/
def shakeHome (s : State) : List Nat :=
  s.flask.home.flatMap (fun t => [t.line, t.pos, t.tag, (t.snoops.map (fun e => 2 ^ e.1)).sum])

/-- A section of a shakeout: its offset within the slot, its size, and its parts, each at an offset within the section
(Table 11.5). -/
def shakeSections (s : State) : List (Nat × Nat × List (Nat × List Byte)) :=
  let ws (l : List Nat) : List Byte := l.flatMap (leBytes 4)
  [(0x1000, 0x200000, (List.range 32768).map (fun k => (k * 64, ws (regWords s (qReg k 0) 16)))),
   (0x201000, 0x100000, (List.range 4096).map (fun n => (n * 256, ws (regWords s (CRU_SEM (n / 16) (n % 16) 0) 64)))),
   (0x301000, 0x210000, (List.range 264).map (fun p => (p * 8192, shakeGate s p))),
   (0x511000, 0x10000, [(0, ws (regWords s 0x30000 16384))]),
   (0x521000, 0x50000, (List.range 4).map (fun k => (65536 * k, shakeSlice s k)) ++ [(0x40000, ws (regWords s 0x50000 16384))]),
   (0x571000, 0x50000, (List.range 256).map (fun g => (g * 1280, shakeGroup s g))),
   (0x5C1000, 0x10000, [(0, ws (regWords s 0x80000 0xC00)), (0x3000, ws (shakeHome s))]),
   (0x5D1000, 0x48000, [(0, ws (regWords s 0x100000 0x12000))]),
   (0x619000, 0x100000, [(0, ws (regWords s 0x3000000 0x40000))]),
   (0x719000, 0x10000, [(0, ws (regWords s 0x10000 0x4000))])]

/-- The header of a shakeout (R422); `absent` are the sections that could not be read, by their place in Table 11.5. -/
def shakeHeader (s : State) (gen cause absent : Nat) : List Nat :=
  let entries := ((0, 0x1000, []) :: shakeSections s).zipIdx.flatMap (fun e =>
    [e.1.1, e.1.2.1 + (if bit absent e.2 then 0 else 2 ^ 31)])
  [gen, cause + 16 * s.cup.profile] ++ datum64 (tickNow s) ++
    [intStatus s, ingStatus s, rd s CUP_ING_EPOCH, rd s CUP_ING_CUT_STEP] ++ entries ++ List.replicate 993 0 ++ [gen]

/-- Writes the shakeout to its slot (R421): the slot is zeroed, then the sections, then the header. -/
def writeShakeout (s : State) (cause absent : Nat) : State :=
  let gen := (rd s CUP_SHK_GEN + 1) % 2 ^ 32
  let base := 0x3FFF0000000 + gen % 8 * 0x2000000
  let inSlot (a : Nat) : Bool := decide (base ≤ a ∧ a < base + 0x2000000)
  let s1 : State := { s with
    mem := s.mem.filter (fun e => !inSlot e.1), poison := s.poison.filter (fun e => !inSlot (e.1 * 64)) }
  let put (st : State) (a : Nat) (bs : List Byte) : State := st.withMem (putBytes st.mem a bs)
  let s2 := (shakeSections s).zipIdx.foldl (fun st e =>
    if bit absent (e.2 + 1) then st else e.1.2.2.foldl (fun t p => put t (base + e.1.1 + p.1) (p.2.take (e.1.2.1 - p.1))) st) s1
  let s3 := put s2 base ((shakeHeader s gen cause absent).flatMap (leBytes 4))
  logCup (setReg s3 CUP_SHK_GEN gen) 0x070D [gen % 8, gen, absent]

/-- SHAKEOUT_END (R421): the shakeout is written, and the phases of the quench begin; R418 counts its time from here. -/
def execShakeoutEnd (absent : Nat) (s : State) : Host.Outcome State Fault Refusal :=
  match s.cup.quench with
  | some q =>
    if s.mode != .quenching || !q.shake || q.shaken then .next s else
    let s1 := writeShakeout s q.cause absent
    .next (quenchStop (s1.withCup { s1.cup with quench := some { q with shaken := true, start := tickNow s } }))
  | none => .next s

end Sys2Proof.Machine
end

