-- ==== Sys2Proof/Machine/Meters.lean ====
section
/-! DEFINITION. The usage meters: the mapping to wall time, boundaries and interval records (R460 to R464). -/
namespace Sys2Proof.Machine
open Reg

/-- The state with the meters changed. -/
def State.withMeters (s : State) (m : Meters) : State := { s with meters := m }

/-- The ten words of each slice's meters, as values: meter m of slice t at 5t + m. -/
def meterVals (s : State) : Sparse Nat :=
  ((List.range 80).map (fun i => (i, rd64 s (MTR_SLICE_CNT_LO (i / 5) (i % 5))))).filter (fun e => e.2 != 0)

/-- The boundary of a wall time: MAP_TICK + floor((W - MAP_WALL) / 10) in signed 64-bit arithmetic (R462). -/
def boundary (mapTick mapWall w : Nat) : Int :=
  let d := (BitVec.ofNat 64 w - BitVec.ofNat 64 mapWall).toInt
  (BitVec.ofNat 64 mapTick + BitVec.ofInt 64 (d.fdiv 10)).toInt

/-- A signed 64-bit number as its bit pattern. -/
def pattern64 (i : Int) : Nat := (BitVec.ofInt 64 i).toNat

/-- The words of the interval record (Table 12.8). -/
def intervalWords (s : State) (n late b w gen endAt : Nat) (ends : Sparse Nat) : List Nat :=
  let delta (i : Nat) : Nat := (2 ^ 64 + spGet ends i 0 - spGet s.meters.atStart i 0) % 2 ^ 64
  [n, late] ++ datum64 s.meters.start ++ datum64 endAt ++ datum64 b ++ datum64 w ++ [gen, rd s MTR_BOOT, 0, 0, 0, 0] ++
    (List.range 80).flatMap (fun i => datum64 (delta i)) ++ List.replicate 79 0 ++ [n]

/-- Closes the open interval at a tick (R463), or refuses with 64 records unacknowledged: the interval stays open, and an
armed boundary goes. -/
def closeInterval (s : State) (late : Bool) (b w gen endAt : Nat) (ends : Sparse Nat) : State :=
  let n := (rd s MTR_SEQ + 1) % 2 ^ 32
  let s0 := setReg64 (s.withMeters { s.meters with armed := none, atEnd := none }) MTR_ARMED_LO 0
  if 64 ≤ (2 ^ 32 + rd s MTR_SEQ - rd s MTR_ACK) % 2 ^ 32 then logCup s0 0x0A04 [n, rd s MTR_ACK] else
  let s1 := (intervalWords s n (b2n late) b w gen endAt ends).zipIdx.foldl
    (fun st e => setReg st (MTR_RECORD (n % 64) e.2) e.1) s0
  let s2 := setReg64 (setReg s1 MTR_SEQ n) MTR_LAST_CLOSED_LO endAt
  logCup (s2.withMeters { s2.meters with atStart := ends, start := endAt }) 0x0A01
    ([n] ++ datum64 s.meters.start ++ datum64 endAt ++ [b2n late])

/-- A write of 1 to MTR_MAP_GO (R461): both values at once, a new generation, event 0x0A02. -/
def mapGo (s : State) (src : Src) : State :=
  let gen := (rd s MTR_MAP_GEN + 1) % 2 ^ 32
  let t := rd64 s MTR_MAP_TICK_LO
  let w := rd64 s MTR_MAP_WALL_LO
  let s1 := setReg (logAccepted s src 0 MTR_MAP_GO 1) MTR_MAP_GEN gen
  logSrc (s1.withMeters { s1.meters with mapTick := t, mapWall := w }) 0x0A02 src (datum64 t ++ datum64 w ++ [gen])

/-- MTR_MAP_GO (R461). -/
def execMtrMapGo (src : Src) (s : State) : Host.Outcome State Fault Refusal :=
  if !isReady s then .next (emit s (.unsupported src)) else .next (mapGo s src)

/-- A write of 1 to MTR_CLOSE_GO (R462): refused, closed at once with LATE, or armed. -/
def closeGo (s0 : State) (src : Src) : State :=
  let s := logAccepted s0 src 0 MTR_CLOSE_GO 1
  let w := rd64 s MTR_CLOSE_WALL_LO
  let b := boundary s.meters.mapTick s.meters.mapWall w
  let last := rd64 s MTR_LAST_CLOSED_LO
  let gen := rd s MTR_MAP_GEN
  if b ≤ last then
    logSrc (s.withMeters { s.meters with refused := true }) 0x0A03 src (datum64 w ++ datum64 (pattern64 b) ++ datum64 last)
  else
    let s1 := s.withMeters { s.meters with refused := false, armed := none, atEnd := none }
    if b ≤ tickNow s then closeInterval s1 true b.toNat w gen (tickNow s) (meterVals s)
    else setReg64 (s1.withMeters { s1.meters with armed := some (b.toNat, w, gen) }) MTR_ARMED_LO b.toNat

/-- MTR_CLOSE_GO (R462). -/
def execMtrCloseGo (src : Src) (s : State) : Host.Outcome State Fault Refusal :=
  if !isReady s then .next (emit s (.unsupported src)) else .next (closeGo s src)

/-- The armed interval closes once its boundary has passed, with END equal to B (R462). -/
def closeArmed (s : State) : State :=
  match s.meters.armed with
  | none => s
  | some (b, w, gen) =>
    if tickNow s < b then s else closeInterval s false b w gen b (s.meters.atEnd.getD (meterVals s))

/-- MTR_INTERVAL_CLOSE (R463). -/
def execMtrIntervalClose (s : State) : Host.Outcome State Fault Refusal := .next (closeArmed s)

/-- A write of a plain register that no rule restricts (R442). -/
def plainWrite (s : State) (src : Src) (off v : Nat) : State :=
  if rd s off = v % 2 ^ 32 then s else logAccepted (setReg s off v) src 0 off (v % 2 ^ 32)

/-- MTR_ACK_WRITE (R463): the reader acknowledges records. -/
def execMtrAckWrite (src : Src) (v : Word) (s : State) : Host.Outcome State Fault Refusal :=
  if !isReady s then .next (emit s (.unsupported src)) else .next (plainWrite s src MTR_ACK v.toNat)

/-- The size of a context's ranges in 64 KiB units (R471, meter 4). -/
def rangeSize (s : State) (x : Nat) : Nat :=
  ((List.range 8).map (fun r => rd s (LDL_RNG_LIMIT x r) - rd s (LDL_RNG_BASE x r))).sum

/-- MTR_RANGE_TICK (R471): meter 4 of each enabled context's slice. -/
def execMtrRangeTick (s : State) : Host.Outcome State Fault Refusal :=
  if tickNow s < s.meters.rangeAt then .next s else
  let s1 := (List.range 16).foldl (fun st x =>
    if ctxState st x = 0 then st else cntAdd st (MTR_SLICE_CNT_LO (sliceTag st x) 4) (rangeSize st x)) s
  .next (s1.withMeters { s1.meters with rangeAt := s1.meters.rangeAt + 100000 })

end Sys2Proof.Machine
end

