-- ==== Sys2Proof/Machine/Cupola.lean ====
section
/-! DEFINITION. The supervision pass: the voltage and frequency loop, safety, the unit table, the run-ahead and lane
loops, and risk (R426, R446 to R459). -/
namespace Sys2Proof.Machine
open Reg

/-- The state with the clock changed. -/
def State.withClock (s : State) (c : Clock) : State := { s with clock := c }

/-- The end of a move from one point towards another: at most 8 points (R448). -/
def stepPoint (k target : Nat) : Nat := if k < target then min target (k + 8) else max target (k - 8)

/-- Begins the next change of point where the point in force is not the chosen one (R448): the hold lasts at most 200
ticks. -/
def beginChange (s : State) : State :=
  let c := s.clock
  if c.changing.isSome || c.point == c.target then s
  else s.withClock { c with changing := some (stepPoint c.point c.target, c.now + 200) }

/-- The Cupola chooses a point. -/
def setTarget (s : State) (k : Nat) : State := beginChange (s.withClock { s.clock with target := k })

/-- ROOT_POINT_CHANGE_END (R448): the new point is in force and is counted; a longer move goes on. -/
def execRootPointChangeEnd (s : State) : Host.Outcome State Fault Refusal :=
  match s.clock.changing with
  | none => .next s
  | some (k, _) =>
    .next (beginChange (cntAdd (s.withClock { s.clock with point := k, changing := none }) CUP_VF_CHG_CNT_LO 1))

/-- A safety hold of R449 is asserted, or released: event 0x0804, and on assertion the module's risk weight. -/
def holdEvent (s : State) (cause : Nat) (asserted : Bool) : State :=
  let s1 := logCup s 0x0804 [cause, s.cup.tj, s.cup.p10]
  if asserted then riskAdd s1 299 (2 ^ 16 * 2) else s1

/-- INPUT_OVER_LIMIT (R449): the fast comparator asserts the hold of R142. -/
def execInputOverLimit (s : State) : Host.Outcome State Fault Refusal :=
  if s.cup.trip || !(s.mode == .ready || s.mode == .quenching || s.mode == .stopped) then .next s else
  .next (holdEvent (s.withCup { s.cup with trip := true, hold := true, acted := s.cup.acted / 2 * 2 }) 1 true)

/-- The lower and upper limits of the loop (R447, R450). -/
def vfFloor (s : State) : Nat := bits (rd s CUP_VF_FLOOR) 0 6
/-- The upper limit. -/
def vfCeil (s : State) : Nat := bits (rd s CUP_VF_CEIL) 0 6

/-- Whether the loop may raise the point: 50 W and 2 °C below the limits (R447). -/
def mayRaise (s : State) : Bool :=
  decide (s.cup.p10 + 50 ≤ bits (rd s CUP_POWER_LIMIT) 0 12) && decide (s.cup.tj + 2 ≤ bits (rd s CUP_T_TARGET) 0 7)
/-- Whether the loop must lower the point (R447). -/
def mustLower (s : State) : Bool :=
  decide (bits (rd s CUP_POWER_LIMIT) 0 12 < s.cup.p10) || decide (bits (rd s CUP_T_TARGET) 0 7 < s.cup.tj)

/-- The safety holds as a pass finds them (R449): a hold whose point 0 has been ordered is released once its condition is
over; a temperature above its limit asserts one. -/
def safetyHolds (s : State) : State :=
  let c := s.cup
  let s1 := if c.trip && bit c.acted 0 && decide (c.p10 < 2600) then
      holdEvent (s.withCup { c with trip := false, acted := setBits c.acted 0 1 0 }) 1 false else s
  let c1 := s1.cup
  let s2 := if c1.hot && bit c1.acted 1 && decide (c1.tj < 95) && decide (c1.stackT < 90) then
      holdEvent (s1.withCup { c1 with hot := false, acted := setBits c1.acted 1 1 0 }) 3 false
    else if !c1.hot && (decide (100 ≤ c1.tj) || decide (95 ≤ c1.stackT)) then
      holdEvent (s1.withCup { c1 with hot := true, acted := setBits c1.acted 1 1 0 }) 3 true
    else s1
  s2.withCup { s2.cup with hold := s2.cup.trip || s2.cup.hot }

/-- The row of R449 that lowers the point in this pass, with the point it orders: 1 and 3 a hold that was asserted before
the pass, 2 P10 above 2,400 W. -/
def safetyPoint (s : State) (k : Nat) (wasTrip wasHot : Bool) : Option (Nat × Nat) :=
  if s.cup.trip && wasTrip then some (1, 0)
  else if s.cup.hot && wasHot then some (3, 0)
  else if s.cup.hold then some (if s.cup.trip then 1 else 3, k)
  else if 2400 < s.cup.p10 then some (2, k - 8)
  else none

/-- The point that the loop of R447 chooses from point k while no safety action stands. In deterministic mode and in the
recovery the point climbs by at most 8 (R447, R450). -/
def loopPoint (s : State) (k : Nat) : Nat :=
  let lo := vfFloor s
  let hi := vfCeil s
  if s.integ.det then stepPoint k lo
  else if s.cup.override_ && decide (k < lo) then (if mayRaise s then min lo (k + 8) else k)
  else if k < lo then lo
  else if hi < k then hi
  else if mayRaise s && decide (k < hi) then k + 1
  else if mustLower s && decide (lo < k) then k - 1
  else k

/-- The voltage and frequency loop of one pass (R447, R449), with OVERRIDE and event 0x0803. -/
def vfLoop (s : State) : State :=
  let wasTrip := s.cup.trip
  let wasHot := s.cup.hot
  let s1 := safetyHolds s
  let k := s1.clock.target
  let acted := (if s1.cup.trip && wasTrip then 1 else 0) ||| (if s1.cup.hot && wasHot then 2 else 0) ||| s1.cup.acted
  let s2 := s1.withCup { s1.cup with acted := acted }
  match safetyPoint s2 k wasTrip wasHot with
  | some (cause, k') =>
    let below := decide (k' < vfFloor s2)
    let s3 := if below && !s2.cup.override_ then
        logCup (cntAdd (s2.withCup { s2.cup with override_ := true, cause := cause }) CUP_OVERRIDE_CNT_LO 1) 0x0803
          [cause, k', vfFloor s2, b2n s2.integ.det]
      else s2
    setTarget s3 k'
  | none =>
    let k' := loopPoint s2 k
    let s3 := if s2.cup.override_ && decide (vfFloor s2 ≤ k') then s2.withCup { s2.cup with override_ := false } else s2
    setTarget s3 k'

/-- An entry of the unit table takes its unit's state, and GEN advances (R459). `lost` tells that the entry's words were
lost to two errors (R366). -/
def compareUnit (s : State) (i : Nat) (lost : Bool) : State :=
  let e := spGet s.cup.units i (0, 0)
  let u := unitState s i
  if e.1 = u ∧ ¬ lost then s else
  let s1 := s.withCup { s.cup with units := spPut s.cup.units i (u, (e.2 + 1) % 65536) (0, 0) }
  logCup (cntAdd s1 CUP_MISMATCH_CNT_LO 1) 0x0805 [i, e.1, u]

/-- The table compare of a pass (R459). -/
def compareUnits (s : State) (lost : List Nat) : State :=
  let s1 := lost.foldl (fun st i => tableError st 3 i 2) s
  (List.range 565).foldl (fun st i => compareUnit st i (lost.contains i)) s1

/-- Whether a stream's next chunk does not fit what is left of its casting's run-ahead area (R180, R451). -/
def areaFull (s : State) (n : Nat) : Bool :=
  let r := streamAt s n
  decide (raShare s * 32768 < areaLines s (n / 16) + (if r.kv then 512 else r.lines))

/-- The run-ahead distance of one stream (R451). -/
def distanceLoop (s : State) (n : Nat) : State :=
  let r := streamAt s n
  if r.state ≠ 1 then s else
  let full := areaFull s n
  let d := if 0 < r.late ∧ full = false then min r.raMax (r.dist + max 1 (r.dist / 4))
    else if 0 < r.disc ∨ full = true then max r.raMin (r.dist - 1)
    else r.dist
  setStream s n { r with dist := d, late := 0, disc := 0 }

/-- The coolant as the pass samples it (R476): event 0x082B once per excursion above 45 °C. -/
def sampleCoolant (s : State) (inlet outlet : Nat) : State :=
  let m := s.module_
  let hot := decide (45 < inlet)
  let s1 := { s with module_ := { m with coolIn := inlet, coolOut := outlet, coolHot := hot } }
  if hot && !m.coolHot then logCup s1 0x082B [inlet, outlet, s.cup.tj] else s1

/-- The tier temperatures as they are read, with what throttles (Table 4.13): parts 264 to 279. -/
def sampleTiers (s : State) (temps : List (Nat × Bool)) : State :=
  let l := (temps.take 16).zipIdx
  s.withCup { s.cup with
    temps := (l.map (fun e => (264 + e.2, e.1.1))).filter (fun e => e.2 != 0)
    throttled := (l.map (fun e => (264 + e.2, b2n e.1.2))).filter (fun e => e.2 != 0)
    stackT := ((temps.take 8).map (·.1)).foldl max 0 }

/-- SUPERVISION_PASS (R426): the inputs, the loop, the table compare, the run-ahead loop, the meters, the heartbeat. -/
def execSupervisionPass (p10 tj : Nat) (temps : List (Nat × Bool)) (inlet outlet : Nat) (lost : List Nat) (s : State) :
    Host.Outcome State Fault Refusal :=
  if tickNow s < s.cup.passAt || !(s.mode == .ready || s.mode == .quenching || s.mode == .stopped) then .next s else
  let s1 := sampleTiers (s.withCup { s.cup with p10 := p10, tj := tj, passAt := s.cup.passAt + 10000 }) temps
  let s2 := compareUnits (vfLoop (sampleCoolant s1 inlet outlet)) lost
  let s3 := closeArmed ((List.range 64).foldl distanceLoop s2)
  .next (setReg s3 CUP_WDT_HEART (tickNow s))

/-- A part's score as the update finds it, and the events of a rise (R453, R454). -/
def scorePart (s : State) (u : Nat) : State :=
  let v := rd s (CUP_RISK_SCORE u)
  let old := bits v 0 8
  let new := min 255 (rd s (CUP_RISK_ACC u) / 65536)
  let s1 := setReg s (CUP_RISK_SCORE u) (new + 256 * max (bits v 8 8) new)
  let seen := spGet s.cup.watched u 0 == 1
  let watch := decide (64 ≤ new) && !seen
  let keep := watch || (seen && decide (48 ≤ new))
  let s2 := s1.withCup { s1.cup with watched := spPut s1.cup.watched u (b2n keep) 0 }
  let s3 := if watch then logCup s2 0x0810 [u, new] else s2
  if 128 ≤ new ∧ old < 128 then logCup s3 0x0811 [u, new] else s3

/-- The lane loop for one lane of an up link (R452): its corrected symbols over the last 60 s, of so many symbols. -/
def laneLoop (s : State) (h lane corrected total : Nat) : State :=
  let ctl := rd s CUP_LANE_CTRL
  if !linkUp s h || decide (corrected * 10 ^ bits ctl 8 4 ≤ total) then s else
  let st := rd s (SPR_STATUS (h / 2) (h % 2))
  let full := bits st 3 5 == linkLanes s h && bits st 8 5 == linkLanes s h
  let recent := match s.cup.sparedAt.find? (fun e => e.1 == h) with
    | some e => decide (tickNow s < e.2 + 3600 * ticksPerSecond)
    | none => false
  let spare := bit ctl 0 && full && !recent
  let s1 := logLink s 0x0809 h [lane, Config.laneRate corrected total % 2 ^ 32, b2n spare]
  if !spare then s1 else
  let s2 := cntAdd (s1.withCup { s1.cup with sparedAt := spIns (spDel s1.cup.sparedAt h) h (tickNow s) }) CUP_LANE_SPARED_CNT_LO 1
  let s3 := setLink s2 h (fun l => { l with spared := l.spared ||| 2 ^ lane })
  enterRetrain s3 h 4 lane

/-- RISK_UPDATE (R426, R452, R454): once per second the scores, and the lane loop over the lanes' rates. -/
def execRiskUpdate (lanes : List (Nat × Nat × Nat × Nat)) (s : State) : Host.Outcome State Fault Refusal :=
  if tickNow s < s.cup.riskAt || !(s.mode == .ready || s.mode == .quenching || s.mode == .stopped) then .next s else
  let s1 := s.withCup { s.cup with riskAt := s.cup.riskAt + ticksPerSecond }
  let s2 := (List.range 300).foldl scorePart s1
  .next (lanes.foldl (fun st e => laneLoop st (e.1 % 36) (e.2.1 % 16) e.2.2.1 e.2.2.2) s2)

/-- RISK_DECAY (R453): once per hour every accumulator becomes floor(A * 15 / 16). -/
def execRiskDecay (s : State) : Host.Outcome State Fault Refusal :=
  if tickNow s < s.cup.decayAt || !(s.mode == .ready || s.mode == .quenching || s.mode == .stopped) then .next s else
  let s1 := s.withCup { s.cup with decayAt := s.cup.decayAt + 3600 * ticksPerSecond }
  .next ((List.range 300).foldl (fun st u => setReg st (CUP_RISK_ACC u) (rd st (CUP_RISK_ACC u) * 15 / 16)) s1)

/-- A write of CUP_VF_FLOOR, or with `ceil` of CUP_VF_CEIL (R447, R450). -/
def vfLimitWrite (s : State) (src : Src) (ceil : Bool) (v : Nat) : State :=
  let o := if ceil then CUP_VF_CEIL else CUP_VF_FLOOR
  let k := bits v 0 6
  let bad := s.integ.det || decide (48 < k) || (if ceil then decide (k < vfFloor s) else decide (vfCeil s < k))
  if bad then logDiscard s src o 4 8 else plainWrite s src o k

/-- CUP_VF_LIMIT_WRITE (R447). -/
def execCupVfLimitWrite (src : Src) (ceil : Bool) (v : Word) (s : State) : Host.Outcome State Fault Refusal :=
  if !isReady s then .next (emit s (.unsupported src)) else .next (vfLimitWrite s src ceil v.toNat)

/-- CUP_RISK_ACC_WRITE (R453): the fault manager writes a part's accumulator. -/
def execCupRiskAccWrite (src : Src) (u : Nat) (v : Word) (s : State) : Host.Outcome State Fault Refusal :=
  if !isReady s then .next (emit s (.unsupported src))
  else if 300 ≤ u then .next (logDiscard s src (CUP_RISK_ACC u) 4 7)
  else .next (plainWrite s src (CUP_RISK_ACC u) v.toNat)

end Sys2Proof.Machine
end

