-- ==== Sys2Proof/Machine/RegWrite.lean ====
section
/-! DEFINITION. A 4-byte write of any register, under the register's own rule (R500, R506, R507 and the field tables). -/
namespace Sys2Proof.Machine
open Reg

/-- A write refused by the register's own rule (Table 14.4, reason 8). -/
def refuseWrite (s : State) (src : Src) (off : Nat) : State := logDiscard s src off 4 8

/-- A plain write where a condition holds; refused by the register's rule otherwise. -/
def checkedWrite (s : State) (src : Src) (off v : Nat) (ok : Bool) : State :=
  if ok then plainWrite s src off v else refuseWrite s src off

/-- CRU_Q_CTRL (Table 3.13): ENABLE with SIZE, RESET and RESUME. -/
def qCtrlWrite (s : State) (src : Src) (k v : Nat) : State :=
  let o := qReg k 0
  let old := rd s o
  let on_ := bit old 0
  let size := bits v 4 4
  let q := qOf s k
  let bad := (on_ && size != bits old 4 4) || (bit v 2 && (!q.halted || q.poisonedHead)) || decide (8 < size) ||
    (bit v 0 && !on_ && !enableOk s k (1 + size * 16))
  if bad then refuseWrite s src o else
  let cmd := bit v 1 || bit v 2
  let s1 := if cmd then logAccepted s src 0 o (v &&& 0xF7) else s
  let s2 := match on_, bit v 0 with
    | false, true => queueEnable s1 src k size (!cmd)
    | true, false => queueDisable s1 src k (!cmd)
    | false, false => if bits old 4 4 = size then s1 else logAccIf (!cmd) (setReg s1 o (size * 16)) src o (size * 16)
    | true, true => s1
  let s3 := if bit v 1 then orderReset s2 src k false else s2
  if bit v 2 then resume s3 src k false else s3

/-- The CRU block: queue sets and semaphores (Table 3.12, Table 3.13). -/
def writeCru (s : State) (src : Src) (off v : Nat) : State :=
  let c := (off - 0x1000000) / 0x10000
  let r := off % 0x10000
  if 0x4000 ≤ r ∧ r < 0x6000 then semWrite s src c ((r - 0x4000) / 0x100) (r % 0x100 / 4) v else
  let k := c * 128 + (r - 0x1000) / 0x40
  match r % 0x40 with
  | 0 => qCtrlWrite s src k v
  | 0x18 => flush s src k v
  | 0x24 => plainWrite s src off (v / 32 * 32)
  | 0x28 => plainWrite s src off v
  | 0x2C => checkedWrite s src off (v &&& 0x7FF003F) (decide (bits v 0 4 ≤ 11))
  | 0x30 => cqHeadWrite s src k v
  | _ => checkedWrite s src off v (!qEnabled s k)

/-- The bounds of the fettle schedule (R372, Table 10.7). -/
def ftlWrite (s : State) (src : Src) (off v : Nat) : State :=
  let period := if off = CUP_FTL_PERIOD then v else rd s CUP_FTL_PERIOD
  let dead := if off = CUP_FTL_DEADLINE then v else rd s CUP_FTL_DEADLINE
  checkedWrite s src off v (decide (600 ≤ period) && decide (period ≤ dead) && decide (dead ≤ 86400))

/-- CUP_ING_CTRL: ENABLE, AUTO and SLICE, and its self-clearing bits (Table 11.6). -/
def ingCtrlWrite (s : State) (src : Src) (v : Nat) : State :=
  if s.ingot.busy ≠ 0 ∧ (bit v 3 ∨ bit v 4) then refuseWrite s src CUP_ING_CTRL else
  let cmd := bits v 2 4 != 0
  let s1 := if cmd then logAccepted s src 0 CUP_ING_CTRL (v &&& 0xF3F) else s
  let s2 := ingEnable s1 src v (!cmd)
  let s3 := if bit v 5 then abandonWrite s2 src false else s2
  let s4 := if bit v 2 then cutWrite s3 src false else s3
  let s5 := if bit v 3 then restoreWrite s4 src false else s4
  if bit v 4 then loadWrite s5 src false else s5

/-- CUP_INT_CTRL: VERIFY and CLR_CHOICE (Table 10.7). -/
def intCtrlWrite (s : State) (src : Src) (v : Nat) : State :=
  let s1 := if bit v 1 then logAccepted s src 0 CUP_INT_CTRL (v % 4) else s
  let s2 := setVerify s1 src (bit v 0) (!bit v 1)
  if bit v 1 then clearChoice s2 src false else s2

/-- The CUP block without its locked registers. -/
def writeCup (s : State) (src : Src) (off v : Nat) : State :=
  if off = CUP_VF_FLOOR then vfLimitWrite s src false v
  else if off = CUP_VF_CEIL then vfLimitWrite s src true v
  else if off = CUP_POWER_LIMIT then
    checkedWrite s src off (bits v 0 12) (decide (1000 ≤ bits v 0 12) && decide (bits v 0 12 ≤ 2400))
  else if off = CUP_T_TARGET then
    checkedWrite s src off (bits v 0 7) (decide (70 ≤ bits v 0 7) && decide (bits v 0 7 ≤ 95))
  else if off = CUP_LANE_CTRL then
    checkedWrite s src off (v &&& 0xF01) (decide (3 ≤ bits v 8 4) && decide (bits v 8 4 ≤ 12))
  else if off = CUP_INT_CTRL then intCtrlWrite s src v
  else if off = CUP_INT_TAINT then taintClear s src v
  else if off = CUP_ASSAY_CTRL then checkedWrite s src off (v &&& 0x1FFFF) (bits v 0 16 != 0)
  else if off = CUP_FTL_PERIOD ∨ off = CUP_FTL_DEADLINE then ftlWrite s src off v
  else if off = CUP_FTL_RETRY then checkedWrite s src off v (decide (1 ≤ v) && decide (v ≤ 3600))
  else if off = CUP_ING_CTRL then ingCtrlWrite s src v
  else if off = CUP_ING_TARGET ∨ off = CUP_ING_LOADSRC then
    plainWrite s src off (if off = CUP_ING_LOADSRC then v &&& 0x800001FF else v)
  else if off = CUP_ING_SHARE then
    checkedWrite s src off (bits v 0 7) (!ingOn s && decide (1 ≤ bits v 0 7) && decide (bits v 0 7 ≤ 64))
  else if 0x1B000 ≤ off ∧ off < 0x1C000 then
    let m := match regRow off with
      | some r => r.mask
      | none => 0
    checkedWrite s src off (v &&& m) (!ingOn s)
  else if off = CUP_QUENCH_ARM then quenchArm s src v
  else if off = CUP_QUENCH_GO then quenchGo s src v
  else if off = CUP_MOD_CTRL then plainWrite s src off (v % 2)
  else plainWrite s src off v

/-- The HLG block: CLEAR and ALERT, and the vector (Table 12.13). -/
def writeHlg (s : State) (src : Src) (off v : Nat) : State :=
  if off ≠ HLG_CTRL then plainWrite s src off (v % 2048) else
  let n := v &&& 0x3FFF0000
  if !bit v 0 then plainWrite s src off n
  else if s.hlog.clearing.isSome then refuseWrite s src off
  else logAccepted (clearLog (setReg s off n) src) src 0 off (n + 1)

/-- TND_CTX_CTRL (Table 6.6): its plain fields, then ENABLE, STOP and APPLY_CSET. -/
def ctxCtrlWrite (s : State) (src : Src) (x v : Nat) : State :=
  let o := TND_CTX_CTRL x
  let old := rd s o
  let n := v &&& 0x1FFFF3
  let bad := (ctxState s x != 0 && bits n 8 4 != bits old 8 4) || (!bit n 0 && bit old 0 && ctxState s x != 3)
  if bad then refuseWrite s src o else
  let s1 := if n = old ∧ ¬ bit v 2 then s else logAccepted s src 0 o (v &&& 0x1FFFF7)
  let s2 := setReg s1 o (n / 4 * 4 + old % 4)
  let s3 := if bit n 1 = bit old 1 then s2 else if bit n 1 then ctxStop s2 src x false else ctxUnstop s2 src x false
  let s4 := if bit n 0 = bit old 0 then s3 else if bit n 0 then ctxEnable s3 src x false else ctxDisable s3 src x false
  if bit v 2 then applyCset s4 src x false else s4

/-- A staged word of a context's CSET (R235): recorded where it changes the staging copy. -/
def csetStage (s : State) (src : Src) (x w v : Nat) : State :=
  if stagedWord s x w = v then s else
  let o := TND_CTX_CSET x w
  logAccepted (s.withTnd { s.tnd with staged := spIns (spDel s.tnd.staged (8 * x + w)) (8 * x + w) v }) src 0 o v

/-- TND_SCHED_CTRL: EN, SWAP, and REFUSED as W1C (R241). -/
def schedCtrlWrite (s : State) (src : Src) (v : Nat) : State :=
  let old := rd s TND_SCHED_CTRL
  let n := v % 2 + 2 * b2n (bit v 1 || bit old 1) + 4 * b2n (bit old 2 && !bit v 2)
  if n = old ∧ ¬ bit v 1 then s else logAccepted (setReg s TND_SCHED_CTRL n) src 0 TND_SCHED_CTRL n

/-- The context registers of the TND block (Table 6.6). -/
def writeCtx (s : State) (src : Src) (off v : Nat) : State :=
  let x := (off - 0x30100) / 0x80
  let r := (off - 0x30100) % 0x80
  if r = 0 then ctxCtrlWrite s src x v
  else if 0x10 ≤ r ∧ r < 0x30 then csetStage s src x ((r - 0x10) / 4) v
  else if 0x30 ≤ r ∧ r < 0x48 then checkedWrite s src off v (batchOf s x).pending.isNone
  else if r = 0x48 then btFlip s src x (v % 2)
  else if r = 0x54 then plainWrite s src off (v % 65536)
  else plainWrite s src off v

/-- The TND block without TND_CFG. -/
def writeTnd (s : State) (src : Src) (off v : Nat) : State :=
  if off = TND_SCHED_CTRL then schedCtrlWrite s src v
  else if 0x30100 ≤ off ∧ off < 0x30900 then writeCtx s src off v
  else if 0x31000 ≤ off ∧ off < 0x32000 then
    checkedWrite s src off (v &&& (if off % 8 = 0 then 0x7FFFF else 0xFFF)) ((off - 0x31000) / 0x800 != s.tnd.bank)
  else if off = TND_MOVE_REQ then
    if bit v 31 then orderMove (logAccepted (setReg s off (v % 256)) src 0 off (2 ^ 31 + v % 256)) (v % 256) false
    else plainWrite s src off (v % 256)
  else if off % 16 = 0 then ssemWrite s src ((off - 0x32000) / 16) v
  else plainWrite s src off (v &&& 0x1F3F)

/-- A configuration write to a group that is not DISABLED (R301): event 0x0407 with condition 11, and discarded. -/
def grpDiscard (s : State) (src : Src) (g off : Nat) : State :=
  refuseWrite (logSrc s 0x0407 src [g, off, 11, srcDatum src]) src off

/-- ALY_GRP_CTRL (Table 8.7). -/
def grpCtrlWrite (s : State) (src : Src) (g v : Nat) : State :=
  let o := ALY_GRP_CTRL g
  let old := rd s o
  let cmd := bit v 1 || bit v 2
  if 16 < bits v 21 5 then refuseWrite s src o
  else if grpOn s g then
    if grpCtrlBits v / 2 ≠ grpCtrlBits old / 2 ∨ (¬ bit v 0 ∧ ¬ bit v 1 ∧ ¬ grpIdle s g) then grpDiscard s src g o else
    let s1 := if cmd then logAccepted s src 0 o (v % 2 ^ 26) else s
    let s2 := if bit v 2 then grpCancelWrite s1 src g false else s1
    let s3 := if bit v 1 then grpAbort s2 src g false else s2
    if bit v 0 then s3 else grpDisable s3 src g (!cmd)
  else if cmd then refuseWrite s src o
  else if bit v 0 then grpEnable s src g v
  else plainWrite s src o (grpCtrlBits v)

/-- The ALY block. -/
def writeAly (s : State) (src : Src) (off v : Nat) : State :=
  let g := (off - 0x40000) / 0x100
  if off % 0x100 = 0 then grpCtrlWrite s src g v
  else if grpOn s g then grpDiscard s src g off
  else match off % 0x100 with
    | 0x8 | 0xC => plainWrite s src off (v % 65536)
    | 0x10 => plainWrite s src off (v &&& 0x1F01FFFF)
    | 0x14 => checkedWrite s src off (bits v 0 5) (decide (10 ≤ bits v 0 5) && decide (bits v 0 5 ≤ 18))
    | _ => plainWrite s src off v

/-- Whether a Ladle item of a context is accepted and incomplete (R152). -/
def ladleBusy (s : State) (x : Nat) : Bool :=
  s.queues.any (fun e => qCtx e.1 == x && e.2.items.any (fun i => i.op == 0x40))

/-- LDL_SWP_SCALE (R224): a power of two from 1 to the ceiling. -/
def scaleWrite (s : State) (src : Src) (v : Nat) : State :=
  if powScale v 0x3F800000 (rd s LDL_SWP_SCALE_MAX) then plainWrite s src LDL_SWP_SCALE v else refuseWrite s src LDL_SWP_SCALE

/-- The sweep registers of the LDL block (Table 5.11): none is written while an item of Table 5.4 is in the way. -/
def writeSweep (s : State) (src : Src) (off v : Nat) : State :=
  if off = LDL_SWP_SCALE_MAX then scaleMaxWrite s src v
  else if sweepBusy s then discardBusy s src (sweepOwner s) off
  else if off = LDL_SWP_CTRL then plainWrite s src off (v &&& 0xF07)
  else if off = LDL_SWP_SCALE then scaleWrite s src v
  else if off = LDL_SWP_INTERVAL then checkedWrite s src off v (decide (1 ≤ v) && decide (v ≤ 1048576))
  else if off = LDL_SWP_SPK_CTRL then
    checkedWrite s src off (v &&& 0xFFFF001F) (decide (1 ≤ bits v 0 5) && decide (bits v 0 5 ≤ 16))
  else if off = LDL_SWP_SPK_K then checkedWrite s src off v (decide (0 < v) && decide (v < 0x7F800000))
  else if off = LDL_SWP_SPK_SEEN then plainWrite s src off (v % 65536)
  else plainWrite s src off v

/-- The slag registers of a context (Table 5.11). -/
def writeSlag (s : State) (src : Src) (off v : Nat) : State :=
  let x := (off - 0x56100) / 0x20
  match off % 0x20 with
  | 0xC => if bit v 0 then slagNfClear s src x else s
  | 0 => if sweepBusy s then discardBusy s src x off else checkedWrite s src off v (v % 64 == 0)
  | _ => if sweepBusy s then discardBusy s src x off else plainWrite s src off v

/-- The LDL block without LDL_CFG. -/
def writeLdl (s : State) (src : Src) (off v : Nat) : State :=
  if 0x51000 ≤ off ∧ off < 0x52000 then
    let x := (off - 0x51000) / 0x40
    match off % 0x40 with
    | 0 => checkedWrite s src off v (v % 65536 == 0)
    | 0xC => plainWrite s src off (v % 2)
    | 0x2C => checkedWrite s src off v (decide (rd s (LDL_KV_SPILL_LO x) ≤ v))
    | _ => plainWrite s src off v
  else if 0x52000 ≤ off ∧ off < 0x53000 then
    let x := (off - 0x52000) / 0x80
    if ladleBusy s x then discardBusy s src x off
    else plainWrite s src off (if off % 16 = 8 then v % 4 else v)
  else if off < 0x56100 then writeSweep s src off v
  else writeSlag s src off v

/-- The FLK block without its locked registers. -/
def writeFlk (s : State) (src : Src) (off v : Nat) : State :=
  if off = FLK_CTRL then winEnable s src v
  else if off = FLK_WIN_SLICE then plainWrite s src off (v % 65536)
  else if off < 0x80200 then plainWrite s src off (v % 16)
  else if off < 0x81000 then
    plainWrite s src off (if off % 16 = 8 then v % 8 else if off % 16 = 0xC then v % 65536 else v)
  else
    let t := (off - 0x81000) / 0x20
    match off % 0x20 with
    | 0 => trigWrite s src t v
    | 4 => checkedWrite s src off v (!bit (rd s (FLK_TRIG_CTRL t)) 0 && v % 4 == 0)
    | 0xC => checkedWrite s src off (v &&& 0xFFFF1FFF) (!bit (rd s (FLK_TRIG_CTRL t)) 0)
    | _ => checkedWrite s src off v (!bit (rd s (FLK_TRIG_CTRL t)) 0)

/-- The MTR block. -/
def writeMtr (s : State) (src : Src) (off v : Nat) : State :=
  if off = MTR_MAP_GO then (if bit v 0 then mapGo s src else s)
  else if off = MTR_CLOSE_GO then (if bit v 0 then closeGo s src else s)
  else plainWrite s src off v

/-- SPR_CTRL (Table 7.8): LP_EN is refused in deterministic mode (R450). -/
def sprCtrlWrite (s : State) (src : Src) (h v : Nat) : State :=
  let o := SPR_CTRL (h / 2) (h % 2)
  let old := rd s o
  let n := v &&& 0xFFFF0005
  if (s.integ.det && bit v 2) || bits v 16 16 == 0 then refuseWrite s src o else
  let s1 := if n = old ∧ ¬ bit v 1 then s else logAccepted s src 0 o (n + 2 * b2n (bit v 1))
  let s2 := setReg s1 o (n / 2 * 2 + old % 2)
  let s3 := if bit n 0 || bit old 0 then linkEnable s2 src h (bit n 0) false else s2
  if bit v 1 then enterRetrain s3 h 5 0 else s3

/-- SPR_RT_CTRL: the bank addressed, and CHECK (R278). -/
def rtCtrlWrite (s : State) (src : Src) (v : Nat) : State :=
  let n := rd s SPR_RT_CTRL / 4 * 4 + v % 4
  if bit v 4 then rtCheck (setReg s SPR_RT_CTRL n) src [] else plainWrite s src SPR_RT_CTRL n

/-- The SPR block without its locked registers. -/
def writeSpr (s : State) (src : Src) (off v : Nat) : State :=
  if off < 0x148000 then
    let h := (off - 0x100000) / 0x2000
    if off % 0x2000 = 4 then sprCtrlWrite s src h v else fenceChange s src (some h) v
  else if off = SPR_SELF then checkedWrite s src off (v &&& 0x7FFFFFFF) (isSpare s)
  else if off = SPR_FENCE then fenceChange s src none v
  else if off = SPR_TAKEOVER then takeover s src v
  else if off = SPR_RT_CTRL then rtCtrlWrite s src v
  else if off = SPR_RT_DATA then rtAccess s src true v
  else plainWrite s src off (v % 65536)

/-- A locked register (R12, R507): written only by the register program, before the lock. -/
def writeLocked (s : State) (src : Src) (off v mask : Nat) : State :=
  if s.cup.locked then logDiscard s src off 4 6
  else
    let ok := if off = CUP_DET_POINT then decide (bits v 0 6 ≤ 48)
      else if off = FLK_WIN_BACK_LO then v % 2 ^ 30 == 0
      else if off = FLK_DIR_BASE_LO then v % 2 ^ 26 == 0
      else if off = FLK_CACHE_SIZE then bits v 0 4 == 0 || (decide (6 ≤ bits v 0 4) && decide (bits v 0 4 ≤ 14))
      else true
    checkedWrite s src off (v &&& mask) ok

/-- A 4-byte write of a writable register. -/
def writeBlock (s : State) (src : Src) (off v mask : Nat) : State :=
  if off < 0x10000 then plainWrite s src off (v &&& mask)
  else if off < 0x20000 then writeCup s src off v
  else if off < 0x30000 then writeHlg s src off v
  else if off < 0x40000 then writeTnd s src off v
  else if off < 0x50000 then writeAly s src off v
  else if off < 0x60000 then writeLdl s src off v
  else if off < 0x78000 then
    checkedWrite s src off (v &&& 0x1FFFF) (decide (1 ≤ bits v 0 16) && decide (bits v 0 16 ≤ 720))
  else if off < 0x90000 then writeFlk s src off v
  else if off < 0x100000 then writeMtr s src off v
  else if off < 0x1000000 then writeSpr s src off v
  else writeCru s src off v

/-- A 4-byte aligned write at an offset of BAR0 (R500, R507). -/
def regWrite (s : State) (src : Src) (off v : Nat) : State :=
  match regRow off with
  | none => logDiscard s src off 4 7
  | some r => match r.acc with
    | .ro | .rc => logDiscard s src off 4 5
    | .rwl => writeLocked s src off v r.mask
    | .rw | .w1c => writeBlock s src off v r.mask

end Sys2Proof.Machine
end

