-- ==== Sys2Proof/Machine/RegAccess.lean ====
section
/-! DEFINITION. Accesses of every width to BAR0, BAR2 and BAR4 (R497 to R514). -/
namespace Sys2Proof.Machine
open Reg

/-- The key of a source's high-half latch (R503). -/
def latchKey (src : Src) : Nat := (srcKind src).1 + 8 * (srcKind src).2

/-- The low offset of the counter pair that an offset belongs to (R501). -/
def pairOf (off : Nat) : Option Nat :=
  match regRow off with
  | some r => if r.kind == .counter || r.kind == .clock then some (off / 8 * 8) else none
  | none => none

/-- A 4-byte aligned read (Table 14.3): its value. A counter's low half latches the high half; a high half gives the
latched one, and clears the latch (R502, R503); an entry of the routing table advances the index (R296). -/
def regRead4 (s : State) (src : Src) (off : Nat) : State × Nat :=
  let v := regValue s off
  let key := latchKey src
  match blockRows off, regRow off, pairOf off with
  | none, _, _ => (s, 0xFFFFFFFF)
  | some _, none, _ => (s, 0)
  | some _, some _, some lo =>
    if off = lo then
      ({ s with latches := spIns (spDel s.latches key) key (lo, BitVec.ofNat 32 (regValue s (lo + 4))) }, v)
    else
      let held := match s.latches.find? (fun e => e.1 == key) with
        | some e => if e.2.1 = lo then e.2.2.toNat else v
        | none => v
      ({ s with latches := spDel s.latches key }, held)
  | some _, some _, none =>
    if off = SPR_RT_DATA then
      let b := bits (rd s SPR_RT_CTRL) 0 2
      let n := bits (rd s SPR_RT_INDEX) 0 16
      (setReg s SPR_RT_INDEX ((n + 1) % 65536), routeEntry s b n)
    else (s, v)

/-- Ones in every byte of a width. -/
def allOnes (width : Nat) : Nat := 2 ^ (8 * width) - 1

/-- Aligned 4-byte reads in ascending order, the way in which a long read is performed (R502). -/
def regReadWords : Nat → State → Src → Nat → State × Nat
  | 0, s, _, _ => (s, 0)
  | n + 1, s, src, off =>
    let a := regRead4 s src off
    let b := regReadWords n a.1 src (off + 4)
    (b.1, a.2 + 2 ^ 32 * b.2)

/-- The alignment that an access needs: its width, or 4 for a long one, which is performed in words (R502). -/
def accessAlign (width : Nat) : Nat := if 8 < width then 4 else width

/-- A read of any width of BAR0 (R500, Table 14.3). -/
def regRead (s : State) (src : Src) (off width : Nat) : State × Nat :=
  if (blockRows off).isNone then (s, allOnes width)
  else if off % accessAlign width ≠ 0 then (logDiscard s src off width 3, allOnes width)
  else if width < 4 then
    if off / 4 * 4 = SPR_RT_DATA then (logDiscard s src off width 4, allOnes width)
    else (s, bits (if (regRow (off / 4 * 4)).isSome then regValue s (off / 4 * 4) else 0) (8 * (off % 4)) (8 * width))
  else if width = 4 then regRead4 s src off
  else if 8 < width then regReadWords (width / 4) s src off
  else match pairOf off with
    | some _ => (s, regValue s off + 2 ^ 32 * regValue s (off + 4))
    | none =>
      let a := regRead4 s src off
      let b := regRead4 a.1 src (off + 4)
      (b.1, a.2 + 2 ^ 32 * b.2)

/-- Aligned 4-byte writes in ascending order, the way in which a wide write is performed (R502). -/
def regWriteWords : Nat → State → Src → Nat → Nat → State
  | 0, s, _, _, _ => s
  | n + 1, s, src, off, v => regWriteWords n (regWrite s src off (v % 2 ^ 32)) src (off + 4) (v / 2 ^ 32)

/-- A write of any width to BAR0 (R500, Table 14.3). -/
def regWriteAny (s : State) (src : Src) (off width v : Nat) : State :=
  if (blockRows off).isNone then logDiscard s src off width 7
  else if width < 4 then logDiscard s src off width 1
  else if off % accessAlign width ≠ 0 then logDiscard s src off width 2
  else regWriteWords (width / 4) s src off v

/-- Sends the message of a pending vector whose entry is no longer masked (R514). -/
def unmaskMsix (s : State) (n : Nat) : State :=
  let o := 0x208000 + n / 32 * 4
  let w := spGet s.bar4 o (bar4Reset o)
  if w.getLsbD (n % 32) then
    toHost { s with bar4 := spPut s.bar4 o (w - BitVec.ofNat 32 (2 ^ (n % 32))) (bar4Reset o) } (.msix n)
  else s

/-- A 4-byte aligned write to the MSI-X structures of BAR4 (R514). -/
def bar4Word (s : State) (src : Src) (off v : Nat) : State :=
  if off < 0x208000 then
    let ctl := off % 16 == 12
    let s1 := { s with bar4 := spPut s.bar4 off (BitVec.ofNat 32 (if ctl then v % 2 else v)) (bar4Reset off) }
    if ctl && !bit v 0 then unmaskMsix s1 ((off - 0x200000) / 16) else s1
  else logDiscard s src off 4 (if off < 0x208100 then 5 else 7)

/-- A write of any width to BAR4: a doorbell, or a word of the MSI-X table (R514). -/
def bar4Write (s : State) (src : Src) (off width v : Nat) : State :=
  if off < 0x200000 then doorbellWrite s src off width v
  else if 0x208100 ≤ off then logDiscard s src off width 7
  else if width < 4 then logDiscard s src off width 1
  else if off % accessAlign width ≠ 0 then logDiscard s src off width 2
  else (List.range (width / 4)).foldl (fun st i => bar4Word st src (off + 4 * i) (bits v (32 * i) 32)) s

/-- REGISTER_WRITE (R502): a write to a register without a row of its own, in BAR0 or in BAR4. -/
def execRegisterWrite (src : Src) (bar4 : Bool) (off width v : Nat) (s : State) : Host.Outcome State Fault Refusal :=
  if !isReady s then .next (emit s (.unsupported src))
  else .next (orWait s (if bar4 then bar4Write s src off width v else regWriteAny s src off width v))

/-- COUNTER_LO_READ (R503). -/
def execCounterLoRead (src : Src) (off : Nat) (s : State) : Host.Outcome State Fault Refusal :=
  if !isReady s then .next (emit s (.unsupported src)) else
  let r := regRead s src off 4
  .next (emit r.1 (.readData src r.2 4 false))

/-- COUNTER_HI_READ (R502, R503). -/
def execCounterHiRead (src : Src) (off : Nat) (s : State) : Host.Outcome State Fault Refusal :=
  if !isReady s then .next (emit s (.unsupported src)) else
  let r := regRead s src off 4
  .next (emit r.1 (.readData src r.2 4 false))

/-- COUNTER_PAIR_READ (R502): both halves from one cycle. -/
def execCounterPairRead (src : Src) (off : Nat) (s : State) : Host.Outcome State Fault Refusal :=
  if !isReady s then .next (emit s (.unsupported src)) else
  let r := regRead s src off 8
  .next (emit r.1 (.readData src r.2 8 false))

/-- RC_READ (R502, R505): a register of access code RC is read and cleared. No register of this device carries the code,
so every offset answers under its own code. -/
def execRcRead (src : Src) (off : Nat) (s : State) : Host.Outcome State Fault Refusal :=
  if !isReady s then .next (emit s (.unsupported src)) else
  let r := regRead s src off 4
  let s1 := match regRow off with
    | some row => if row.acc == .rc then setReg r.1 off 0 else r.1
    | none => r.1
  .next (emit s1 (.readData src r.2 4 false))

/-- Whether an access may reach an extent of local addresses (R511): all mapped, and nothing of the own window beyond its
size. -/
def hostMapped (s : State) (a n : Nat) : Bool :=
  mappedSpan s 8 a (a + n) && (extents 128 a n).all (fun e => match region s e.1 with
    | .window f o => f != ownPos s || decide (o < winBytes s)
    | _ => true)

/-- A request to the window of another position, for an interface (R340). -/
def hostRequest (s : State) (src : Src) (tag kind a n : Nat) (data : List Byte) : State :=
  let l := s.ladle
  s.withLadle { l with nextReq := l.nextReq + 1
                       reqs := l.reqs ++ [⟨l.nextReq, 0, hostKey src, tag, kind, a, n, data, 1, none, none⟩] }

/-- A read of device memory for an interface (R512): one answer for local memory; for another position's window one for
each line, as RD_ONCE brings it. -/
def hostRead (s : State) (src : Src) (tag a n : Nat) : State :=
  if (extents 128 a n).any (fun e => foreign s e.1) then
    (extents 128 a n).foldl (fun st e =>
      if foreign st e.1 then hostRequest st src tag 12 e.1 e.2 []
      else
        let r := devRead st hostAgent e.1 e.2
        answerHost r.1 src tag (leNat r.2.1) e.2 (r.2.2 != 0)) s
  else
    let r := devRead s hostAgent a n
    answerHost r.1 src tag (leNat r.2.1) n (r.2.2 != 0)

/-- A write of bytes of device memory for an interface (R512): another position's window is written by WR, and a write of
part of a poisoned unit fails with reason 10. -/
def hostWrite (s : State) (src : Src) (a : Nat) (bs : List Byte) : State :=
  (pieces 128 (bs.length + 1) a bs).foldl (fun st e =>
    if foreign st e.1 then hostRequest st src 0 13 e.1 e.2.length e.2
    else
      let r := devWrite st hostAgent e.1 e.2
      if r.2 = 0 then r.1 else logDiscard r.1 src e.1 e.2.length 10) s

/-- Whether a span of addresses touches one of a kind. -/
def spanAny (a n : Nat) (p : Nat → Bool) : Bool := (extents 64 a n).any (fun e => p e.1)

/-- The runs of enabled bytes of a write, each with its offset (R512). -/
def enabledRuns : Nat → List (Option Byte) → List (Nat × List Byte)
  | _, [] => []
  | o, none :: t => enabledRuns (o + 1) t
  | o, some b :: t => match enabledRuns (o + 1) t with
    | (o', bs) :: r => if o' = o + 1 then (o, b :: bs) :: r else (o, [b]) :: (o', bs) :: r
    | [] => [(o, [b])]

/-- The local address of a BAR2 offset (R511). -/
def bar2Addr (s : State) (off : Nat) : Nat := 2 ^ 30 * bits (rd s GLB_BAR2_BASE) 0 18 + off % 2 ^ 38

/-- BAR2_READ (R511, R512). -/
def execBar2Read (off n : Nat) (s : State) : Host.Outcome State Fault Refusal :=
  let a := bar2Addr s off
  if !isReady s then .next (emit s (.unsupported .pcie))
  else if !hostMapped s a n then .next (emit (logDiscard s .pcie a n 9) (.unsupported .pcie))
  else .next (orWait s (hostRead s .pcie 0 a n))

/-- Why a write of device memory by an interface is discarded: the directory (R337), or the shakeout area (R147). -/
def memoryBarred (s : State) (a n : Nat) : Option Bool :=
  if spanAny a n (fun b => inDirectory s (ownAddr s b)) then some true
  else if spanAny a n (fun b => region s b == .shakeout) then some false
  else none

/-- BAR2_WRITE (R511, R512): the bytes whose enables are set. -/
def execBar2Write (off : Nat) (data : List (Option Byte)) (s : State) : Host.Outcome State Fault Refusal :=
  let a := bar2Addr s off
  let n := data.length
  if !isReady s then .next (emit s (.unsupported .pcie))
  else if !hostMapped s a n then .next (emit (logDiscard s .pcie a n 9) (.unsupported .pcie))
  else match memoryBarred s a n with
    | some true => .next (logSrc s 0x0316 .pcie (datum64 a ++ [srcDatum .pcie]))
    | some false => .next (logDiscard s .pcie a n 8)
    | none => .next (orWait s ((enabledRuns 0 data).foldl (fun st r => hostWrite st .pcie (a + r.1) r.2) s))

/-- GLB_BAR2_BASE_WRITE (R513): the window moves for the requests that arrive after the write. -/
def execGlbBar2BaseWrite (src : Src) (v : Word) (s : State) : Host.Outcome State Fault Refusal :=
  if !isReady s then .next (emit s (.unsupported src))
  else .next (plainWrite s src GLB_BAR2_BASE (v.toNat &&& 0x3FFFF))

end Sys2Proof.Machine
end

