-- ==== Sys2Proof/Machine/Profile.lean ====
section
/-! DEFINITION. The pattern image, its checks, and the application of a profile at a quench or cold start (R428 to R433,
R436, R444, R445, R450, R387). -/
namespace Sys2Proof.Machine
open Reg

/-- The bytes of an image, as numbers by offset. -/
abbrev ImageBytes := Nat → Nat

/-- A little-endian number of an image. -/
def imgLe (b : ImageBytes) (i n : Nat) : Nat := leNat ((List.range n).map (fun j => BitVec.ofNat 8 (b (i + j))))
/-- A run of bytes. -/
def imgBytes (b : ImageBytes) (i n : Nat) : List Nat := (List.range n).map (fun j => b (i + j))
/-- The image's length, with its trailer (Table 12.1). -/
def imgLength (b : ImageBytes) : Nat := imgLe b 8 4
/-- The number of sections. -/
def imgSections (b : ImageBytes) : Nat := b 16
/-- The number of profiles. -/
def imgProfiles (b : ImageBytes) : Nat := b 17
/-- DEFAULT_PROF. -/
def imgDefault (b : ImageBytes) : Nat := b 18
/-- SIGNED. -/
def imgSigned (b : ImageBytes) : Bool := bit (b 19) 0

/-- Section n of the directory (R428): its type, index, offset, length and CRC. -/
def imgSection (b : ImageBytes) (n : Nat) : Nat × Nat × Nat × Nat × Nat :=
  let o := 256 + 16 * n
  (imgLe b o 2, b (o + 2), imgLe b (o + 4) 4, imgLe b (o + 8) 4, imgLe b (o + 12) 4)
/-- The offset and length of the section with a type and index; only type 4 has an index. -/
def findSection (b : ImageBytes) (ty ix : Nat) : Option (Nat × Nat) :=
  ((List.range (imgSections b)).map (imgSection b)).findSome? (fun e =>
    if e.1 = ty ∧ (ty ≠ 4 ∨ e.2.1 = ix) then some (e.2.2.1, e.2.2.2.1) else none)

/-- The largest length of a section by type (Table 12.2). -/
def sectionLimit : Nat → Nat
  | 1 => 0x800000
  | 2 => 0x1000
  | 3 => 0x100000
  | 4 => 0x80000
  | _ => 0

/-- Whether the header and the directory keep R428 and R429, in `n` bytes. -/
def imgWellFormed (b : ImageBytes) (n : Nat) : Bool :=
  let len := imgLength b
  let secs := (List.range (imgSections b)).map (imgSection b)
  let count (ty : Nat) (p : Nat → Bool) : Nat := secs.countP (fun e => e.1 == ty && p e.2.1)
  imgLe b 0 4 == 0x4950584B && imgLe b 4 2 == 1 && imgLe b 6 2 == 9 && len % 4096 == 0 && decide (8192 ≤ len) &&
  decide (len ≤ 0x1000000) && decide (len ≤ n) && decide (1 ≤ imgSections b) && decide (imgSections b ≤ 32) &&
  decide (1 ≤ imgProfiles b) && decide (imgProfiles b ≤ 8) && decide (imgDefault b < imgProfiles b) && decide (b 19 < 2) &&
  (imgBytes b 20 236).all (· == 0) &&
  (List.range (imgSections b)).all (fun i => b (256 + 16 * i + 3) == 0) &&
  secs.all (fun e => e.2.2.1 % 4096 == 0 && decide (4096 ≤ e.2.2.1) && decide (e.2.2.1 + e.2.2.2.1 ≤ len - 4096) &&
    decide (e.2.2.2.1 ≤ sectionLimit e.1) && decide (1 ≤ e.1) && decide (e.1 ≤ 4)) &&
  (secs.zipIdx.all (fun e => secs.zipIdx.all (fun f => e.2 == f.2 ||
    decide (e.1.2.2.1 + e.1.2.2.2.1 ≤ f.1.2.2.1) || decide (f.1.2.2.1 + f.1.2.2.2.1 ≤ e.1.2.2.1)))) &&
  [1, 2, 3].all (fun ty => count ty (fun _ => true) == 1) &&
  (List.range (imgProfiles b)).all (fun i => count 4 (· == i) == 1) && count 4 (fun _ => true) == imgProfiles b

/-- Whether every section's CRC matches (R428). -/
def imgCrcs (b : ImageBytes) : Bool :=
  (List.range (imgSections b)).all (fun n =>
    let e := imgSection b n
    crc32c (imgBytes b e.2.2.1 e.2.2.2.1) == e.2.2.2.2)

/-- The stored DIGEST (R430). -/
def imgDigest (b : ImageBytes) : List Nat := imgBytes b (imgLength b - 4096) 48
/-- Whether DIGEST matches the image. -/
def imgDigestOk (b : ImageBytes) : Bool := sha384 (imgBytes b 0 (imgLength b - 4096)) == imgDigest b

/-- The signature check of R431, with the key fuses as they are. -/
def imgSignatureOk (s : State) (b : ImageBytes) : Bool :=
  if !s.cup.fused then true
  else if !imgSigned b then !s.cup.require
  else
    let t := imgLength b - 4096
    let num (i : Nat) : Nat := beNat (imgBytes b (t + i) 48)
    (sha384 (imgBytes b (t + 48) 96)).map (BitVec.ofNat 8) == s.cup.fuseHash &&
    ecdsaVerify (sha384 (imgDigest b)) (num 48) (num 96) (num 144) (num 192)

/-- The check of Table 12.4 steps 3 and 4: 0 for a valid image in `n` bytes, or the cause of R436, 2 to 5. -/
def imgVerdict (s : State) (b : ImageBytes) (n : Nat) : Nat :=
  if !imgWellFormed b n then 2
  else if !imgCrcs b then 3
  else if !imgDigestOk b then 4
  else if !imgSignatureOk s b then 5
  else 0

/-- The lengths of a profile's last two parts: NREG and NEARLY (Table 12.3). -/
def profCounts (b : ImageBytes) (o : Nat) : Nat × Nat := (imgLe b (o + 24) 2, imgLe b (o + 26) 2)
/-- An entry of the register program: offset, value, mask. -/
def profEntry (b : ImageBytes) (o i : Nat) : Nat × Nat × Nat :=
  let a := o + 3136 + 12 * i
  (imgLe b a 4, imgLe b (a + 4) 4, imgLe b (a + 8) 4)

/-- Whether a register program may name an offset (R433). -/
def programMay (off : Nat) : Bool :=
  match regRow off with
  | none => false
  | some r =>
    (r.acc == .rw || r.acc == .rwl) &&
    !(off == SPR_SYSTEM || off == SPR_TOPO || off == SPR_SELF || off == SPR_FENCE) &&
    !(decide (0x100000 ≤ off) && decide (off < 0x148000) && off % 0x2000 == 8) &&
    !(decide (0x30100 ≤ off) && decide (off < 0x30900) && (off % 0x80 == 0 || (decide (0x10 ≤ off % 0x80) && decide (off % 0x80 < 0x30)))) &&
    !(decide (0x1000000 ≤ off) && decide (0x1000 ≤ off % 0x10000) && decide (off % 0x10000 < 0x3000)) &&
    !(off == CUP_QUENCH_ARM || off == CUP_QUENCH_GO)

/-- Whether a profile keeps R432 and R433. -/
def profileOk (b : ImageBytes) (ix : Nat) : Bool :=
  match findSection b 4 ix with
  | none => false
  | some (o, len) =>
    let (nreg, nearly) := profCounts b o
    let f (i : Nat) : Nat := b (o + i)
    let power := imgLe b (o + 22) 2
    decide (nreg ≤ 16384) && decide (nearly ≤ 4096) && len == 64 + 1024 + 2048 + 12 * nreg + 4 * nearly &&
    decide (f 16 < 3) && decide (f 17 < 2) && decide (f 18 ≤ f 19) && decide (f 19 ≤ 48) && decide (f 20 ≤ 48) &&
    decide (70 ≤ f 21) && decide (f 21 ≤ 95) && decide (1000 ≤ power) && decide (power ≤ 2400) &&
    (imgBytes b (o + 28) 36).all (· == 0) &&
    (List.range 16).all (fun x =>
      let w (i : Nat) : Nat := imgLe b (o + 64 + 64 * x + 4 * i) 4
      w 0 % 4 == 0 && decide (8 ≤ w 9) && decide (w 9 ≤ 1920) && decide (8 ≤ w 10) && decide (w 10 ≤ 1920) &&
      [11, 12, 13, 14, 15].all (fun i => w i == 0)) &&
    (List.range nreg).all (fun i => programMay (profEntry b o i).1) &&
    (List.range nearly).all (fun i => decide (imgLe b (o + 3136 + 12 * nreg + 4 * i) 4 < 2 ^ 24))

/-- The bytes of the cached image. -/
def cachedBytes (s : State) : ImageBytes := fun i => (spGet s.cup.image i 0#8).toNat

/-- Step b of Table 12.6: the locked registers outside the SYSTEM section at their reset values, and unlocked. -/
def unlockRegs (s : State) : State :=
  let s1 := [TND_CFG, LDL_CFG, FLK_WIN_SIZE, FLK_WIN_BACK_LO, FLK_WIN_BACK_HI, FLK_DIR_BASE_LO, FLK_DIR_BASE_HI,
    FLK_CACHE_BASE_LO, FLK_CACHE_BASE_HI, FLK_CACHE_SIZE, CUP_COPE_CTRL, CUP_DET_POINT].foldl
      (fun st o => setReg st o (regReset o).toNat) s
  s1.withCup { s1.cup with locked := false }

/-- The root moved to a point, in as many changes as R448 needs; a safety hold keeps its own point (R449). -/
def movePoint (s : State) (k : Nat) : State :=
  if s.cup.trip || s.cup.hot then s else
  let c := s.clock
  let s1 := cntAdd s CUP_VF_CHG_CNT_LO (((c.point - k) + (k - c.point) + 7) / 8)
  (s1.withClock { c with point := k, target := k, changing := none }).withCup { s1.cup with override_ := false }

/-- Step c: the loop limits. -/
def loadLimits (s : State) (b : ImageBytes) (o : Nat) : State :=
  let f (i : Nat) : Nat := b (o + i)
  let s1 := setReg (setReg (setReg s CUP_VF_FLOOR (f 18)) CUP_VF_CEIL (f 19)) CUP_DET_POINT (f 20)
  let s2 := setReg (setReg s1 CUP_T_TARGET (f 21)) CUP_POWER_LIMIT (imgLe b (o + 22) 2)
  movePoint s2 (if bit (f 17) 0 then f 20 else f 18)

/-- Step d: the context and credit templates, and bank 0 (R253). -/
def loadTemplates (s : State) (b : ImageBytes) (o : Nat) : State :=
  let s1 := (List.range 16).foldl (fun st x =>
    let w (i : Nat) : Nat := imgLe b (o + 64 + 64 * x + 4 * i) 4
    let st1 := setReg st (TND_CTX_CTRL x) (w 0 &&& 0x1FFFF0)
    (List.range 8).foldl (fun t i => setReg t (TND_CTX_CSET x i) (w (1 + i))) st1) s
  let credits := (List.range 16).flatMap (fun x =>
    [(2 * x, imgLe b (o + 64 + 64 * x + 36) 4), (2 * x + 1, imgLe b (o + 64 + 64 * x + 40) 4)])
  let s2 := s1.withTnd { s1.tnd with bank := 0, staged := [], credits := credits.filter (fun e => e.2 != 0) }
  (List.range 256).foldl (fun st i =>
    setReg (setReg st (TND_SLOT_LO 0 i) (imgLe b (o + 1088 + 8 * i) 4 &&& 0x7FFFF)) (TND_SLOT_HI 0 i)
      (imgLe b (o + 1092 + 8 * i) 4 &&& 0xFFF)) s2

/-- Step e: the early filter (R219). -/
def loadEarly (s : State) (b : ImageBytes) (o : Nat) : State :=
  let (nreg, nearly) := profCounts b o
  s.withLadle { s.ladle with sweep := { s.ladle.sweep with
    early := (List.range nearly).map (fun i => imgLe b (o + 3136 + 12 * nreg + 4 * i) 4) } }

/-- Step f: the register program, in list order (R433). -/
def runProgram (s : State) (b : ImageBytes) (o : Nat) : State :=
  (List.range (profCounts b o).1).foldl (fun st i =>
    let (off, v, m) := profEntry b o i
    let old := regValue st off
    regWrite st .cupola off ((old - (old &&& m)) + (v &&& m))) s

/-- Cope/drag as the profile sets it (R387): RUNNING with the partner's agreement in deterministic mode, REFUSED with
event 0x0632 otherwise. -/
def applyCope (s : State) (partner : Bool) : State :=
  let c := rd s CUP_COPE_CTRL
  let d := bits c 4 5
  if !bit c 0 then s.withInteg { s.integ with cope := 0, copeRole := 0 }
  else if !s.integ.det || !partner then
    logUnit (s.withInteg { s.integ with cope := 4, copeRole := 0 }) 0x0632 0 [d, if s.integ.det then 2 else 1]
  else
    let role := b2n (bit (rd s SPR_SELF) d)
    let s1 := s.withInteg { s.integ with cope := 1, copeRole := role }
    setReg s1 SPR_FENCE (rd s1 SPR_FENCE ||| (2 ^ d % 65536))

/-- Step g: the deterministic settings (R450), and the lock. -/
def lockProfile (s : State) (b : ImageBytes) (o : Nat) (partner : Bool) : State :=
  let det := bit (b (o + 17)) 0
  let s1 := s.withInteg { s.integ with det := det, detBroken := false }
  let s2 := if !det then s1 else
    let p := bits (rd s1 CUP_DET_POINT) 0 6
    (List.range 36).foldl (fun st h =>
      let r := SPR_CTRL (h / 2) (h % 2)
      setReg st r (setBits (rd st r) 2 1 0)) (movePoint (setReg (setReg s1 CUP_VF_FLOOR p) CUP_VF_CEIL p) p)
  let s3 := applyCope s2 partner
  s3.withCup { s3.cup with locked := true }

/-- Applies a profile of the cached image (Table 12.6). -/
def loadProfile (s : State) (ix : Nat) (partner : Bool) : State :=
  let b := cachedBytes s
  match findSection b 4 ix with
  | none => s
  | some (o, _) =>
    let s1 := loadTemplates (loadLimits (unlockRegs s) b o) b o
    let s2 := lockProfile (runProgram (loadEarly s1 b o) b o) b o partner
    s2.withCup { s2.cup with profile := ix }

/-- The cause for which a profile is not applied (R445): 1 no such profile, 2 malformed, 3 lost in the cache. `lost` has a
bit for each profile with an uncorrectable error in the cache. -/
def profileFails (s : State) (ix lost : Nat) : Option Nat :=
  let b := cachedBytes s
  if imgProfiles b ≤ ix then some 1
  else if !profileOk b ix then some 2
  else if bit lost ix then some 3
  else none

/-- Applies a profile, or DEFAULT_PROF in its place with event 0x0807; where that fails too, the locked registers stand at
their reset values and the device does not become ready (R445). Answers whether a profile was applied. -/
def applyProfile (s : State) (ix lost : Nat) (partner : Bool) : State × Bool :=
  match profileFails s ix lost with
  | none => (loadProfile s ix partner, true)
  | some c =>
    let s1 := logCup s 0x0807 [ix, c]
    let d := imgDefault (cachedBytes s)
    if (profileFails s d lost).isNone then (loadProfile s1 d partner, true) else (unlockRegs s1, false)

/-- The device is released at the end of a quench or cold start: READY, the Tundish cycle from now on (R253), and the newest
cut drained again where it is not sealed (R420). -/
def release (s : State) : State :=
  let s1 := setReg64 { s with mode := .ready } TND_CYC_ORIGIN_LO (tickNow s)
  if ingOn s1 && unsealed s1 then startDrain s1 else s1

/-- QUENCH_COMPLETE (R418): phases 3 and 4. -/
def execQuenchComplete (lost : Nat) (partner : Bool) (s : State) : Host.Outcome State Fault Refusal :=
  match s.cup.quench with
  | none => .next s
  | some q =>
    if s.mode != .quenching || (q.shake && !q.shaken) then .next s else
    let r := applyProfile s q.profile lost partner
    let s1 := r.1.withCup { r.1.cup with quench := none }
    if !r.2 then .next { s1 with mode := .stopped } else
    let us := min 65535 ((tickNow s - q.start) / 100)
    let slot := if q.shaken then rd s1 CUP_SHK_GEN % 8 else 0
    let s2 := setReg s1 CUP_QUENCH_STAT (q.cause + 16 * s1.cup.profile + 128 * b2n q.shaken + 256 * slot + 65536 * us)
    let s3 := setReg64 s2 CUP_QUENCH_TIME_LO (tickNow s)
    .next (release (logCup s3 0x070C [q.cause, s1.cup.profile, us, srcDatum q.source]))

end Sys2Proof.Machine
end

