-- ==== Sys2Proof/Machine/ColdStart.lean ====
section
/-! DEFINITION. Module reset and the cold start to READY or cold-shut mode (R434 to R437, R370, R486, R488, R519). -/
namespace Sys2Proof.Machine
open Reg

/-- The state with the module changed. -/
def State.withModule (s : State) (m : Module) : State := { s with module_ := m }

/-- The registers of the aux domain that survive a module reset (Table 13.6), with the strap latch. -/
def auxRegs : List Nat := [CUP_MOD_LAST_OFF, CUP_MOD_SAG_CNT_LO, CUP_MOD_SAG_CNT_HI, CUP_MOD_STRAPS, CUP_MOD_STRAPOPEN]

/-- The main domain in reset (R486), or without power (R485): everything but the aux domain, the NVM, the key fuses and
the module's monitors is lost. -/
def mainReset (s : State) : State :=
  let cup : Cupola := { Cupola.init with
    nvm := s.cup.nvm, fused := s.cup.fused, fuseHash := s.cup.fuseHash, require := s.cup.require }
  { State.reset with
    pending := s.pending, out := s.out, draws := s.draws, cup := cup
    module_ := { s.module_ with pcieUp := false }
    regs := s.regs.filter (fun e => auxRegs.contains e.1) }

/-- Main rails off (R485, Table 13.4): the cause is kept in the aux domain, and nothing of the main domain stays. -/
def railsOff (s : State) (cause : Nat) : State :=
  let s1 := setReg (mainReset s) CUP_MOD_LAST_OFF cause
  s1.withModule { s1.module_ with rails := false }

/-- An event latched in the aux domain for the next cold start (R496). -/
def latchEvent (s : State) (code : Nat) (data : List Nat) (t : Nat) : State :=
  s.withModule { s.module_ with
    latched := s.module_.latched ++ [{ code := code, kind := 4, data := data, tick := t }] }

/-- Ticks that pass while a cold start runs: the counts, and the next tick of everything that recurs. -/
def advance (s : State) (n : Nat) : State :=
  let now := s.clock.now + n
  let next (k : Nat) : Nat := (now / k + 1) * k
  let h := s.hlog
  let refills := now / 6250 - s.clock.now / 6250
  { s with
    clock := { s.clock with now := now, half := s.clock.half + n * 96 }
    module_ := { s.module_ with now := s.module_.now + n }
    hlog := { h with tokens := (h.tokens.map (fun e => (e.1, e.2 + refills))).filter (fun e => decide (e.2 < 16)), refillAt := next 6250 }
    cup := { s.cup with passAt := next 10000, riskAt := next ticksPerSecond, decayAt := next (3600 * ticksPerSecond) }
    meters := { s.meters with rangeAt := next 100000 } }

/-- Cold-shut mode (R436, R437). -/
def coldShut (s : State) (cause : Nat) : State :=
  let s1 : State := { s with mode := .coldShut }
  logCup (s1.withCup { s1.cup with coldCause := cause }) 0x0802 [cause]

/-- The checked image becomes the cached one: header, directory, SYSTEM section, profiles and DIGEST (Table 12.4). -/
def cacheImage (s : State) (b : ImageBytes) : State :=
  let len := imgLength b
  let secs := (List.range (imgSections b)).map (imgSection b)
  let kept (i : Nat) : Bool := decide (i < 256 + 16 * imgSections b) || (decide (len - 4096 ≤ i) && decide (i < len - 4048)) ||
    secs.any (fun e => (e.1 == 2 || e.1 == 4) && decide (e.2.2.1 ≤ i) && decide (i < e.2.2.1 + e.2.2.2.1))
  let cells := (List.range len).filterMap (fun i =>
    if kept i && decide (b i % 256 ≠ 0) then some (i, BitVec.ofNat 8 (b i)) else none)
  let s1 := setReg (setReg s CUP_IMG_ID (imgLe b 12 4)) CUP_IMG_LEN len
  let s2 := (List.range 12).foldl (fun st i => setReg st (CUP_IMG_DIGEST i) (imgLe b (len - 4096 + 4 * i) 4)) s1
  s2.withCup { s2.cup with image := cells, imgSigned := imgSigned b, coldCause := 0 }

/-- The registers of the SYSTEM section, in its order (Table 12.2). -/
def systemRegs : List (List Nat) :=
  [[SPR_SYSTEM], [SPR_TOPO], [SPR_SELF], [SPR_FENCE]] ++ (List.range 18).map (fun i => [SPR_CFG i 0, SPR_CFG i 1])

/-- The SYSTEM section applied (Table 12.4 step 5). -/
def applySystem (s : State) (b : ImageBytes) : State :=
  match findSection b 2 0 with
  | none => s
  | some (o, _) => systemRegs.zipIdx.foldl (fun st e =>
      e.1.foldl (fun t r => setReg t r (imgLe b (o + 4 * e.2) 4 &&& (regRow r).elim 0 (·.mask))) st) s

/-- The ROUTING section in the phase banks (R274). -/
def loadRouting (s : State) (b : ImageBytes) : State :=
  match findSection b 3 0 with
  | none => s
  | some (o, len) =>
    let cells := (List.range (min (len / 4) 262144)).filterMap (fun i =>
      let v := imgLe b (o + 4 * i) 4
      let w := bits v 0 11 + 2 ^ 31 * bits v 31 1
      if w = 0 then none else some (i, BitVec.ofNat 32 w))
    s.withSprues { s.sprues with banks := cells }

/-- Whether an entry of a bank passes the check of R278 before the links are up: it leads to the device itself, or to a
dimension that has a link. -/
def entryLeads (s : State) (bank dest : Nat) : Bool :=
  let e := routeEntry s bank dest
  if ownAddress s = some dest then bit e 31 && bit e 10
  else bit e 31 && !bit e 10 && [bits e 0 5, bits e 5 5].any (fun d => !(linksOf s d).isEmpty)

/-- The banks checked as R278 and marked valid; the first failing destination of a bank records event 0x010F. -/
def checkBanks (s : State) (routes : List (Nat × Nat × Nat)) : State :=
  (List.range 4).foldl (fun st bank =>
    let found (d : Nat) : Option Nat := if !entryLeads st bank d then some 2
      else (routes.find? (fun r => r.1 == bank && r.2.1 == d)).map (·.2.2)
    match (List.range (2 ^ bits (rd st SPR_TOPO) 4 5)).find? (fun d => (found d).isSome) with
    | some d => logUnit st 0x010F 0 [bank, d, (found d).getD 2]
    | none => setReg st SPR_RT_CTRL (setBits (rd st SPR_RT_CTRL) (8 + bank) 1 1)) s

/-- The sprues begin their bring-up (R258). -/
def startSprues (s : State) : State :=
  (allLinks s).foldl (fun st h => if bit (linkCtrl st h) 0 then setLinkState st h 1 else st) s

/-- The fettle test of one physical crucible at cold start (R370). -/
def coldTest (failed : List (Nat × Nat × Nat)) (s : State) (p : Nat) : State :=
  let c := if p < 256 then p else 0x1FF
  match failed.find? (fun e => e.1 == p) with
  | none => setReg64 (logUnit s 0x0610 (16 + c % 256) [p, c, 0]) (CUP_FTL_LAST_LO p) (tickNow s)
  | some (_, phase, sig) =>
    let s1 := logUnit (setFtl s p 5) 0x0611 (16 + c % 256) ([p, phase] ++ datum64 sig ++ datum64 0)
    riskAdd (satAdd (cntAdd s1 CUP_FTL_FAIL_CNT_LO 1) (CUP_FTL_FAILS p) 1) p (65536 * 255)

/-- Every physical crucible tested, and the logical crucibles of those that fail mapped to spares of their castings, or
to none (R370, R371). -/
def coldFettle (s : State) (failed : List (Nat × Nat × Nat)) : State :=
  let s1 := cntAdd ((List.range 264).foldl (coldTest failed) s) CUP_FTL_RUN_CNT_LO 264
  (List.range 256).foldl (fun st c =>
    if ftlState st c != 5 then st
    else { (drawNat st).2 with physMap := spPut st.physMap c ((freeSpare st c).getD 0x1FF) c }) s1

/-- Steps 5 to 7 of Table 12.4, with the image `b`: to READY, or to the end that R445 gives where DEFAULT_PROF is lost in
the cache. -/
def coldFinish (s : State) (b : ImageBytes) (c : ColdStart) : State :=
  let s1 := startSprues (checkBanks (loadRouting (applySystem s b) b) c.routes)
  let s2 := coldFettle s1 c.crucibles
  let r := applyProfile s2 (imgDefault b) c.lost c.partner
  if !r.2 then { r.1 with mode := .stopped } else
  let w := drawWord r.1
  let s3 := release (setReg w.2 MTR_BOOT w.1.toNat)
  let s4 := logCup s3 0x0801 [rd s3 CUP_IMG_ID, s3.cup.profile, tickNow s3, b2n s3.cup.nvmSlow]
  let s5 := s4.module_.latched.foldl hlogPut s4
  s5.withModule { s5.module_ with latched := [] }

/-- The verdict of an image whose DEFAULT_PROF is checked as well (R436): 0, or a cause from 2 to 6. -/
def coldVerdict (s : State) (b : ImageBytes) (n : Nat) : Nat :=
  let v := imgVerdict s b n
  if v ≠ 0 then v else if profileOk b (imgDefault b) then 0 else 6

/-- The bytes of the NVM as the cold start reads them; an erased byte is 0xFF (log entry 10). -/
def nvmBytes (s : State) (misread : List (Nat × Byte)) : ImageBytes := fun i =>
  match misread.find? (fun e => e.1 == i) with
  | some e => e.2.toNat
  | none => (spGet s.cup.nvm i 0xFF#8).toNat

/-- The straps as they are latched (R488): an open strap takes 0, an open I3C_SA refuses SETDASA, and each open strap
records event 0x0826. -/
def latchStraps (s : State) (c : ColdStart) : State :=
  let o := c.opens % 2 ^ 26
  let v := (List.range 26).foldl (fun n i => if bit o i then setBits n i 1 0 else n) (c.straps % 2 ^ 26)
  let v1 := if bits o 18 7 = 0 then v else setBits v 18 7 0
  ((List.range 26).filter (bit o)).foldl (fun st i => logCup st 0x0826 [i, 0])
    (setReg (setReg s CUP_MOD_STRAPS v1) CUP_MOD_STRAPOPEN o)

/-- The third restart of the cold start within 10 s of the first of three (R482): the causes. -/
def restartLimit : List (Nat × Nat) → Option (List Nat)
  | a :: b :: c :: t => if c.1 ≤ a.1 + 10 * ticksPerSecond then some [a.2, b.2, c.2] else restartLimit (b :: c :: t)
  | _ => none

/-- Steps 2 to 7 of Table 12.4. -/
def coldRun (s : State) (c : ColdStart) : State :=
  if c.probe = 2 then coldShut (s.withCup { s.cup with nvmFault := true }) 1 else
  let s1 := if c.probe = 1 then logCup (s.withCup { s.cup with nvmSlow := true }) 0x0808 [c.failing] else s
  let b := nvmBytes s1 c.misread
  let v := coldVerdict s1 b 0x1000000
  if v ≠ 0 then coldShut s1 v else coldFinish (cacheImage s1 b) b c

/-- COLD_START (R434, R482, R484, R486, R488): MOD_RST_N is released with the main rails on. -/
def execColdStart (c : ColdStart) (s : State) : Host.Outcome State Fault Refusal :=
  if s.mode != .held || !s.module_.rails then .next s else
  let s1 := mainReset s
  let s2 := advance (s1.withModule { s1.module_ with rstHeld := false, faultN := false }) c.took
  match restartLimit c.restarts with
  | some causes =>
    let s3 := latchEvent (railsOff s2 5) 0x082A causes (tickNow s2)
    .next (s3.withModule { s3.module_ with faultN := true, needCycle := true })
  | none =>
    let s3 := latchStraps s2 c
    if bit (rd s3 CUP_MOD_STRAPS) 25 then .next (s3.withModule { s3.module_ with faultN := true })
    else .next (coldRun s3 c)

end Sys2Proof.Machine
end

