-- ==== Sys2Proof/Machine/Management.lean ====
section
/-! DEFINITION. The management commands over I3C and MCTP (R438 to R442, R457, R458, R484). -/
namespace Sys2Proof.Machine
open Reg

/-- Whether a frame of an interface reaches the device: MCTP over a PCIe link that is up, I3C with its pads connected and
the aux domain powered (R439, R440, R484, R494). -/
def frameArrives (s : State) (src : Src) : Bool :=
  match src with
  | .mctp _ => s.module_.pcieUp
  | .i3c _ => s.module_.aux && s.module_.i3cOff.isNone
  | _ => false

/-- Answers a management frame: nothing reaches the device over a dead interface, a frame whose CRC fails is answered
BAD_FRAME, and a command that does not act now is answered REFUSED (R437, R441). -/
def manage (s : State) (src : Src) (ok : Bool) (tag cmd : Nat) (acts : Bool) (run : State → State) : State :=
  if !frameArrives s src then s
  else if !ok then respond s src tag cmd 2 []
  else if !acts then respond s src tag cmd 1 []
  else run s

/-- A response with a status and no payload. -/
def status (s : State) (src : Src) (tag cmd n : Nat) : State := respond s src tag cmd n []

/-- Whether the main domain serves management at all. -/
def serving (s : State) : Bool := s.mode != .held && s.mode != .coldStart
/-- The spaces that READ and WRITE reach in cold-shut mode (R437). -/
def shutSpace (space a n : Nat) : Bool :=
  space == 0 && (decide (a + n ≤ 0x10000) || (decide (0x10000 ≤ a) && decide (a + n ≤ 0x10100)))
/-- The registers that the aux target serves while the main domain is off or in reset (R484). -/
def auxSpace (space a n : Nat) : Bool := space == 0 && decide (0x1D000 ≤ a) && decide (a + n ≤ 0x1D040)

/-- Whether READ acts: in every mode of the main domain, with what each reaches. -/
def readActs (s : State) (space width a : Nat) : Bool :=
  (width == 4 || width == 8) && decide (space < 2) &&
  (match s.mode with
    | .held | .coldStart => auxSpace space a width
    | .coldShut => shutSpace space a width
    | _ => true)
/-- Whether WRITE acts (R437). -/
def writeActs (s : State) (space width a : Nat) : Bool :=
  (width == 4 || width == 8) && decide (space < 2) &&
  (match s.mode with
    | .ready => true
    | .coldShut => shutSpace space a width
    | _ => false)

/-- An access to device memory that cannot be made: unmapped (reason 9), answered REFUSED. -/
def refuseMemory (s : State) (src : Src) (tag cmd a n : Nat) : State :=
  status (logDiscard s src a n 9) src tag cmd 1

/-- READ (R441, R502, R512). -/
def manageRead (s : State) (src : Src) (tag space width a : Nat) : State :=
  if space = 0 then
    let r := regRead s src a width
    respond r.1 src tag 1 0 [r.2]
  else if !hostMapped s a width then refuseMemory s src tag 1 a width
  else orWait s (hostRead s src tag a width)

/-- READ (R441). -/
def execRead (src : Src) (ok : Bool) (tag space width addr : Nat) (s : State) : Host.Outcome State Fault Refusal :=
  .next (manage s src ok tag 1 (readActs s space width addr) (fun st => manageRead st src tag space width addr))

/-- WRITE to device memory (R337, R442, R512): recorded by event 0x0901 as space 1. Answers whether it was made. -/
def writeMemory (s : State) (src : Src) (width a v : Nat) : State × Bool :=
  match memoryBarred s a width with
  | some true => (logSrc s 0x0316 src (datum64 a ++ [srcDatum src]), false)
  | some false => (logDiscard s src a width 8, false)
  | none =>
    let s1 := hostWrite s src a (leBytes width v)
    if s1.hlog.refused = s.hlog.refused then (logAccepted s1 src 1 a v, true) else (s1, false)

/-- WRITE (R441): a write that is discarded is answered REFUSED. -/
def manageWrite (s : State) (src : Src) (tag space width a v : Nat) : State :=
  if space = 0 then
    let s1 := regWriteAny s src a width v
    status s1 src tag 2 (b2n (s1.hlog.refused != s.hlog.refused))
  else if !hostMapped s a width then refuseMemory s src tag 2 a width
  else
    let r := writeMemory s src width a v
    orWait s (status r.1 src tag 2 (b2n (!r.2)))

/-- WRITE (R441). -/
def execWrite (src : Src) (ok : Bool) (tag space width addr v : Nat) (s : State) : Host.Outcome State Fault Refusal :=
  .next (manage s src ok tag 2 (writeActs s space width addr) (fun st => manageWrite st src tag space width addr v))

/-- UNIT_READ (R457): the entry whole. -/
def execUnitRead (src : Src) (ok : Bool) (tag u : Nat) (s : State) : Host.Outcome State Fault Refusal :=
  let e := unitEntry s u
  .next (manage s src ok tag 0x10 (serving s && decide (u < 565)) (fun st => respond st src tag 0x10 0 [e.1, e.2]))

/-- An entry of the unit table after a change of its order or state (R457): GEN advances. -/
def setUnit (s : State) (u order state : Nat) : State :=
  let e := spGet s.cup.units u (0, 0)
  if e.1 = state ∧ spGet s.cup.orders u 0 = order then s else
  s.withCup { s.cup with
    units := spPut s.cup.units u (state, (e.2 + 1) % 65536) (0, 0), orders := spPut s.cup.orders u order 0 }

/-- Whether an order applies to its unit as it stands (Table 12.7). -/
def orderApplies (s : State) (u action : Nat) : Bool :=
  match action with
  | 3 => ctxState s u != 0
  | 5 => grpOn s (u - 272)
  | 6 => linkUp s (u - 528)
  | 7 => linkState s (u - 528) != 0
  | 8 => linkDim s (u - 528) != 31
  | 9 => ingOn s
  | _ => true

/-- Whether a unit is at the boundary that an order waits for (Table 12.7). -/
def orderBoundary (s : State) (u action : Nat) : Bool :=
  match action with
  | 3 => ctxState s u == 3
  | 4 => canSwitch s (u - 16) || !available s (u - 16)
  | 5 => grpIdle s (u - 272)
  | 7 => (linkAt s (u - 528)).rx.isEmpty
  | _ => true

/-- A link taken down by an order: disabled, and DOWN if it was up (R270, R281). The cause that event 0x0108 records for it
has no code. -/
def orderDown (s : State) (src : Src) (h : Nat) : State :=
  let s1 := linkEnable s src h false
  if linkUp s1 h || linkState s1 h == 5 then
    let r := drawNat s1
    linkDown r.2 h r.1
  else setLinkState s1 h 0

/-- What an order does (Table 12.7). -/
def orderAct (s : State) (src : Src) (u action : Nat) : State :=
  match action with
  | 1 => ctxStop s src u
  | 2 => ctxUnstop s src u
  | 3 => ctxDisable s src u
  | 4 => orderMove s (u - 16) false
  | 5 => grpDisable s src (u - 272)
  | 6 => enterRetrain s (u - 528) 5 0
  | 7 => orderDown s src (u - 528)
  | 8 => linkEnable s src (u - 528) true
  | _ => cutWrite s src

/-- The units of each action (Table 12.7). -/
def orderUnit (action u : Nat) : Bool :=
  match action with
  | 1 | 2 | 3 => decide (u < 16)
  | 4 => decide (16 ≤ u ∧ u < 272)
  | 5 => decide (272 ≤ u ∧ u < 528)
  | 6 | 7 | 8 => decide (528 ≤ u ∧ u < 564)
  | _ => u == 564

/-- An ORDER as it arrives (R458): it replaces a pending one; it acts at the unit's boundary, is left pending before it, and
is refused where it does not apply. -/
def order (s : State) (src : Src) (tag action u : Nat) : State :=
  if !orderApplies s u action then status s src tag 0x11 1 else
  let old := spGet s.cup.orders u 0
  let s1 := if old = 0 then s else setUnit (logSrc s 0x0905 src [u, old, action]) u 0 (spGet s.cup.units u (0, 0)).1
  if orderBoundary s1 u action then
    let s2 := orderAct s1 src u action
    status (logSrc (setUnit s2 u 0 (unitState s2 u)) 0x0904 src [u, action]) src tag 0x11 0
  else
    status (logSrc (setUnit s1 u action (spGet s1.cup.units u (0, 0)).1) 0x0903 src [u, action]) src tag 0x11 3

/-- An ORDER frame. It acts while GLB shows READY. -/
def orderFrame (s : State) (src : Src) (ok : Bool) (tag action u : Nat) : Host.Outcome State Fault Refusal :=
  .next (manage s src ok tag 0x11 (isReady s && orderUnit action u) (fun st => order st src tag action u))

/-- ORDER STOP (R458). -/
def execOrderStop (src : Src) (ok : Bool) (tag u : Nat) (s : State) : Host.Outcome State Fault Refusal := orderFrame s src ok tag 1 u
/-- ORDER RESUME (R458). -/
def execOrderResume (src : Src) (ok : Bool) (tag u : Nat) (s : State) : Host.Outcome State Fault Refusal := orderFrame s src ok tag 2 u
/-- ORDER DISABLE to a context (R458). -/
def execOrderDisableContext (src : Src) (ok : Bool) (tag u : Nat) (s : State) : Host.Outcome State Fault Refusal :=
  orderFrame s src ok tag 3 u
/-- ORDER MOVE (R458). -/
def execOrderMove (src : Src) (ok : Bool) (tag u : Nat) (s : State) : Host.Outcome State Fault Refusal := orderFrame s src ok tag 4 u
/-- ORDER DISABLE to a group (R458). -/
def execOrderDisableGroup (src : Src) (ok : Bool) (tag u : Nat) (s : State) : Host.Outcome State Fault Refusal :=
  orderFrame s src ok tag 5 u
/-- ORDER RETRAIN (R458). -/
def execOrderRetrain (src : Src) (ok : Bool) (tag u : Nat) (s : State) : Host.Outcome State Fault Refusal := orderFrame s src ok tag 6 u
/-- ORDER DOWN (R458). -/
def execOrderDown (src : Src) (ok : Bool) (tag u : Nat) (s : State) : Host.Outcome State Fault Refusal := orderFrame s src ok tag 7 u
/-- ORDER UP (R458). -/
def execOrderUp (src : Src) (ok : Bool) (tag u : Nat) (s : State) : Host.Outcome State Fault Refusal := orderFrame s src ok tag 8 u
/-- ORDER CUT (R458). -/
def execOrderCut (src : Src) (ok : Bool) (tag u : Nat) (s : State) : Host.Outcome State Fault Refusal := orderFrame s src ok tag 9 u

/-- ORDER_APPLY (R458): at the unit's boundary a pending order acts, or is discarded where it no longer applies. The reason
that event 0x0905 records for that has no code. -/
def execOrderApply (u : Nat) (s : State) : Host.Outcome State Fault Refusal :=
  let a := spGet s.cup.orders u 0
  if a = 0 ∨ s.mode ≠ .ready then .next s
  else if !orderApplies s u a then
    let r := drawNat s
    .next (setUnit (logCup r.2 0x0905 [u, a, r.1]) u 0 (unitState s u))
  else if !orderBoundary s u a then .next s
  else
    let s1 := orderAct s .cupola u a
    .next (logCup (setUnit s1 u 0 (unitState s1 u)) 0x0904 [u, a])

/-- IMAGE_BEGIN (R438): a delivery begins; an earlier one is dropped. -/
def execImageBegin (src : Src) (ok : Bool) (tag len : Nat) (program : Bool) (s : State) : Host.Outcome State Fault Refusal :=
  .next (manage s src ok tag 0x20 (serving s && decide (len ≤ 0x1000000)) (fun st =>
    status (st.withCup { st.cup with deliver := some (len, program), staged := [], got := 0, verdict := 0 }) src tag 0x20 0))

/-- Whether IMAGE_DATA fits the delivery. -/
def dataFits (s : State) (off n : Nat) : Bool :=
  match s.cup.deliver with
  | some (len, _) => decide (1 ≤ n) && decide (n ≤ 1024) && decide (off + n ≤ len)
  | none => false

/-- Bytes written into a staged image; the unlisted byte is zero. -/
def stageBytes (l : Sparse Byte) (off : Nat) (bs : List Byte) : Sparse Byte :=
  bs.zipIdx.foldl (fun t e => spPut t (off + e.2) e.1 0#8) l

/-- IMAGE_DATA (R438). -/
def execImageData (src : Src) (ok : Bool) (tag off : Nat) (data : List Byte) (s : State) : Host.Outcome State Fault Refusal :=
  .next (manage s src ok tag 0x21 (serving s && dataFits s off data.length) (fun st =>
    status (st.withCup { st.cup with staged := stageBytes st.cup.staged off data, got := st.cup.got + data.length }) src tag 0x21 0))

/-- A valid image is programmed into the NVM, unless the NVM is faulty (R438). -/
def beginProgram (s : State) (len : Nat) : State :=
  if s.cup.nvmFault then s else
  setReg (s.withCup { s.cup with program := some (s.cup.staged, len) }) CUP_IMG_PROG 0

/-- What follows a checked image (R438): in cold-shut mode a valid one becomes the cached image and the cold start resumes
at step 5; in any other mode it is programmed only. -/
def imageUse (s : State) (b : ImageBytes) (len : Nat) (program : Bool) (c : ColdStart) : State :=
  if s.mode != .coldShut then beginProgram s len
  else
    let s1 := coldFinish (advance (cacheImage s b) c.took) b c
    if program && s1.mode == .ready then beginProgram s1 len else s1

/-- IMAGE_END (R438): the staged image is checked, and the verdict is returned and recorded by event 0x0906. -/
def imageEnd (s : State) (src : Src) (tag : Nat) (c : ColdStart) : State :=
  match s.cup.deliver with
  | none => status s src tag 0x22 1
  | some (len, program) =>
    let b : ImageBytes := fun i => (spGet s.cup.staged i 0#8).toNat
    let v := coldVerdict s b len
    let s1 := s.withCup { s.cup with deliver := none, verdict := v }
    let s2 := respond (logSrc s1 0x0906 src [imgLe b 12 4, v, len]) src tag 0x22 0 [v]
    if v ≠ 0 then s2 else imageUse s2 b len program c

/-- IMAGE_END (R438). -/
def execImageEnd (src : Src) (ok : Bool) (tag : Nat) (c : ColdStart) (s : State) : Host.Outcome State Fault Refusal :=
  .next (manage s src ok tag 0x22 (serving s) (fun st => imageEnd st src tag c))

/-- IMAGE_STATUS (R441): bytes received, verdict, bytes programmed. -/
def execImageStatus (src : Src) (ok : Bool) (tag : Nat) (s : State) : Host.Outcome State Fault Refusal :=
  .next (manage s src ok tag 0x23 (serving s) (fun st =>
    respond st src tag 0x23 0 [st.cup.got, st.cup.verdict, rd st CUP_IMG_PROG]))

/-- FUSE_KEY (R431): the fuses are programmed once. -/
def execFuseKey (src : Src) (ok : Bool) (tag : Nat) (hash : List Byte) (require : Bool) (s : State) :
    Host.Outcome State Fault Refusal :=
  .next (manage s src ok tag 0x24 (isReady s && !s.cup.fused && hash.length == 48) (fun st =>
    status (st.withCup { st.cup with fused := true, fuseHash := hash, require := require }) src tag 0x24 0))

/-- HLOG_READ (R441): the entries from `first` on, up to the last place of the log; an entry not written reads as
zeros. -/
def execHlogRead (src : Src) (ok : Bool) (tag first count : Nat) (s : State) : Host.Outcome State Fault Refusal :=
  .next (manage s src ok tag 0x30
    (serving s && decide (1 ≤ count) && decide (count ≤ 16) && decide (first < hlogSize)) (fun st =>
      let n := min count (hlogSize - first)
      respond st src tag 0x30 0 ((List.range n).flatMap (fun i =>
        (st.hlog.entries.getD (first + i) (List.replicate 16 0)).map (·.toNat)))))

/-- NVM_PROGRAM_DONE (R438): the background programming ends with the read-back compare. `diffs` are the bytes that were
read back otherwise than they were written, each with its value. -/
def execNvmProgramDone (diffs : List (Nat × Byte)) (s : State) : Host.Outcome State Fault Refusal :=
  match s.cup.program with
  | none => .next s
  | some (img, len) =>
    if !serving s then .next s else
    let kept := s.cup.nvm.filter (fun e => decide (len ≤ e.1))
    let new := (List.range len).foldr (fun i l =>
      let v := match diffs.find? (fun e => e.1 == i) with
        | some e => e.2
        | none => spGet img i 0#8
      if v = 0xFF#8 then l else (i, v) :: l) kept
    let id := imgLe (fun i => (spGet img i 0#8).toNat) 12 4
    let bad := diffs.any (fun e => decide (e.1 < len) && e.2 != spGet img e.1 0#8)
    .next (logCup (setReg (s.withCup { s.cup with program := none, nvm := new }) CUP_IMG_PROG len) 0x0907 [id, b2n bad])

end Sys2Proof.Machine
end

