-- ==== Sys2Proof/Machine/Module.lean ====
section
/-! DEFINITION. The module's pins and monitors: input voltage, power and reset sequencing, monitor quenches, holdover, status
pins, I3C pads, and the test access port (R473 to R496). -/
namespace Sys2Proof.Machine
open Reg

/-- Records an event of the module while the main domain runs (R496). -/
def logModule (s : State) (code : Nat) (data : List Nat) : State := if serving s then logCup s code data else s

/-- Aux power lost, below 36 V (Table 13.2): the aux registers and the latched events are at reset, and the rails are off. -/
def auxLost (s : State) : State :=
  let s1 := mainReset s
  let s2 := s1.withRegs []
  s2.withModule { s2.module_ with
    aux := false, rails := false, latched := [], dipAt := none, sagging := none, shorts := 0, thermal := false, faultN := false
    needCycle := false, i3cOff := none }

/-- Main rails off for input under voltage (Table 13.2, Table 13.4): the lowest voltage in mV and the ticks below 46 V. -/
def underVoltage (s : State) : State :=
  let m := s.module_
  let s1 := latchEvent (railsOff s 2) 0x0822 [m.lowest, m.now - m.sagging.getD m.now] (tickNow s)
  s1.withModule { s1.module_ with needCycle := true }

/-- The input disconnected above 60 V (Table 13.2): the aux domain goes too, and the latch of the input monitor keeps the
cause. -/
def overVoltage (s : State) (mV : Nat) : State :=
  let s1 := setReg64 (latchEvent (railsOff s 3) 0x0823 [mV, 1] (tickNow s)) CUP_MOD_SAG_CNT_LO 0
  s1.withModule { s1.module_ with cut := true, below58 := none, aux := false, needCycle := true, dipAt := none, sagging := none }

/-- What the monitor keeps of a voltage (R475): since when it is below 48 V and below 46 V, and the lowest value. -/
def noteVoltage (s : State) (mV : Int) (amps : Nat) : State :=
  let m := s.module_
  let low := mV.toNat
  let sag := if mV < 46000 then some (m.sagging.getD m.now) else none
  s.withModule { m with
    vin := mV, iin := amps
    dipAt := if mV < 48000 then (if 48000 ≤ m.vin then some m.now else m.dipAt) else none
    sagging := sag
    lowest := if m.sagging.isSome then min m.lowest low else low }

/-- A PWR_EN that was asserted before VAUX was good takes effect (R484), unless it must first be deasserted. -/
def raiseRails (s : State) : State :=
  let m := s.module_
  if m.pwrEn && m.aux && !m.needCycle && decide (46000 ≤ m.vin) then s.withModule { m with rails := true } else s

/-- INPUT_VOLTAGE_CHANGE (R475, Table 13.2): the input stands at `mV`, negative where it is reversed, with `amps` in units of
10 mA. -/
def execInputVoltageChange (mV : Int) (amps : Nat) (s : State) : Host.Outcome State Fault Refusal :=
  let was := s.module_
  let s1 := noteVoltage s mV amps
  let m := s1.module_
  if was.cut then
    .next (s1.withModule { m with below58 := if mV < 58000 then some (was.below58.getD m.now) else none })
  else if 60000 < mV then .next (overVoltage s1 mV.toNat)
  else if mV < 36000 then .next (if was.aux then auxLost s1 else s1)
  else
    let s2 := s1.withModule { m with aux := true }
    if mV < 44000 then .next (if was.rails then underVoltage s2 else s2)
    else
      let s3 := raiseRails s2
      .next (if 58000 < mV ∧ was.vin ≤ 58000 then logModule s3 0x0823 [mV.toNat, 0] else s3)

/-- OVER_VOLTAGE_RECONNECT (R475): the input has stayed below 58 V for 100 ms. -/
def execOverVoltageReconnect (s : State) : Host.Outcome State Fault Refusal :=
  match s.module_.below58 with
  | some t =>
    if s.module_.cut && decide (t + 10000000 ≤ s.module_.now) then
      .next (raiseRails (s.withModule { s.module_ with cut := false, below58 := none, aux := decide (36000 ≤ s.module_.vin) }))
    else .next s
  | none => .next s

/-- MAIN_RAIL_HOLD_EXPIRY (R475): the input has been between 44 V and 46 V for 1 ms. -/
def execMainRailHoldExpiry (s : State) : Host.Outcome State Fault Refusal :=
  match s.module_.sagging with
  | some t => if s.module_.rails && decide (t + 100000 ≤ s.module_.now) then .next (underVoltage s) else .next s
  | none => .next s

/-- PWR_EN_ASSERT (R484, Table 13.4): the main rails rise where the aux domain is good and the input restored; after a thermal
trip only with every sensor below 90 °C, as `cool` tells. The main domain is then in reset. -/
def execPwrEnAssert (cool : Bool) (s : State) : Host.Outcome State Fault Refusal :=
  let m := s.module_
  if m.pwrEn then .next s
  else if !m.aux || m.vin < 46000 || (m.thermal && !cool) then .next (s.withModule { m with pwrEn := true })
  else .next (s.withModule { m with
    pwrEn := true, rails := true, needCycle := false, thermal := false, faultN := false, trips := [] })

/-- PWR_EN_DEASSERT (R485): the main rails go off, and PWR_GOOD and READY fall at once. -/
def execPwrEnDeassert (s : State) : Host.Outcome State Fault Refusal :=
  if !s.module_.pwrEn then .next s else
  let s1 := if s.module_.rails then railsOff s 1 else s
  .next (s1.withModule { s1.module_ with pwrEn := false })

/-- MOD_RST_N_ASSERT (R486): the whole main domain is reset and held. -/
def execModRstNAssert (s : State) : Host.Outcome State Fault Refusal :=
  let s1 := mainReset s
  .next (s1.withModule { s1.module_ with rstHeld := true })

/-- PERST_N (R487): the PCIe controller, configuration space and the MSI-X state of function 0 are reset. -/
def execPerstN (s : State) : Host.Outcome State Fault Refusal :=
  let up := s.module_.pcieUp
  let s1 : State := { s with bar4 := [], module_ := { s.module_ with pcieUp := false } }
  if !up then .next s1 else
  let r := drawNat s1
  .next (logModule r.2 0x0829 [r.1, 0, 0])

/-- PCIE_LINK_UP (R487, R491): training ends with a width and a rate; configuration space is answered from now on. The cause
that event 0x0829 records has no code. -/
def execPcieLinkUp (width rate : Nat) (s : State) : Host.Outcome State Fault Refusal :=
  if s.module_.pcieUp || !serving s then .next s else
  let r := drawNat (s.withModule { s.module_ with pcieUp := true })
  .next (logModule r.2 0x0829 [r.1, width, rate])

/-- A third monitor quench within 10 s (Table 13.4): the causes of the three. -/
def repeatedTrip (trips : List (Nat × Nat)) : Option (List Nat) :=
  match trips.reverse with
  | c :: b :: a :: _ => if c.1 ≤ a.1 + 10 * ticksPerSecond then some [a.2, b.2, c.2] else none
  | _ => none

/-- A monitor quench (R480, R482): event 0x0820, and a quench of cause 5 without a shakeout, with the profile of the last
quench or cold start, or of the quench that it interrupts. Where no profile is in force there is nothing to quench, and the
event is recorded. -/
def monitorQuench (s : State) (part measured : Nat) : State :=
  if !serving s then s else
  let s1 := logCup (cntAdd s CUP_MOD_MONQ_CNT_LO 1) 0x0820 [part, measured]
  let m := s1.module_
  let s2 := s1.withModule { m with trips := (m.trips ++ [(m.now, part)]).drop (m.trips.length - 2) }
  match repeatedTrip s2.module_.trips with
  | some causes =>
    let s3 := latchEvent (railsOff s2 5) 0x082A causes (tickNow s)
    s3.withModule { s3.module_ with faultN := true, needCycle := true, trips := [] }
  | none =>
    if s.mode == .ready || s.mode == .quenching then
      beginQuench s2 5 ((s.cup.quench.map (·.profile)).getD s.cup.profile) false .cupola
    else s2

/-- RAIL_FAULT (R477, R480): a rail of Table 13.3, numbered from 1 for VCORE0 to 8 for VSER, is outside its window for 1 µs;
9, VAUX, resets the aux domain. -/
def execRailFault (rail measured : Nat) (s : State) : Host.Outcome State Fault Refusal :=
  if rail = 9 then
    let s1 := s.withRegs (s.regs.filter (fun e => !(e.1 == CUP_MOD_LAST_OFF || e.1 == CUP_MOD_SAG_CNT_LO || e.1 == CUP_MOD_SAG_CNT_HI)))
    .next (s1.withModule { s1.module_ with latched := [] })
  else .next (monitorQuench s rail measured)

/-- PLL_LOCK_LOSS (R480): 10 is the root PLL, 11 a memory PHY PLL. The measured value is not stated. -/
def execPllLockLoss (pll : Nat) (s : State) : Host.Outcome State Fault Refusal :=
  let r := drawNat s
  .next (monitorQuench r.2 pll r.1)

/-- REFCLK_FAULT (R480, R481): holdover begins; the cause is 1 missing, 2 out of tolerance. -/
def execRefclkFault (cause : Nat) (s : State) : Host.Outcome State Fault Refusal :=
  if s.module_.holdover.isSome || !s.module_.rails then .next s
  else .next (logModule (s.withModule { s.module_ with holdover := some (s.module_.now, cause) }) 0x0821 [cause, 0])

/-- REFCLK_RESTORED (R480, R481): after 1 ms of valid REFCLK, the root PLL returns to it. -/
def execRefclkRestored (s : State) : Host.Outcome State Fault Refusal :=
  match s.module_.holdover with
  | some (t, cause) =>
    .next (logModule (s.withModule { s.module_ with holdover := none }) 0x0821 [cause, s.module_.now - t])
  | none => .next s

/-- THERMAL_TRIP (R480): the main rails go off, and THERM_TRIP_N is latched. -/
def execThermalTrip (sensor temp : Nat) (s : State) : Host.Outcome State Fault Refusal :=
  if !s.module_.rails then .next s else
  let s1 := latchEvent (railsOff s 4) 0x0825 [sensor, temp] (tickNow s)
  .next (s1.withModule { s1.module_ with thermal := true, needCycle := true })

/-- The status pins that are driven low (R489), in the order of CUP_MOD_PINSTAT. -/
def pinsLow (s : State) : Nat :=
  let m := s.module_
  b2n (s.mode != .ready) + 2 * b2n (!m.rails) + 4 * b2n (m.faultN || s.integ.failed) + 8 * b2n s.hlog.alerted +
  16 * b2n m.thermal + 32 * b2n (decide (m.vin < 0))

/-- STATUS_PIN_READBACK (R490): `low` are the pins that read low; a released one is shorted. -/
def execStatusPinReadback (low : Nat) (s : State) : Host.Outcome State Fault Refusal :=
  if !s.module_.aux then .next s else
  let drive := pinsLow s
  let pins := List.range 6
  let old := s.module_.shorts
  let isShort (i : Nat) : Bool := if bit drive i then bit old i else bit low i
  let s1 := s.withModule { s.module_ with shorts := (pins.map (fun i => b2n (isShort i) * 2 ^ i)).sum }
  .next ((pins.filter (fun i => isShort i && !bit old i)).foldl (fun st i => logModule st 0x0827 [i]) s1)

/-- I3C_LINE_HELD_LOW (R494): SCL (1) or SDA (2) has been low for 10 ms; the pads go to high impedance. -/
def execI3cLineHeldLow (line : Nat) (s : State) : Host.Outcome State Fault Refusal :=
  if s.module_.i3cOff.isSome || !s.module_.aux then .next s
  else .next (logModule (s.withModule { s.module_ with i3cOff := some (s.module_.now, line) }) 0x0828 [line, 1000000])

/-- I3C_LINES_RELEASED (R494): both lines have been high for 1 ms; the pads are enabled again. -/
def execI3cLinesReleased (s : State) : Host.Outcome State Fault Refusal :=
  match s.module_.i3cOff with
  | some (t, line) => .next (logModule (s.withModule { s.module_ with i3cOff := none }) 0x0828 [line, s.module_.now - t])
  | none => .next s

/-- JTAG_INSTRUCTION (R493): 0 BYPASS, 1 IDCODE, 2 SAMPLE/PRELOAD, 3 EXTEST, 4 CLAMP, 5 a private debug instruction. The
last three act only while MOD_RST_N is asserted or JTAG_EN is set, and are otherwise taken as BYPASS and logged. EXTEST and
CLAMP drive the pins and leave the device's state; what a private instruction does is not stated. -/
def execJtagInstruction (kind : Nat) (s : State) : Host.Outcome State Fault Refusal :=
  if kind < 3 then .next s
  else if !s.module_.rstHeld && !bit (rd s CUP_MOD_CTRL) 0 then .next (logDiscard s .cupola 0 0 12)
  else if kind < 5 then .next s
  else .fault .privateDebug

end Sys2Proof.Machine
end

