-- ==== Sys2Proof/Machine/Dispatch.lean ====
section
/-! DEFINITION. What each command does: one direct call of its meaning. -/
namespace Sys2Proof.Machine

def exec (i : Instr) (s : State) : Host.Outcome State Fault Refusal :=
  match i with
  | .doorbell src off width value => Sys2Proof.Machine.execDoorbell src off width value s
  | .itemAccept c x q itemParity => Sys2Proof.Machine.execItemAccept c x q itemParity s
  | .itemComplete c x q idx => Sys2Proof.Machine.execItemComplete c x q idx s
  | .nop c x q => Sys2Proof.Machine.execNop c x q s
  | .step c x q => Sys2Proof.Machine.execStep c x q s
  | .mma c x q => Sys2Proof.Machine.execMma c x q s
  | .turn c x q err => Sys2Proof.Machine.execTurn c x q err s
  | .semSignal c x q => Sys2Proof.Machine.execSemSignal c x q s
  | .semSet c x q => Sys2Proof.Machine.execSemSet c x q s
  | .semWait c x q => Sys2Proof.Machine.execSemWait c x q s
  | .semWaitSatisfied c x q => Sys2Proof.Machine.execSemWaitSatisfied c x q s
  | .semWaitShared c x q => Sys2Proof.Machine.execSemWaitShared c x q s
  | .ssemWaitSatisfied c x q => Sys2Proof.Machine.execSsemWaitSatisfied c x q s
  | .lendReturn c => Sys2Proof.Machine.execLendReturn c s
  | .add c x q err => Sys2Proof.Machine.execAdd c x q err s
  | .mul c x q err => Sys2Proof.Machine.execMul c x q err s
  | .fma c x q err => Sys2Proof.Machine.execFma c x q err s
  | .axpb c x q err => Sys2Proof.Machine.execAxpb c x q err s
  | .axpby c x q err => Sys2Proof.Machine.execAxpby c x q err s
  | .max c x q err => Sys2Proof.Machine.execMax c x q err s
  | .min c x q err => Sys2Proof.Machine.execMin c x q err s
  | .exp c x q err => Sys2Proof.Machine.execExp c x q err s
  | .log c x q err => Sys2Proof.Machine.execLog c x q err s
  | .recip c x q err => Sys2Proof.Machine.execRecip c x q err s
  | .rsqrt c x q err => Sys2Proof.Machine.execRsqrt c x q err s
  | .sum c x q err => Sys2Proof.Machine.execSum c x q err s
  | .sumsq c x q err => Sys2Proof.Machine.execSumsq c x q err s
  | .amax c x q err => Sys2Proof.Machine.execAmax c x q err s
  | .cvt c x q err => Sys2Proof.Machine.execCvt c x q err s
  | .passStart p a stalls waits err => Sys2Proof.Machine.execPassStart p a stalls waits err s
  | .planeFill p a err => Sys2Proof.Machine.execPlaneFill p a err s
  | .runnerRefillRequest p a n => Sys2Proof.Machine.execRunnerRefillRequest p a n s
  | .runnerRefillReturn p a n => Sys2Proof.Machine.execRunnerRefillReturn p a n s
  | .tileDrain p a err => Sys2Proof.Machine.execTileDrain p a err s
  | .cruQFlush src c x q wr => Sys2Proof.Machine.execCruQFlush src c x q wr s
  | .cruQEnable src c x q size => Sys2Proof.Machine.execCruQEnable src c x q size s
  | .cruQDisable src c x q => Sys2Proof.Machine.execCruQDisable src c x q s
  | .cruQReset src c x q => Sys2Proof.Machine.execCruQReset src c x q s
  | .cruQResetAct c x q => Sys2Proof.Machine.execCruQResetAct c x q s
  | .cruQResume src c x q => Sys2Proof.Machine.execCruQResume src c x q s
  | .cruQCqHeadWrite src c x q v => Sys2Proof.Machine.execCruQCqHeadWrite src c x q v s
  | .cruSemWrite src c x sem value => Sys2Proof.Machine.execCruSemWrite src c x sem value s
  | .copy c x q err => Sys2Proof.Machine.execCopy c x q err s
  | .copy2d c x q err => Sys2Proof.Machine.execCopy2d c x q err s
  | .fill c x q err => Sys2Proof.Machine.execFill c x q err s
  | .convert c x q err => Sys2Proof.Machine.execConvert c x q err s
  | .gather c x q err => Sys2Proof.Machine.execGather c x q err s
  | .scatter c x q err => Sys2Proof.Machine.execScatter c x q err s
  | .spill c x q err => Sys2Proof.Machine.execSpill c x q err s
  | .fetch c x q err => Sys2Proof.Machine.execFetch c x q err s
  | .free c x q err => Sys2Proof.Machine.execFree c x q err s
  | .pin c x q err => Sys2Proof.Machine.execPin c x q err s
  | .unpin c x q err => Sys2Proof.Machine.execUnpin c x q err s
  | .kvSpillSweep x => Sys2Proof.Machine.execKvSpillSweep x s
  | .pageMoveEnd x pg => Sys2Proof.Machine.execPageMoveEnd x pg s
  | .arm c x q => Sys2Proof.Machine.execArm c x q s
  | .runaheadCancel c x q => Sys2Proof.Machine.execRunaheadCancel c x q s
  | .runaheadFetch n => Sys2Proof.Machine.execRunaheadFetch n s
  | .runaheadLineArrive n addr => Sys2Proof.Machine.execRunaheadLineArrive n addr s
  | .peekAgeLimit n addr => Sys2Proof.Machine.execPeekAgeLimit n addr s
  | .ladleRequestIssue id => Sys2Proof.Machine.execLadleRequestIssue id s
  | .ladleResponse id code detail data => Sys2Proof.Machine.execLadleResponse id code detail data s
  | .memoryRequest write addr symbols data => Sys2Proof.Machine.execMemoryRequest write addr symbols data s
  | .scrubUnit addr symbols last => Sys2Proof.Machine.execScrubUnit addr symbols last s
  | .sweep c x q err => Sys2Proof.Machine.execSweep c x q err s
  | .lossScaleLoop => Sys2Proof.Machine.execLossScaleLoop s
  | .stage c x q err => Sys2Proof.Machine.execStage c x q err s
  | .swcheck c x q err => Sys2Proof.Machine.execSwcheck c x q err s
  | .atomic c x q err => Sys2Proof.Machine.execAtomic c x q err s
  | .trigger c x q => Sys2Proof.Machine.execTrigger c x q s
  | .assaychk c x q err => Sys2Proof.Machine.execAssaychk c x q err s
  | .prov c x q err => Sys2Proof.Machine.execProv c x q err s
  | .ldlSwpScaleMaxWrite src v => Sys2Proof.Machine.execLdlSwpScaleMaxWrite src v s
  | .ldlSlagNfClear src x => Sys2Proof.Machine.execLdlSlagNfClear src x s
  | .barrier c x q => Sys2Proof.Machine.execBarrier c x q s
  | .phase c x q => Sys2Proof.Machine.execPhase c x q s
  | .scalar c x q err => Sys2Proof.Machine.execScalar c x q err s
  | .reduce c x q err => Sys2Proof.Machine.execReduce c x q err s
  | .bcast c x q err => Sys2Proof.Machine.execBcast c x q err s
  | .cancel c x q => Sys2Proof.Machine.execCancel c x q s
  | .upPacket g seq sender sig aop crit dim fault residue vals => Sys2Proof.Machine.execUpPacket g seq sender sig aop crit dim fault residue vals s
  | .downPacket g seq sender sig aop crit dim fault vals => Sys2Proof.Machine.execDownPacket g seq sender sig aop crit dim fault vals s
  | .readyNotice g seq sender sig aop pour stage addr fault => Sys2Proof.Machine.execReadyNotice g seq sender sig aop pour stage addr fault s
  | .doneNotice g seq sender sig pour stage crit dim fault residue => Sys2Proof.Machine.execDoneNotice g seq sender sig pour stage crit dim fault residue s
  | .lanePartials g seq sender sig stage crit dim flag fault residue lanes => Sys2Proof.Machine.execLanePartials g seq sender sig stage crit dim flag fault residue lanes s
  | .bcastChunk g seq sender sig chunk dim data => Sys2Proof.Machine.execBcastChunk g seq sender sig chunk dim data s
  | .void g seq sender sig => Sys2Proof.Machine.execVoid g seq sender sig s
  | .alyGrpEnable src g v => Sys2Proof.Machine.execAlyGrpEnable src g v s
  | .alyGrpDisable src g => Sys2Proof.Machine.execAlyGrpDisable src g s
  | .alyGrpAbort src g => Sys2Proof.Machine.execAlyGrpAbort src g s
  | .alyGrpCancel src g => Sys2Proof.Machine.execAlyGrpCancel src g s
  | .alloyTest => Sys2Proof.Machine.execAlloyTest s
  | .alloyTestEnd pass => Sys2Proof.Machine.execAlloyTestEnd pass s
  | .tndCtxEnable src x => Sys2Proof.Machine.execTndCtxEnable src x s
  | .tndCtxDisable src x => Sys2Proof.Machine.execTndCtxDisable src x s
  | .tndCtxStop src x => Sys2Proof.Machine.execTndCtxStop src x s
  | .tndCtxUnstop src x => Sys2Proof.Machine.execTndCtxUnstop src x s
  | .applyCset src x => Sys2Proof.Machine.execApplyCset src x s
  | .arbitration c => Sys2Proof.Machine.execArbitration c s
  | .contextSwitchEnd c => Sys2Proof.Machine.execContextSwitchEnd c s
  | .quantumExpiry c => Sys2Proof.Machine.execQuantumExpiry c s
  | .slotGuardOpen slot => Sys2Proof.Machine.execSlotGuardOpen slot s
  | .slotStart slot ecc => Sys2Proof.Machine.execSlotStart slot ecc s
  | .slotEnd slot => Sys2Proof.Machine.execSlotEnd slot s
  | .tndSchedSwap src => Sys2Proof.Machine.execTndSchedSwap src s
  | .schedSwapApply => Sys2Proof.Machine.execSchedSwapApply s
  | .tndMoveReq src c => Sys2Proof.Machine.execTndMoveReq src c s
  | .moveEnd c => Sys2Proof.Machine.execMoveEnd c s
  | .tndSsemValWrite src sem v => Sys2Proof.Machine.execTndSsemValWrite src sem v s
  | .tndCtxBtFlip src x b => Sys2Proof.Machine.execTndCtxBtFlip src x b s
  | .btFlipApply x => Sys2Proof.Machine.execBtFlipApply x s
  | .sprueBringup h b => Sys2Proof.Machine.execSprueBringup h b s
  | .bringupRetry h b => Sys2Proof.Machine.execBringupRetry h b s
  | .flitReceive h ucw csym f ecc => Sys2Proof.Machine.execFlitReceive h ucw csym f ecc s
  | .nak h seq => Sys2Proof.Machine.execNak h seq s
  | .linkAck h seq => Sys2Proof.Machine.execLinkAck h seq s
  | .ackSendTimer h => Sys2Proof.Machine.execAckSendTimer h s
  | .ackTimeout h => Sys2Proof.Machine.execAckTimeout h s
  | .retrain h cause lane => Sys2Proof.Machine.execRetrain h cause lane s
  | .retrainEnd h ok rxFail txFail => Sys2Proof.Machine.execRetrainEnd h ok rxFail txFail s
  | .linkDown h => Sys2Proof.Machine.execLinkDown h s
  | .linkSeqQuery h ask last => Sys2Proof.Machine.execLinkSeqQuery h ask last s
  | .partnerAnswerTimeout h => Sys2Proof.Machine.execPartnerAnswerTimeout h s
  | .escapeWait h => Sys2Proof.Machine.execEscapeWait h s
  | .creditReserve h slice req rsp kind cls => Sys2Proof.Machine.execCreditReserve h slice req rsp kind cls s
  | .lpIdleTimer h => Sys2Proof.Machine.execLpIdleTimer h s
  | .lpPropose h => Sys2Proof.Machine.execLpPropose h s
  | .lpAccept h => Sys2Proof.Machine.execLpAccept h s
  | .lpDecline h => Sys2Proof.Machine.execLpDecline h s
  | .lpAbort h => Sys2Proof.Machine.execLpAbort h s
  | .electricalIdleEntry h => Sys2Proof.Machine.execElectricalIdleEntry h s
  | .lpWake h => Sys2Proof.Machine.execLpWake h s
  | .lpExitDetect h => Sys2Proof.Machine.execLpExitDetect h s
  | .sprEnable src h on_ => Sys2Proof.Machine.execSprEnable src h on_ s
  | .sprRetrain src h => Sys2Proof.Machine.execSprRetrain src h s
  | .sprFenceChange src link v => Sys2Proof.Machine.execSprFenceChange src link v s
  | .sprRtCheck src beyond => Sys2Proof.Machine.execSprRtCheck src beyond s
  | .sprRtDataAccess src write v => Sys2Proof.Machine.execSprRtDataAccess src write v s
  | .sprTakeover src v => Sys2Proof.Machine.execSprTakeover src v s
  | .rdS pos off tag slice bank cut => Sys2Proof.Machine.execRdS pos off tag slice bank cut s
  | .rdX pos off tag slice bank cut => Sys2Proof.Machine.execRdX pos off tag slice bank cut s
  | .rdOnce pos off tag slice bank cut => Sys2Proof.Machine.execRdOnce pos off tag slice bank cut s
  | .wr pos off tag slice bank cut data => Sys2Proof.Machine.execWr pos off tag slice bank cut data s
  | .atCmd pos off tag slice bank cut aop operand compare => Sys2Proof.Machine.execAtCmd pos off tag slice bank cut aop operand compare s
  | .wb pos off tag slice bank cut data => Sys2Proof.Machine.execWb pos off tag slice bank cut data s
  | .peek pos off tag slice bank cut => Sys2Proof.Machine.execPeek pos off tag slice bank cut s
  | .check pos off tag slice bank cut version => Sys2Proof.Machine.execCheck pos off tag slice bank cut version s
  | .snpInv f line slice bank => Sys2Proof.Machine.execSnpInv f line slice bank s
  | .snpShr f line slice bank => Sys2Proof.Machine.execSnpShr f line slice bank s
  | .snpRcl f line slice bank => Sys2Proof.Machine.execSnpRcl f line slice bank s
  | .data tag version mask data => Sys2Proof.Machine.execData tag version mask data s
  | .ack reply pos line tag mask data => Sys2Proof.Machine.execAck reply pos line tag mask data s
  | .ackData pos line data => Sys2Proof.Machine.execAckData pos line data s
  | .peekMiss tag => Sys2Proof.Machine.execPeekMiss tag s
  | .checkOk tag => Sys2Proof.Machine.execCheckOk tag s
  | .checkFail tag => Sys2Proof.Machine.execCheckFail tag s
  | .refused tag reason => Sys2Proof.Machine.execRefused tag reason s
  | .done pos line => Sys2Proof.Machine.execDone pos line s
  | .remoteAccessArrive src slice bank tag kind a n data fmt cut => Sys2Proof.Machine.execRemoteAccessArrive src slice bank tag kind a n data fmt cut s
  | .triggerPacket src slice bank tag t arg cut => Sys2Proof.Machine.execTriggerPacket src slice bank tag t arg cut s
  | .remoteRequestTimeout id => Sys2Proof.Machine.execRemoteRequestTimeout id s
  | .snoopTimeout pos line => Sys2Proof.Machine.execSnoopTimeout pos line s
  | .flkTrigValid src t v => Sys2Proof.Machine.execFlkTrigValid src t v s
  | .flkClrDead src => Sys2Proof.Machine.execFlkClrDead src s
  | .flkWinEn src v => Sys2Proof.Machine.execFlkWinEn src v s
  | .fettleDue p => Sys2Proof.Machine.execFettleDue p s
  | .fettleDefer p => Sys2Proof.Machine.execFettleDefer p s
  | .fettleRetry p => Sys2Proof.Machine.execFettleRetry p s
  | .fettleDeadline p => Sys2Proof.Machine.execFettleDeadline p s
  | .fettleTestEnd p pass phase signature => Sys2Proof.Machine.execFettleTestEnd p pass phase signature s
  | .cupIntCtrlVerify src on_ => Sys2Proof.Machine.execCupIntCtrlVerify src on_ s
  | .clrChoice src => Sys2Proof.Machine.execClrChoice src s
  | .cupIntTaintClear src v => Sys2Proof.Machine.execCupIntTaintClear src v s
  | .digestRecord key digest => Sys2Proof.Machine.execDigestRecord key digest s
  | .copeUnmatchedTimeout => Sys2Proof.Machine.execCopeUnmatchedTimeout s
  | .cupIngEnable src v => Sys2Proof.Machine.execCupIngEnable src v s
  | .cut src => Sys2Proof.Machine.execCut src s
  | .abandon src => Sys2Proof.Machine.execAbandon src s
  | .cutTake peers => Sys2Proof.Machine.execCutTake peers s
  | .chillAnnounce pos => Sys2Proof.Machine.execChillAnnounce pos s
  | .drainPacket src epoch n addr data => Sys2Proof.Machine.execDrainPacket src epoch n addr data s
  | .sealRecord src epoch step pages digest => Sys2Proof.Machine.execSealRecord src epoch step pages digest s
  | .sealed src epoch result => Sys2Proof.Machine.execSealed src epoch result s
  | .drainRetry => Sys2Proof.Machine.execDrainRetry s
  | .restore src => Sys2Proof.Machine.execRestore src s
  | .restoreComplete => Sys2Proof.Machine.execRestoreComplete s
  | .load src => Sys2Proof.Machine.execLoad src s
  | .loadComplete fail image pages lines => Sys2Proof.Machine.execLoadComplete fail image pages lines s
  | .cupQuenchArm src v => Sys2Proof.Machine.execCupQuenchArm src v s
  | .cupQuenchGo src v => Sys2Proof.Machine.execCupQuenchGo src v s
  | .shakeoutEnd absent => Sys2Proof.Machine.execShakeoutEnd absent s
  | .quenchComplete lost partner => Sys2Proof.Machine.execQuenchComplete lost partner s
  | .coldStart c => Sys2Proof.Machine.execColdStart c s
  | .supervisionPass p10 tj temps inlet outlet lost => Sys2Proof.Machine.execSupervisionPass p10 tj temps inlet outlet lost s
  | .rootPointChangeEnd => Sys2Proof.Machine.execRootPointChangeEnd s
  | .inputOverLimit => Sys2Proof.Machine.execInputOverLimit s
  | .riskUpdate lanes => Sys2Proof.Machine.execRiskUpdate lanes s
  | .riskDecay => Sys2Proof.Machine.execRiskDecay s
  | .cupVfLimitWrite src ceil v => Sys2Proof.Machine.execCupVfLimitWrite src ceil v s
  | .cupRiskAccWrite src u v => Sys2Proof.Machine.execCupRiskAccWrite src u v s
  | .read src ok tag space width addr => Sys2Proof.Machine.execRead src ok tag space width addr s
  | .write src ok tag space width addr v => Sys2Proof.Machine.execWrite src ok tag space width addr v s
  | .unitRead src ok tag u => Sys2Proof.Machine.execUnitRead src ok tag u s
  | .orderStop src ok tag u => Sys2Proof.Machine.execOrderStop src ok tag u s
  | .orderResume src ok tag u => Sys2Proof.Machine.execOrderResume src ok tag u s
  | .orderDisableContext src ok tag u => Sys2Proof.Machine.execOrderDisableContext src ok tag u s
  | .orderMove src ok tag u => Sys2Proof.Machine.execOrderMove src ok tag u s
  | .orderDisableGroup src ok tag u => Sys2Proof.Machine.execOrderDisableGroup src ok tag u s
  | .orderRetrain src ok tag u => Sys2Proof.Machine.execOrderRetrain src ok tag u s
  | .orderDown src ok tag u => Sys2Proof.Machine.execOrderDown src ok tag u s
  | .orderUp src ok tag u => Sys2Proof.Machine.execOrderUp src ok tag u s
  | .orderCut src ok tag u => Sys2Proof.Machine.execOrderCut src ok tag u s
  | .orderApply u => Sys2Proof.Machine.execOrderApply u s
  | .imageBegin src ok tag len program => Sys2Proof.Machine.execImageBegin src ok tag len program s
  | .imageData src ok tag off data => Sys2Proof.Machine.execImageData src ok tag off data s
  | .imageEnd src ok tag c => Sys2Proof.Machine.execImageEnd src ok tag c s
  | .imageStatus src ok tag => Sys2Proof.Machine.execImageStatus src ok tag s
  | .fuseKey src ok tag hash require => Sys2Proof.Machine.execFuseKey src ok tag hash require s
  | .hlogRead src ok tag first count => Sys2Proof.Machine.execHlogRead src ok tag first count s
  | .nvmProgramDone diffs => Sys2Proof.Machine.execNvmProgramDone diffs s
  | .hlogTokenRefill => Sys2Proof.Machine.execHlogTokenRefill s
  | .hlgClear src => Sys2Proof.Machine.execHlgClear src s
  | .hlogClearEnd => Sys2Proof.Machine.execHlogClearEnd s
  | .mtrMapGo src => Sys2Proof.Machine.execMtrMapGo src s
  | .mtrCloseGo src => Sys2Proof.Machine.execMtrCloseGo src s
  | .mtrIntervalClose => Sys2Proof.Machine.execMtrIntervalClose s
  | .mtrAckWrite src v => Sys2Proof.Machine.execMtrAckWrite src v s
  | .mtrRangeTick => Sys2Proof.Machine.execMtrRangeTick s
  | .inputVoltageChange mV amps => Sys2Proof.Machine.execInputVoltageChange mV amps s
  | .overVoltageReconnect => Sys2Proof.Machine.execOverVoltageReconnect s
  | .pwrEnAssert cool => Sys2Proof.Machine.execPwrEnAssert cool s
  | .pwrEnDeassert => Sys2Proof.Machine.execPwrEnDeassert s
  | .modRstNAssert => Sys2Proof.Machine.execModRstNAssert s
  | .perstN => Sys2Proof.Machine.execPerstN s
  | .railFault rail measured => Sys2Proof.Machine.execRailFault rail measured s
  | .pllLockLoss pll => Sys2Proof.Machine.execPllLockLoss pll s
  | .refclkFault cause => Sys2Proof.Machine.execRefclkFault cause s
  | .refclkRestored => Sys2Proof.Machine.execRefclkRestored s
  | .thermalTrip sensor temp => Sys2Proof.Machine.execThermalTrip sensor temp s
  | .statusPinReadback low => Sys2Proof.Machine.execStatusPinReadback low s
  | .i3cLineHeldLow line => Sys2Proof.Machine.execI3cLineHeldLow line s
  | .i3cLinesReleased => Sys2Proof.Machine.execI3cLinesReleased s
  | .jtagInstruction kind => Sys2Proof.Machine.execJtagInstruction kind s
  | .counterLoRead src off => Sys2Proof.Machine.execCounterLoRead src off s
  | .counterHiRead src off => Sys2Proof.Machine.execCounterHiRead src off s
  | .counterPairRead src off => Sys2Proof.Machine.execCounterPairRead src off s
  | .rcRead src off => Sys2Proof.Machine.execRcRead src off s
  | .registerWrite src bar4 off width v => Sys2Proof.Machine.execRegisterWrite src bar4 off width v s
  | .bar2Read off n => Sys2Proof.Machine.execBar2Read off n s
  | .bar2Write off data => Sys2Proof.Machine.execBar2Write off data s
  | .glbBar2BaseWrite src v => Sys2Proof.Machine.execGlbBar2BaseWrite src v s
  | .mainRailHoldExpiry => Sys2Proof.Machine.execMainRailHoldExpiry s
  | .pcieLinkUp width rate => Sys2Proof.Machine.execPcieLinkUp width rate s

end Sys2Proof.Machine
end

