-- ==== Sys2Proof/Machine/Tick.lean ====
section
/-! DEFINITION. One REFCLK tick: the counters that count time (R141, R460, R481, Tables 3.14, 6.6, 12.12), and the work that
waits for nothing but time. -/
namespace Sys2Proof.Machine
open Reg

/-- Clock cycles of a period, in half root cycles, that end between two times. -/
def cyclesIn (s : State) (half0 period : Nat) : Nat := s.clock.half / period - half0 / period

/-- The items that a physical crucible executes now: issued, and not completed. -/
def running (s : State) (p : Nat) : List Item :=
  match carriedBy s p with
  | none => []
  | some c => s.queues.flatMap (fun e => if qCru e.1 = c then e.2.items.filter (fun i => i.phase != .accepted && i.phys == p) else [])

/-- Whether an item keeps an array, the vector unit or the turn port busy. -/
def keepsBusy (i : Item) : Bool := decide (0x10 ≤ i.op ∧ i.op < 0x40)

/-- Whether a queue's oldest incomplete item belongs to a unit, by the opcodes `p` (R141). -/
def oldestIs (s : State) (c x : Nat) (p : Nat → Bool) : Bool :=
  (List.range 8).any (fun q => match (qOf s (qKey c x q)).items.head? with
    | some i => p i.op
    | none => false)

/-- The counter of Table 3.14 that a physical crucible's tick belongs to, by its place (R141); the record limit of
cope/drag counts as a limit (R389), and a cut's hold as a slot (R405). -/
def tickClass (s : State) (p : Nat) : Nat :=
  let busy := (List.range 8).any (fun a => (arrOf s p a).cmd.isSome) || (running s p).any keepsBusy
  let c := cruOf s p
  if busy then 0
  else if c.testing.isSome then 5
  else if s.cup.hold || s.clock.changing.isSome || decide (65536 ≤ s.integ.mine.length) then 6
  else match c.resident, carriedBy s p with
    | some x, some l =>
      if c.switching.isSome || cutHolds s x then 4
      else if oldestIs s l x (fun o => decide (0x50 ≤ o ∧ o < 0x60)) then 1
      else if oldestIs s l x (fun o => o == 0x40) then 2
      else if oldestIs s l x (fun o => o == 0x61 || o == 0x62) then 3
      else 7
    | _, _ => 4

/-- One physical crucible's tick (R141), the meters of its resident context (Table 12.9), and the context's run time. -/
def tickCrucible (s : State) (p : Nat) : State :=
  let k := tickClass s p
  let s1 := cntAdd s (gateCnt p k) 1
  let s2 := if k = 0 ∧ (running s p).any (fun i => keepsBusy i && hRecomp (i.w 0)) then cntAdd s1 (gateCnt p 8) 1 else s1
  match (cruOf s p).resident with
  | none => s2
  | some x =>
    let t := sliceTag s x
    let s3 := cntAdd (cntAdd s2 (TND_CTX_RUN_CNT_LO x) 1) (MTR_SLICE_CNT_LO t 0) 1
    if bit (rd s (TND_CTX_CTRL x)) 7 then cntAdd s3 (MTR_SLICE_CNT_LO t 1) 1 else s3

/-- Slices with a request that waits for response slots (R188). -/
def slotWaits (s : State) : Nat :=
  (List.range 4).countP (fun k => s.ladle.reqs.any (fun r =>
    r.slice == k && r.issued.isNone && decide (sliceSlots < spGet s.ladle.slots k 0 + r.slots)))

/-- Whether a packet is ready on a link and has no credit (Table 7.8). -/
def creditWait (s : State) (h : Nat) : Bool :=
  let l := linkAt s h
  l.waits.any (fun w => linkUsable s w.hdr h && (!shareLeft s h w ||
    decide (keyCap s h (packetKey w.hdr) < spGet l.used (packetKey w.hdr) 0 + w.hdr.flits)))

/-- The counters of cycles in which something waits: collectives, Ladle requests and packets. -/
def tickWaits (s : State) (half0 : Nat) : State :=
  let f := cyclesIn s half0 fclkHalf
  let s1 := s.alloy.foldl (fun st e => match e.2.cur with
    | some c => if c.granted.isSome then cntAdd st (ALY_GRP_WAIT_CNT_LO e.1) f else st
    | none => st) s
  let s2 := cntAdd s1 LDL_RESV_WAIT_CNT_LO (f * slotWaits s)
  s.sprues.links.foldl (fun st e =>
    if creditWait s e.1 then cntAdd st (SPR_CREDWAIT_CNT_LO (e.1 / 2) (e.1 % 2)) (cyclesIn s half0 lclkHalf) else st) s2

/-- A schedule cycle that ends with this tick (R238). -/
def tickCycle (s : State) : State :=
  let c := cycleLen s s.tnd.bank * 1000
  let o := rd64 s TND_CYC_ORIGIN_LO
  if decide (c ≠ 0) && decide (o < tickNow s) && decide ((tickNow s - o) % c = 0) then
    cntAdd s TND_CYCLE_CNT_LO 1
  else s

/-- The meters as they stand at an armed boundary are kept for its close (R462). -/
def tickBoundary (s : State) : State :=
  match s.meters.armed with
  | some (b, _, _) => if b = tickNow s then s.withMeters { s.meters with atEnd := some (meterVals s) } else s
  | none => s

/-- The tick of the aux domain: an input dip below 48 V counts once it has lasted 10 µs (R475). -/
def tickModule (s : State) : State :=
  let m := s.module_
  let s1 := s.withModule { m with now := m.now + 1 }
  match m.dipAt with
  | some t => if m.now + 1 < t + 1000 then s1
    else cntAdd (s1.withModule { s1.module_ with dipAt := none }) CUP_MOD_SAG_CNT_LO 1
  | none => s1

/-- What the running device does in a tick: the clocks, then every counter of time, then the home's queue (R339). -/
def tickReady (s : State) (half0 : Nat) : State :=
  let s1 := (List.range 264).foldl tickCrucible s
  let s2 := tickCycle (tickWaits s1 half0)
  let s3 := cntAdd s2 CUP_ING_HOLD_CNT_LO (b2n s.ingot.sweepHeld.isSome)
  homePump (cntAdd s3 CUP_ING_STOREWAIT_CNT_LO (b2n s.ingot.waiting))

/-- One REFCLK tick. -/
def tick (s : State) : State :=
  let s0 := tickModule s
  if !serving s then s0 else
  let half0 := s0.clock.half
  let s1 := s0.withClock { s0.clock with now := s0.clock.now + 1, half := half0 + 96 + s0.clock.point }
  let s2 := cntAdd s1 CUP_MOD_HOLDOVER_CNT_LO (b2n s1.module_.holdover.isSome)
  let s3 := cntAdd s2 CUP_HOLD_CNT_LO (b2n s2.cup.hold)
  tickBoundary (if s3.mode == .ready then tickReady s3 half0 else s3)

end Sys2Proof.Machine
end

