-- ==== Sys2Proof/Safety.lean ====
section
/-! DEFINITION. What a good state is and what a safe step is, in the terms that the statements use. -/
namespace Sys2Proof.Machine

/-- The tiers, the casting buffers and the scratchpads are in their canonical form: equal contents are equal data. -/
def State.canonical (s : State) : Prop := Memory.wf s.mem = true ∧ Memory.wf s.spad = true

/-- A step that completes: it answers a next state. -/
def completes (s : State) : Prop := ∃ t, step s = .next t

/-- The key fuses (R431): whether they are programmed, the hash, and REQUIRE. -/
def State.fuses (s : State) : Bool × List Byte × Bool := (s.cup.fused, s.cup.fuseHash, s.cup.require)

/-- A recorder in order (R465 to R468): at most 16,384 entries of sixteen words, whose words 0 count up from the first
SEQ; at most 64 events waiting; every listed bucket short of its sixteen tokens; no entry while a clear is under way. -/
def HeatLog.sound (h : HeatLog) : Prop :=
  h.nextSeq < 2 ^ 32 ∧ h.entries.length ≤ hlogSize ∧ h.waiting.length ≤ 64 ∧ (∀ e ∈ h.entries, e.length = 16) ∧ (∀ e ∈ h.tokens, e.2 < 16) ∧
  (h.clearing.isSome = true → h.entries = []) ∧
  (h.clearing = none → h.nextSeq = (h.firstSeq + h.entries.length) % 2 ^ 32) ∧
  (∀ i, i < h.entries.length → (h.entries.getD i []).head? = some (BitVec.ofNat 32 (h.firstSeq + i)))

/-- A state in order: memory in its canonical form, and a recorder in order. -/
def State.inOrder (s : State) : Prop := s.canonical ∧ s.hlog.sound

/-- A state in which no command has to wait for another: no ingot cut holds the sprue, and no line of memory is
waited for. -/
def State.calm (s : State) : Prop := s.ingot.blocked = false ∧ s.ingot.waiting = false ∧ s.flask.need = []

/-- The registers that recording an event advances: the HLG block, and the count of host writes dropped (R470, R487). -/
def logReg (o : Nat) : Bool :=
  (decide (0x20000 ≤ o) && decide (o < 0x30000)) || o == Reg.CUP_MOD_HOSTDROP_CNT_LO || o == Reg.CUP_MOD_HOSTDROP_CNT_HI

/-- `t` is `s` but for what recording an event leaves: the recorder, its registers, the MSI-X pending bits and the
outputs. -/
def recordsOnly (s t : State) : Prop :=
  t = { s with regs := t.regs, hlog := t.hlog, bar4 := t.bar4, out := t.out } ∧ ∀ o, logReg o = false → reg t o = reg s o

end Sys2Proof.Machine
end

