-- ==== Sys2Proof/Certificates/Slice0/Obligations.lean ====
section
/-! DEFINITION. What the provers are to settle: the statements about the block, family by family. A statement that rests on
a choice of the model names its entry of the assumption log. `recordsOnly s t` says that `t` is `s` but for what recording
an event leaves. -/
open Sys2Proof Sys2Proof.Machine Sys2Proof.Machine.Reg

/-- A step with a command at the front of the queue is that command on the state with the queue's rest. -/
def Obligations.StepRunsFrontCommand : Prop :=
  ∀ (c : Instr) (rest : List Instr) (s : State), s.pending = c :: rest → step s = exec c { s with pending := rest }

/-- With no command waiting a step is one tick: the module's clock alone runs while the main domain is held, and in a
running domain the tick count and the root clock advance too (R460). The model's choice (log entry 2). -/
def Obligations.EmptyQueueStepIsOneTick : Prop :=
  ∀ s : State, s.pending = [] → step s = .next (tick s) ∧
    (serving s = false → ∃ t, step s = .next t ∧ t.module_.now = s.module_.now + 1 ∧ t.clock = s.clock) ∧
    (serving s = true → s.mode ≠ .ready → ∃ t, step s = .next t ∧ t.module_.now = s.module_.now + 1 ∧
      t.clock.now = s.clock.now + 1 ∧ t.clock.half = s.clock.half + 96 + s.clock.point)

/-- Every command but JTAG_INSTRUCTION answers a next state, from every state and with every operand. -/
def Obligations.EveryCommandCompletes : Prop :=
  ∀ (c : Instr) (s : State), (∀ kind, c ≠ .jtagInstruction kind) → ∃ t, exec c s = .next t

/-- The queue is first in, first out: a step takes its front and leaves the rest as it was. -/
def Obligations.QueueIsFirstInFirstOut : Prop :=
  ∀ s t : State, s.inOrder → step s = .next t → t.pending = s.pending.tail

/-- No step changes fuses that are programmed (R431: the fuses are programmed once). -/
def Obligations.ProgrammedFusesStay : Prop :=
  ∀ s t : State, s.inOrder → s.fuses.1 = true → step s = .next t → t.fuses = s.fuses

/-- Every step keeps the canonical form of memory and scratchpads, and the order of the Heat Log (R465 to R468). -/
def Obligations.EveryStepKeepsOrder : Prop :=
  ∀ s t : State, s.inOrder → step s = .next t → t.inOrder

/-- The state after reset is in order, its queue and its outputs are empty, and nothing is fused; every register reads its
reset value, every tier and scratchpad byte reads zero, the main domain is held in reset with its rails on, and the Heat Log
is empty. That the rails are on is the model's choice (log entry 7), and so is a value that the specification does not
state (log entries 1 and 12). -/
def Obligations.ResetState : Prop :=
  State.reset.inOrder ∧ State.reset.pending = [] ∧ State.reset.out = [] ∧ State.reset.fuses = (false, [], false) ∧
  (∀ o, reg State.reset o = regReset o) ∧ (∀ a, byteAt State.reset.mem a = 0) ∧ (∀ a, byteAt State.reset.spad a = 0) ∧
  State.reset.mode = .held ∧ State.reset.module_.rstHeld = true ∧ State.reset.module_.rails = true ∧
  State.reset.hlog.entries = [] ∧ State.reset.hlog.firstSeq = 1 ∧ State.reset.hlog.nextSeq = 1

/-- While READY is not shown, requests to the BARs complete as Unsupported Request, and leave nothing else, no Heat Log
entry among it (R498). -/
def Obligations.NotReadyIsUnsupported : Prop :=
  ∀ (s : State) (src : Src) (o w v n x y z : Nat) (b : Bool) (d : List (Option Byte)), s.mode ≠ .ready →
    exec (.doorbell src o w v) s = .next (emit s (.unsupported src)) ∧
    exec (.registerWrite src b o w v) s = .next (emit s (.unsupported src)) ∧
    exec (.counterLoRead src o) s = .next (emit s (.unsupported src)) ∧
    exec (.counterHiRead src o) s = .next (emit s (.unsupported src)) ∧
    exec (.counterPairRead src o) s = .next (emit s (.unsupported src)) ∧
    exec (.rcRead src o) s = .next (emit s (.unsupported src)) ∧
    exec (.bar2Read o n) s = .next (emit s (.unsupported .pcie)) ∧
    exec (.bar2Write o d) s = .next (emit s (.unsupported .pcie)) ∧
    exec (.hlgClear src) s = .next (emit s (.unsupported src)) ∧
    exec (.cruSemWrite src x y z (BitVec.ofNat 32 v)) s = .next (emit s (.unsupported src))

/-- Doorbells (R96). One of 1 to 65,535 words to an enabled queue with room advances PUB by the count, and changes nothing
else. A discarded one leaves its events only: one at a place that is none, of another width, of no words or of more than
sixteen bits; one to a disabled queue; one that would fill more than the ring. -/
def Obligations.Doorbells : Prop :=
  (∀ (src : Src) (k count : Nat) (s : State), s.mode = .ready → k < 32768 → 1 ≤ count → count < 2 ^ 16 →
    qEnabled s k = true → qAvail s k + count ≤ qSize s k → (qOf s k).walk = none →
    exec (.doorbell src (k * 0x40) 4 count) s = .next (setReg s (qReg k 0x10) (qPub s k + count))) ∧
  (∀ (src : Src) (off width value : Nat) (s : State), s.mode = .ready →
    (0x200000 ≤ off ∨ off % 0x40 ≠ 0 ∨ width ≠ 4 ∨ value % 2 ^ 16 = 0 ∨ 2 ^ 16 ≤ value) →
    ∃ t, exec (.doorbell src off width value) s = .next t ∧ recordsOnly s t) ∧
  (∀ (src : Src) (k count : Nat) (s : State), s.mode = .ready → k < 32768 → 1 ≤ count → count < 2 ^ 16 →
    (qEnabled s k = false ∨ qSize s k < qAvail s k + count) →
    ∃ t, exec (.doorbell src (k * 0x40) 4 count) s = .next t ∧ recordsOnly s t)

/-- The register commands of a queue (R119, R134, R139, R140, R517, R518), each where it has its effect. -/
def Obligations.QueueRegisterCommands : Prop :=
  ∀ (src : Src) (c x q size sem : Nat) (v : Word) (s : State), s.mode = .ready → s.calm → c < 256 → x < 16 → q < 8 → sem < 64 →
    ((flush s src (qKey c x q) v.toNat).calm →
      exec (.cruQFlush src c x q v) s = .next (flush s src (qKey c x q) v.toNat)) ∧
    ((resume s src (qKey c x q)).calm → exec (.cruQResume src c x q) s = .next (resume s src (qKey c x q))) ∧
    ((cqHeadWrite s src (qKey c x q) v.toNat).calm →
      exec (.cruQCqHeadWrite src c x q v) s = .next (cqHeadWrite s src (qKey c x q) v.toNat)) ∧
    (qEnabled s (qKey c x q) = true → cqOn s (qKey c x q) = false →
      (2 ^ 32 + v.toNat - qPub s (qKey c x q)) % 2 ^ 32 < 2 ^ 31 →
      (2 ^ 32 + v.toNat - qHead s (qKey c x q)) % 2 ^ 32 ≤ qSize s (qKey c x q) →
      ∃ t, exec (.cruQFlush src c x q v) s = .next t ∧
        rd t (qReg (qKey c x q) 0x10) = (2 ^ 32 + qPub s (qKey c x q) - qHeld s (qKey c x q)) % 2 ^ 32 ∧
        rd t (qReg (qKey c x q) 0x20) = (2 ^ 32 + qPub s (qKey c x q) - qHeld s (qKey c x q)) % 2 ^ 32) ∧
    (qEnabled s (qKey c x q) = false → size ≤ 8 → enableOk s (qKey c x q) (1 + size * 16) = true →
      (qOf s (qKey c x q)).walk = none →
      ∃ t, exec (.cruQEnable src c x q size) s = .next t ∧ qEnabled t (qKey c x q) = true ∧
        qSize t (qKey c x q) = 2 ^ (10 + size) ∧ recordsOnly (setReg s (qReg (qKey c x q) 0) (1 + size * 16)) t) ∧
    (qEnabled s (qKey c x q) = true →
      ∃ t, exec (.cruQDisable src c x q) s = .next t ∧ qEnabled t (qKey c x q) = false ∧
        recordsOnly (setReg s (qReg (qKey c x q) 0) (rd s (qReg (qKey c x q) 0) - 1)) t) ∧
    ((qOf s (qKey c x q)).resetPend = false → inFlight (qOf s (qKey c x q)) = false →
      ∃ t, exec (.cruQReset src c x q) s = .next t ∧ qHead t (qKey c x q) = qPub s (qKey c x q) ∧
        rd t (qReg (qKey c x q) 0x20) = qPub s (qKey c x q) ∧ rd t (qReg (qKey c x q) 0x38) = 0 ∧
        qOf t (qKey c x q) = { QState.init with crossed := true }) ∧
    ((qOf s (qKey c x q)).resetPend = true → inFlight (qOf s (qKey c x q)) = false →
      ∃ t, exec (.cruQResetAct c x q) s = .next t ∧ qHead t (qKey c x q) = qPub s (qKey c x q) ∧
        rd t (qReg (qKey c x q) 0x20) = qPub s (qKey c x q) ∧ rd t (qReg (qKey c x q) 0x38) = 0 ∧
        qOf t (qKey c x q) = { QState.init with crossed := true }) ∧
    ((qOf s (qKey c x q)).halted = true → (qOf s (qKey c x q)).poisonedHead = false → (qOf s (qKey c x q)).refBnd = false →
      qAvail s (qKey c x q) = 0 →
      ∃ t, exec (.cruQResume src c x q) s = .next t ∧ (qOf t (qKey c x q)).halted = false ∧
        (qOf t (qKey c x q)).walk = some 0) ∧
    ((qOf s (qKey c x q)).held = [] →
      ∃ t, exec (.cruQCqHeadWrite src c x q v) s = .next t ∧ rd t (qReg (qKey c x q) 0x30) = v.toNat) ∧
    (∃ t, exec (.cruSemWrite src c x sem v) s = .next t ∧ rd t (CRU_SEM c x sem) = v.toNat)

/-- An item is accepted once its words are read without loss and no check refuses it: HEAD passes it and it joins its
queue's items (R99, R101). A done item completes with its status (R113, R137). -/
def Obligations.ItemsAreAcceptedAndCompleted : Prop :=
  (∀ (c x q h : Nat) (ws : List Nat) (s r u : State), qCtx (qKey c x q) = x → qCru (qKey c x q) = c →
    mayAccept s (qKey c x q) = true →
    (beginsCommand (qOf s (qKey c x q)) = true → (qOf s (qKey c x q)).items = [] ∧ (guarded s x c = false ∨ hKeep h = true)) →
    devRead s (itemAgent x (physOf s c)) (qWordAddr s (qKey c x q) (qHead s (qKey c x q))) 4 = (r, leBytes 4 h, 0) → h < 2 ^ 32 →
    hLen h ≤ qAvail s (qKey c x q) → acceptStopped s (hOp h) = false →
    itemWords s (qKey c x q) (qHead s (qKey c x q)) (hLen h) = (u, ws, 0) → ws.head? = some h → u.calm →
    gateReasons u x (newItem s (qKey c x q) ws) (beginsCommand (qOf s (qKey c x q)))
      (beginsCommand (qOf s (qKey c x q)) && (qOf u (qKey c x q)).crossed) = [] →
    (hOp h = 0x40 → ladleCheck u x c (newItem s (qKey c x q) ws) = none) →
    (hOp h = 0x50 → alloyCheck u x c (newItem s (qKey c x q) ws) = none) →
    ∃ t, exec (.itemAccept c x q false) s = .next t ∧
      qHead t (qKey c x q) = (qHead u (qKey c x q) + hLen h) % 2 ^ 32 ∧
      (qOf t (qKey c x q)).items.length = (qOf u (qKey c x q)).items.length + 1 ∧
      (qOf t (qKey c x q)).openCmd = true) ∧
  (∀ (c x q idx st d : Nat) (s : State) (i : Item), findItem s (qKey c x q) idx = some i → i.phase = .done st d →
    (completeItem s (qKey c x q) i st d).calm →
    exec (.itemComplete c x q idx) s = .next (completeItem s (qKey c x q) i st d))

/-- The gate's own items: NOP, STEP, SEM_SIGNAL and SEM_SET complete at issue with their effect (R104, R105, R113, R116); a
wait that reaches its target is satisfied, subtracts it with DEC and completes, and otherwise waits (R117, R120). -/
def Obligations.GateItems : Prop :=
  ∀ (c x q : Nat) (s : State) (i : Item), qCru (qKey c x q) = c → qCtx (qKey c x q) = x →
    (issuable s (qKey c x q) 0x00 = some i →
      exec (.nop c x q) s = .next (completeItem s (qKey c x q) { i with phys := physOf s c } 0 0)) ∧
    (issuable s (qKey c x q) 0x02 = some i → flipHolds s (qKey c x q) i = false →
      ∃ u, exec (.step c x q) s = .next (completeItem u (qKey c x q) { i with phys := physOf s c } 0 0) ∧
        u = s.withTnd { s.tnd with issued := u.tnd.issued } ∧
        spGet u.tnd.issued (qKey c x q) 0 = max (spGet s.tnd.issued (qKey c x q) 0) (i.w 1)) ∧
    (issuable s (qKey c x q) 0x60 = some i →
      exec (.semSignal c x q) s = .next (completeItem (applySignal s c x (physOf s c) (i.w 1)) (qKey c x q)
        { i with phys := physOf s c } 0 0)) ∧
    (issuable s (qKey c x q) 0x63 = some i →
      ∃ u, exec (.semSet c x q) s = .next (completeItem u (qKey c x q) { i with phys := physOf s c } 0 0) ∧
        u = s.withRegs u.regs ∧ rd u (CRU_SEM c x (i.w 1 % 64)) = i.w 2 ∧
        ∀ o, o ≠ CRU_SEM c x (i.w 1 % 64) → rd u o = rd s o) ∧
    (issuable s (qKey c x q) 0x61 = some i → rd s (CRU_SEM c x (i.w 1 % 64)) < i.w 2 →
      exec (.semWait c x q) s = .next (setItem (s.withTnd { s.tnd with order := s.tnd.order + 1 }) (qKey c x q) i.index
        (fun _ => { i with phase := .issued, phys := physOf s c, began := s.tnd.order }))) ∧
    (issuable s (qKey c x q) 0x61 = some i → i.w 2 ≤ rd s (CRU_SEM c x (i.w 1 % 64)) → bit (i.w 1) 8 = false →
      exec (.semWait c x q) s = .next (completeItem
        (setItem (s.withTnd { s.tnd with order := s.tnd.order + 1 }) (qKey c x q) i.index
          (fun _ => { i with phase := .issued, phys := physOf s c, began := s.tnd.order }))
        (qKey c x q) { i with phase := .issued, phys := physOf s c, began := s.tnd.order } 0 0)) ∧
    ((qOf s (qKey c x q)).items.find? (fun j => j.op == 0x61 && j.phase == .issued) = some i →
      onCrucible s (qKey c x q) = true → i.w 2 ≤ rd s (CRU_SEM c x (i.w 1 % 64)) →
      (bit (i.w 1) 8 = false →
        exec (.semWaitSatisfied c x q) s = .next (completeItem s (qKey c x q) i 0 0)) ∧
      (bit (i.w 1) 8 = true → earlierWait s c x q i = false →
        otherDecWaits s c x (i.w 1 % 64) (qKey c x q) i.index = [] →
        exec (.semWaitSatisfied c x q) s = .next (completeItem
          (setReg s (CRU_SEM c x (i.w 1 % 64)) (rd s (CRU_SEM c x (i.w 1 % 64)) - i.w 2)) (qKey c x q) i 0 0)))

/-- Each vector command runs its queue's next item where that item is one of its VOP, may issue and finds the unit free
(R126, R127). -/
def Obligations.VectorItems : Prop :=
  ∀ (c x q : Nat) (err : Option DataErr) (s : State) (i : Item),
    (vecReady s (qKey c x q) 0x01 = some i → exec (.add c x q err) s = .next (runVec s (qKey c x q) i err)) ∧
    (vecReady s (qKey c x q) 0x02 = some i → exec (.mul c x q err) s = .next (runVec s (qKey c x q) i err)) ∧
    (vecReady s (qKey c x q) 0x03 = some i → exec (.fma c x q err) s = .next (runVec s (qKey c x q) i err)) ∧
    (vecReady s (qKey c x q) 0x04 = some i → exec (.axpb c x q err) s = .next (runVec s (qKey c x q) i err)) ∧
    (vecReady s (qKey c x q) 0x05 = some i → exec (.axpby c x q err) s = .next (runVec s (qKey c x q) i err)) ∧
    (vecReady s (qKey c x q) 0x06 = some i → exec (.max c x q err) s = .next (runVec s (qKey c x q) i err)) ∧
    (vecReady s (qKey c x q) 0x07 = some i → exec (.min c x q err) s = .next (runVec s (qKey c x q) i err)) ∧
    (vecReady s (qKey c x q) 0x08 = some i → exec (.exp c x q err) s = .next (runVec s (qKey c x q) i err)) ∧
    (vecReady s (qKey c x q) 0x09 = some i → exec (.log c x q err) s = .next (runVec s (qKey c x q) i err)) ∧
    (vecReady s (qKey c x q) 0x0A = some i → exec (.recip c x q err) s = .next (runVec s (qKey c x q) i err)) ∧
    (vecReady s (qKey c x q) 0x0B = some i → exec (.rsqrt c x q err) s = .next (runVec s (qKey c x q) i err)) ∧
    (vecReady s (qKey c x q) 0x10 = some i → exec (.sum c x q err) s = .next (runVec s (qKey c x q) i err)) ∧
    (vecReady s (qKey c x q) 0x11 = some i → exec (.sumsq c x q err) s = .next (runVec s (qKey c x q) i err)) ∧
    (vecReady s (qKey c x q) 0x12 = some i → exec (.amax c x q err) s = .next (runVec s (qKey c x q) i err)) ∧
    (vecReady s (qKey c x q) 0x20 = some i → exec (.cvt c x q err) s = .next (runVec s (qKey c x q) i err))

/-- What an MMA command does in its array, event by event (R63, R67, R68, R76, R83, R110), in verify mode in the other array of the pair too
(R380), and a TURN item (R129). -/
def Obligations.ArrayItems : Prop :=
  ∀ (c x q p a n k waits : Nat) (stalls : List (Nat × Nat)) (err : Option DataErr) (img : List Byte) (s : State) (i : Item)
    (b : MmaBody),
    (issuable s (qKey c x q) 0x10 = some i → verifyOn s = false →
      (arrOf s (physOf s c) (mmaBody i).array).cmd = none →
      exec (.mma c x q) s = .next (setArr (issueItem s (qKey c x q) i.index) (physOf s c) (mmaBody i).array
        { ArrayState.init with cmd := some (qKey c x q, i.index), banks := [[], []] })) ∧
    (issuable s (qKey c x q) 0x10 = some i → verifyOn s = true →
      (arrOf s (physOf s c) (mmaBody i).array).cmd = none → (arrOf s (physOf s c) ((mmaBody i).array ^^^ 4)).cmd = none →
      exec (.mma c x q) s = .next (setArr (setArr (issueItem s (qKey c x q) i.index) (physOf s c) (mmaBody i).array
        { ArrayState.init with cmd := some (qKey c x q, i.index), banks := [[], []] }) (physOf s c) ((mmaBody i).array ^^^ 4)
        { ArrayState.init with cmd := some (qKey c x q, i.index), banks := [[], []] })) ∧
    (arrItem s p a = some (k, i, b) → (arrOf s p a).shadow = none → (arrOf s p a).refused = none →
      (arrOf s p a).tile < b.tiles →
      riserFault b (spadRead s (p % 264) (p % 264) (qCtx k) (128 * b.plane (arrOf s p a).tile (arrOf s p a).pass)
        (imageBytes b.statF b.pair b.riser)).2 = none →
      ∃ t, exec (.planeFill p a err) s = .next t ∧ (arrOf t p a).shadow =
        some (spadRead s (p % 264) (p % 264) (qCtx k) (128 * b.plane (arrOf s p a).tile (arrOf s p a).pass)
          (imageBytes b.statF b.pair b.riser)).2) ∧
    (arrItem s p a = some (k, i, b) → b.runners.contains n = true →
      (spGet (arrOf s p a).runners n ⟨0, [], 0⟩).pendings.length < 2 →
      (spGet (arrOf s p a).runners n ⟨0, [], 0⟩).held +
        ((spGet (arrOf s p a).runners n ⟨0, [], 0⟩).pendings.length + 1) * refillUnit b n ≤ 64 →
      (spGet (arrOf s p a).runners n ⟨0, [], 0⟩).asked < b.m →
      ∃ t, exec (.runnerRefillRequest p a n) s = .next t ∧
        spGet (arrOf t p a).runners n ⟨0, [], 0⟩ =
          { spGet (arrOf s p a).runners n ⟨0, [], 0⟩ with
            asked := (spGet (arrOf s p a).runners n ⟨0, [], 0⟩).asked + refillUnit b n
            pendings := (spGet (arrOf s p a).runners n ⟨0, [], 0⟩).pendings ++ [tickNow s] }) ∧
    (arrItem s p a = some (k, i, b) → (spGet (arrOf s p a).runners n ⟨0, [], 0⟩).pendings ≠ [] →
      ∃ t, exec (.runnerRefillReturn p a n) s = .next t ∧
        spGet (arrOf t p a).runners n ⟨0, [], 0⟩ =
          { spGet (arrOf s p a).runners n ⟨0, [], 0⟩ with
            pendings := (spGet (arrOf s p a).runners n ⟨0, [], 0⟩).pendings.tail
            held := min 64 ((spGet (arrOf s p a).runners n ⟨0, [], 0⟩).held + refillUnit b n) }) ∧
    (arrItem s p a = some (k, i, b) → (arrOf s p a).shadow = some img → (arrOf s p a).started = true →
      0 < (arrOf s p a).pass →
      ∃ t, exec (.passStart p a stalls waits err) s = .next t ∧ (arrOf t p a).shadow = none ∧
        (arrOf t p a).banks = putAt (arrOf s p a).banks (arrOf s p a).bank
          (((arrOf s p a).banks.getD (arrOf s p a).bank []).zipIdx.map (fun e =>
            accumulate b img (readStreams s (p % 264) (qCtx k) b (arrOf s p a).tile (arrOf s p a).pass).2
              (e.2 / 32) (e.2 % 32) e.1)) ∧
        ((arrOf s p a).pass + 1 < b.passes → (arrOf t p a).pass = (arrOf s p a).pass + 1 ∧
          (arrOf t p a).tile = (arrOf s p a).tile ∧ (arrOf t p a).drains = (arrOf s p a).drains) ∧
        (b.passes ≤ (arrOf s p a).pass + 1 → (arrOf t p a).pass = 0 ∧ (arrOf t p a).tile = (arrOf s p a).tile + 1 ∧
          (arrOf t p a).bank = 1 - (arrOf s p a).bank ∧
          (arrOf t p a).drains.length = (arrOf s p a).drains.length + 1)) ∧
    (arrItem s p a = some (k, i, b) → (arrOf s p a).drains ≠ [] →
      ∃ t, exec (.tileDrain p a err) s = .next t ∧ (arrOf t p a).drains = (arrOf s p a).drains.tail ∧
        (2 ≤ (arrOf s p a).drains.length → (arrOf t p a).tile = (arrOf s p a).tile)) ∧
    (issuable s (qKey c x q) 0x30 = some i → unitFree s c 0x30 = true →
      findItem s (qKey c x q) i.index = some i →
      ∃ t u, exec (.turn c x q none) s = .next t ∧ t = itemDone (issueItem u (qKey c x q) i.index) (qKey c x q) i.index 0 0 ∧
        u = { s with regs := u.regs, spad := u.spad, tags := u.tags })

/-- Each Ladle command issues its queue's next item where that item is one of its operation, may issue and finds room in
its slice, and carries it on (R155, R159, R179, R180, R354, R360, R383, R392). -/
def Obligations.LadleItems : Prop :=
  ∀ (c x q : Nat) (err : Option DataErr) (s : State) (i : Item),
    issuable s (qKey c x q) 0x40 = some i → ladleHeld s c < 16 →
    (i.lop = 1 → exec (.copy c x q err) s = .next (ladleStart s (qKey c x q) i.index (errFor s ladleCodes err))) ∧
    (i.lop = 2 → exec (.copy2d c x q err) s = .next (ladleStart s (qKey c x q) i.index (errFor s ladleCodes err))) ∧
    (i.lop = 3 → exec (.fill c x q err) s = .next (ladleStart s (qKey c x q) i.index (errFor s ladleCodes err))) ∧
    (i.lop = 4 → exec (.convert c x q err) s = .next (ladleStart s (qKey c x q) i.index (errFor s (ladleCodes ++ [5, 13]) err))) ∧
    (i.lop = 6 → ladleSub i = 0 → exec (.arm c x q) s = .next (ladleStart s (qKey c x q) i.index none)) ∧
    (i.lop = 6 → ladleSub i = 1 → exec (.runaheadCancel c x q) s = .next (ladleStart s (qKey c x q) i.index none)) ∧
    (i.lop = 0x0D → exec (.assaychk c x q err) s = .next (ladleStart s (qKey c x q) i.index (errFor s ladleCodes err))) ∧
    (i.lop = 0x0B → exec (.atomic c x q err) s = .next (ladleStart s (qKey c x q) i.index (errFor s ladleCodes err))) ∧
    (i.lop = 0x0C → exec (.trigger c x q) s = .next (ladleStart s (qKey c x q) i.index none)) ∧
    (i.lop = 0x0E → exec (.prov c x q err) s = .next (ladleStart s (qKey c x q) i.index (errFor s ladleCodes err)))

/-- Each KV command issues its queue's next item where that is a KV item of its operation (R174); where that abandons a
page's move, the items that waited for it go on. -/
def Obligations.KvItems : Prop :=
  ∀ (c x q : Nat) (err : Option DataErr) (s t : State) (i : Item),
    issuable s (qKey c x q) 0x40 = some i → ladleHeld s c < 16 → i.lop = 5 →
    t = ladleStart s (qKey c x q) i.index (errFor s ladleCodes err) →
    s.ladle.moves.length ≤ t.ladle.moves.length →
    (ladleSub i = 0 → exec (.gather c x q err) s = .next t) ∧
    (ladleSub i = 1 → exec (.scatter c x q err) s = .next t) ∧
    (ladleSub i = 2 → exec (.spill c x q err) s = .next t) ∧
    (ladleSub i = 3 → exec (.fetch c x q err) s = .next t) ∧
    (ladleSub i = 4 → exec (.free c x q err) s = .next t) ∧
    (ladleSub i = 5 → exec (.pin c x q err) s = .next t) ∧
    (ladleSub i = 6 → exec (.unpin c x q err) s = .next t)

/-- The KV mover at work: a context's spill sweep begins its next move, or stops at its limit (R175); a page's move
ends, and the items that wait go on (R177). -/
def Obligations.KvMover : Prop :=
  ∀ (x pg f : Nat) (s w u : State) (m : PageMove),
    (s.ladle.sweeping.contains x = true → sweepMoving s x = false →
      (max (rd s (LDL_KV_SPILL_HI x)) (b2n (anyWaiter s x)) ≤ nearFree s x → s.calm →
        ∃ t, exec (.kvSpillSweep x) s = .next t ∧ t = s.withLadle t.ladle ∧ ¬ x ∈ t.ladle.sweeping) ∧
      (nearFree s x < max (rd s (LDL_KV_SPILL_HI x)) (b2n (anyWaiter s x)) →
        sweepWalk x (2 * kvEntries s x) s = (w, some pg) → takeFar w x = some (f, u) →
        (addMove u ⟨x, pg, false, kvNear (kvEntry u x pg), f, none⟩ (kvEntry u x pg)).calm →
        exec (.kvSpillSweep x) s =
          .next (addMove u ⟨x, pg, false, kvNear (kvEntry u x pg), f, none⟩ (kvEntry u x pg)))) ∧
    (moveOf s x pg = some m → (m.owner = none ∨ (endMove s m).2 = 0) → (endMove s m).1.ingot.blocked = false →
      (resumeKv (endMove s m).1 x).calm →
      exec (.pageMoveEnd x pg) s = .next (resumeKv (endMove s m).1 x))

/-- The run-ahead fetcher: the next chunk's lines join the buffer (R180), an arriving line is held (R183), and a line
peeked more than 100,000 ticks ago is dropped (R349). -/
def Obligations.RunAhead : Prop :=
  ∀ (n addr : Nat) (s : State) (b : RaLine),
    ((streamAt s n).state = 1 → max (streamAt s n).next (streamAt s n).pos < (streamAt s n).nchunk →
      max (streamAt s n).next (streamAt s n).pos < (streamAt s n).pos + (streamAt s n).dist →
      areaLines s (n / 16) + (if (streamAt s n).kv then 512 else (streamAt s n).lines) ≤ raShare s * 32768 →
      ∃ t, exec (.runaheadFetch n) s = .next t ∧
        (streamAt t n).next = max (streamAt s n).next (streamAt s n).pos + 1 ∧
        (streamAt s n).buf <+: (streamAt t n).buf) ∧
    ((streamAt s n).buf.find? (fun l => l.addr == addr && !l.ready) = some b → foreign s addr = false →
      (streamAt s n).state = 1 → (streamAt s n).pos ≤ b.chunk + 1 →
      isPoisoned s addr = false → isPoisoned s (addr + 64) = false →
      ∃ t, exec (.runaheadLineArrive n addr) s = .next t ∧
        (streamAt t n).buf = (streamAt s n).buf.map (fun l => if l.addr = addr ∧ ¬ l.ready then
          { l with ready := true, data := bytesAt s.mem addr 64 ++ bytesAt s.mem (addr + 64) 64 } else l)) ∧
    (b ∈ (streamAt s n).buf → b.addr = addr → b.ready = true → b.peek.isSome →
      (∀ e ∈ b.peek, e.2.2 + 100000 < tickNow s) →
      ∃ t, exec (.peekAgeLimit n addr) s = .next t ∧ (streamAt t n).buf.length < (streamAt s n).buf.length ∧
        ¬ b ∈ (streamAt t n).buf)

/-- Requests to other devices: one is sent once its response slots are free (R188), and its answer, or its time-out,
reaches what waits for it (R339, R357). -/
def Obligations.RemoteRequests : Prop :=
  ∀ (id detail : Nat) (data : List Byte) (s : State) (r : LReq),
    (s.ladle.reqs.find? (fun e => e.id == id && e.issued.isNone) = some r →
      spGet s.ladle.slots r.slice 0 + r.slots ≤ sliceSlots → cutHoldsReq s r = false →
      ∃ u, exec (.ladleRequestIssue id) s = .next (sendMsg u (reqName r.kind) (reqDest s r)
          ([r.id, r.kind] ++ datum64 r.addr ++ [r.bytes, rd s CUP_ING_CUT_STEP % 65536] ++ r.data.map (·.toNat)) 3
          (sliceTag s (reqCtx s r)) (phaseOf s (reqCtx s r)) 0 r.data.length (reqCtx s r)) ∧
        u = s.withLadle u.ladle ∧ spGet u.ladle.slots r.slice 0 = spGet s.ladle.slots r.slice 0 + r.slots ∧
        u.ladle.reqs = s.ladle.reqs.map (fun e => if e.id = id then { e with issued := some (tickNow s) } else e)) ∧
    (s.mode = .ready → openReq s id = some r → (r.kind < 10 ∨ 19 ≤ r.kind) →
      exec (.ladleResponse id 0 detail data) s = .next (answerAny s r 0 0 data) ∧
      exec (.ladleResponse id 3 detail data) s = .next (answerAny s r 3 detail []) ∧
      (r.kind < 19 → exec (.ladleResponse id 1 detail data) s = .next (answerAny s r 1 detail data))) ∧
    (s.mode = .ready → openReq s id = none →
      ∃ t, exec (.ladleResponse id 0 detail data) s = .next t ∧ t = s.withRegs t.regs ∧
        rd64 t FLK_LATE_CNT_LO = (rd64 s FLK_LATE_CNT_LO + 1) % 2 ^ 64) ∧
    (openReq s id = some r → r.issued.getD 0 + 2000 ≤ tickNow s → r.kind ≠ 16 → r.kind ≠ 15 →
      exec (.remoteRequestTimeout id) s = .next (answerAny
        (logUnit (cntAdd s FLK_TIMEOUT_CNT_LO 1) 0x0314 r.slice ([reqDest s r] ++ datum64 r.addr ++ [r.index])) r 2 0 []))

/-- A write of a controller puts its bytes and no others (R185); a read, and a scrub of a clean unit, leaves every
byte, and counts (R184, R186, R189). -/
def Obligations.TierRequests : Prop :=
  (∀ (addr symbols : Nat) (data : List Byte) (s : State), s.calm → inTier s addr = true → data ≠ [] →
    addr % 64 + data.length ≤ 64 → (isPoisoned s addr = false ∨ data.length = 64) → rd s CUP_ING_EPOCH = 0 →
    ownWindow s addr = none →
    ∃ t, exec (.memoryRequest true addr symbols data) s = .next t ∧
      (∀ j, j < data.length → byteAt t.mem (addr + j) = data.getD j 0) ∧
      (∀ a, (a < addr ∨ addr + data.length ≤ a) → byteAt t.mem a = byteAt s.mem a) ∧
      isPoisoned t addr = false) ∧
  (∀ (addr symbols : Nat) (data : List Byte) (s : State), inTier s addr = true →
    ∃ t, exec (.memoryRequest false addr symbols data) s = .next t ∧ t.mem = s.mem ∧
      (symbols = 0 → isPoisoned s (addr / 64 * 64) = false →
        t = cntAdd s (tierGroup (addr / 64 * 64) + 0x20) 1)) ∧
  (∀ (addr : Nat) (s : State), inTier s addr = true → bit (rd s (tierGroup addr + 4)) 16 = true →
    isPoisoned s (addr / 64 * 64) = false →
    ∃ t, exec (.scrubUnit addr 0 false) s = .next t ∧ t.mem = s.mem ∧ t.poison = s.poison ∧ t.hlog = s.hlog ∧
      t.regs = (cntAdd (cntAdd s (tierGroup (addr / 64 * 64) + 0x20) 1) (tierGroup addr + 0x28) 1).regs)

/-- The commands of a sweep and of its tensors: SWEEP, the loss-scale loop at its end, STAGE and SWCHECK (R201, R203, R210, R212, R220, R224). -/
def Obligations.SweepItems : Prop :=
  ∀ (c x q : Nat) (err : Option DataErr) (s u : State) (i j : Item) (o : SweepEnd),
    (sweepNext s (qKey c x q) 8 = some i → tainted s = false → stageOpen s = false → sweepRuns s = false → unsealed s = false →
      sweepIssue s (qKey c x q) i err = (u, j) →
      (waitingReqs (ladlePrepare (u.withIngot { u.ingot with sweepHeld := none }) (qKey c x q) j) (qKey c x q) i.index = true →
        exec (.sweep c x q err) s = .next (ladlePrepare (u.withIngot { u.ingot with sweepHeld := none }) (qKey c x q) j)) ∧
      (waitingReqs (ladlePrepare (u.withIngot { u.ingot with sweepHeld := none }) (qKey c x q) j) (qKey c x q) i.index = false →
        (runSweep (ladlePrepare (u.withIngot { u.ingot with sweepHeld := none }) (qKey c x q) j) (qKey c x q) j).calm →
        exec (.sweep c x q err) s =
          .next (runSweep (ladlePrepare (u.withIngot { u.ingot with sweepHeld := none }) (qKey c x q) j) (qKey c x q) j))) ∧
    (s.ladle.sweep.loop = some o → findItem s o.key o.index = some i → (endSweep (lossLoop s o i.step) o i).calm →
      exec .lossScaleLoop s = .next (endSweep (lossLoop s o i.step) o i)) ∧
    (sweepTake s (qKey c x q) 9 err = some (u, j) → j.found.1 ≠ 0x29 →
      (endSweepOp (actStage u (qKey c x q) j).1 (qKey c x q) j (actStage u (qKey c x q) j).2).calm →
      exec (.stage c x q err) s =
        .next (endSweepOp (actStage u (qKey c x q) j).1 (qKey c x q) j (actStage u (qKey c x q) j).2)) ∧
    (sweepTake s (qKey c x q) 9 err = some (u, j) → j.found.1 = 0x29 →
      exec (.stage c x q err) s = .next (itemDone u (qKey c x q) j.index 0x29 0)) ∧
    (sweepTake s (qKey c x q) 0x0A err = some (u, j) → remoteOut s = false →
      (endSweepOp (actSwcheck u (qKey c x q) j) (qKey c x q) j 0).calm →
      exec (.swcheck c x q err) s = .next (endSweepOp (actSwcheck u (qKey c x q) j) (qKey c x q) j 0))

/-- The loss-scale loop is Table 5.9: what S and CLEAN are after each outcome, and that nothing but them and the recorder
changes. -/
def Obligations.LossScaleTable : Prop :=
  ∀ (s : State) (o : SweepEnd) (step S C : Nat), 0x3F800000 ≤ swScale s → swScale s < 0x7F000000 →
    rd s LDL_SWP_CLEAN < 2 ^ 31 →
    (S, C) = (if o.skip = false then
        (if rd s LDL_SWP_CLEAN + 1 < rd s LDL_SWP_INTERVAL then (swScale s, rd s LDL_SWP_CLEAN + 1)
        else if swScale s < rd s LDL_SWP_SCALE_MAX then (swScale s + 0x800000, 0) else (swScale s, 0))
      else if bit o.cause 0 = true ∨ (bit o.cause 1 = true ∧ bit (rd s LDL_SWP_CTRL) 1 = true) then
        (if 0x3F800000 < swScale s then (swScale s - 0x800000, 0) else (swScale s, 0))
      else (swScale s, rd s LDL_SWP_CLEAN)) →
    rd (lossLoop s o step) LDL_SWP_SCALE = S ∧ rd (lossLoop s o step) LDL_SWP_CLEAN = C ∧
    recordsOnly (setReg (setReg s LDL_SWP_SCALE S) LDL_SWP_CLEAN C) (lossLoop s o step)

/-- A new scale ceiling below S takes S with it and restarts CLEAN; one at or above S leaves both (R224). Clearing a
context's non-finite flag clears it alone (R206). -/
def Obligations.SweepRegisters : Prop :=
  ∀ (src : Src) (v : Word) (x : Nat) (s : State), s.mode = .ready → x < 16 →
    (sweepBusy s = false → powScale v.toNat 0x40000000 0x4B800000 = true →
      ∃ t, exec (.ldlSwpScaleMaxWrite src v) s = .next t ∧ rd t LDL_SWP_SCALE_MAX = v.toNat ∧
        (v.toNat < swScale s → swScale t = v.toNat ∧ rd t LDL_SWP_CLEAN = 0) ∧
        (swScale s ≤ v.toNat → swScale t = swScale s ∧ rd t LDL_SWP_CLEAN = rd s LDL_SWP_CLEAN)) ∧
    (sweepBusy s = true ∨ powScale v.toNat 0x40000000 0x4B800000 = false →
      ∃ t, exec (.ldlSwpScaleMaxWrite src v) s = .next t ∧ recordsOnly s t) ∧
    (bit (rd s (LDL_SLAG_NF x)) 0 = true →
      ∃ t, exec (.ldlSlagNfClear src x) s = .next t ∧ rd t (LDL_SLAG_NF x) = 0 ∧
        recordsOnly (setReg s (LDL_SLAG_NF x) 0) t)

/-- Each collective command joins its group's queue where its queue's next item is one of it, may issue and finds its
group ready (R308, R309, R310, R312, R332); a cancel completes at once (R329). -/
def Obligations.AlloyItems : Prop :=
  ∀ (c x q : Nat) (err : Option DataErr) (s : State) (i : Item),
    (alyNext s (qKey c x q) 1 = some i → (alyJoin s (qKey c x q) i none).calm →
      exec (.barrier c x q) s = .next (alyJoin s (qKey c x q) i none)) ∧
    (alyNext s (qKey c x q) 2 = some i → (alyJoin s (qKey c x q) i none).calm →
      exec (.phase c x q) s = .next (alyJoin s (qKey c x q) i none)) ∧
    (alyNext s (qKey c x q) 3 = some i → (alyJoin s (qKey c x q) i (errFor s [9] err)).calm →
      exec (.scalar c x q err) s = .next (alyJoin s (qKey c x q) i (errFor s [9] err))) ∧
    (alyNext s (qKey c x q) 4 = some i → (alyJoin s (qKey c x q) i (errFor s [9] err)).calm →
      exec (.reduce c x q err) s = .next (alyJoin s (qKey c x q) i (errFor s [9] err))) ∧
    (alyNext s (qKey c x q) 5 = some i → (alyJoin s (qKey c x q) i (errFor s [9] err)).calm →
      exec (.bcast c x q err) s = .next (alyJoin s (qKey c x q) i (errFor s [9] err))) ∧
    (alyNext s (qKey c x q) 6 = some i →
      (completeItem (grpCancel s i.group) (qKey c x q) { i with phys := physOf s c } 0 0).calm →
      exec (.cancel c x q) s = .next (completeItem (grpCancel s i.group) (qKey c x q) { i with phys := physOf s c } 0 0))

/-- A packet of the collective that its group runs now joins that collective's arrivals (R307, R314, R324, R332): up, down, READY,
DONE, lane partials and broadcast chunks alike; a packet for a group that is not enabled is dropped; a VOID of a later
collective is noted (R330). -/
def Obligations.AlloyArrivals : Prop :=
  ∀ (g seq sender sig aop crit dim pour stage addr chunk residue : Nat) (fault : Option Nat) (flag : Bool)
    (vals : List (Int × Nat)) (lanes : List (Nat × Nat × Bool)) (data : List Byte) (s : State) (c : AlyColl) (i : Item)
    (p : AlyPkt), s.mode = .ready → g < 256 →
    (grpOn s g = true → sig = grpSig s g → (grpAt s g).cur = some c → c.seq = seq → collItem s c = some i → i.aop = aop →
      p.seq = seq → kindFits p.kind aop = true →
      (grpGo (setColl s g (fun d => alyArrive.noteIn { d with inbox := d.inbox ++ [p] } p)) g).calm →
      (p = ⟨1, seq, sender, 0, 0, 0, vals, [], false, crit, dim, fault, residue, [], aop⟩ →
        exec (.upPacket g seq sender sig aop crit dim fault residue vals) s =
          .next (grpGo (setColl s g (fun d => alyArrive.noteIn { d with inbox := d.inbox ++ [p] } p)) g)) ∧
      (p = ⟨2, seq, sender, 0, 0, 0, vals, [], false, crit, dim, fault, 0, [], aop⟩ →
        exec (.downPacket g seq sender sig aop crit dim fault vals) s =
          .next (grpGo (setColl s g (fun d => alyArrive.noteIn { d with inbox := d.inbox ++ [p] } p)) g)) ∧
      (p = ⟨3, seq, sender, pour, stage, addr, [], [], false, sender, 31, fault, 0, [], aop⟩ →
        exec (.readyNotice g seq sender sig aop pour stage addr fault) s =
          .next (grpGo (setColl s g (fun d => alyArrive.noteIn { d with inbox := d.inbox ++ [p] } p)) g)) ∧
      (aop = 4 → p = ⟨4, seq, sender, pour, stage, 0, [], [], false, crit, dim, fault, residue, [], 4⟩ →
        exec (.doneNotice g seq sender sig pour stage crit dim fault residue) s =
          .next (grpGo (setColl s g (fun d => alyArrive.noteIn { d with inbox := d.inbox ++ [p] } p)) g)) ∧
      (aop = 4 → p = ⟨5, seq, sender, 0, stage, 0, [], lanes, flag, crit, dim, fault, residue, [], 4⟩ →
        exec (.lanePartials g seq sender sig stage crit dim flag fault residue lanes) s =
          .next (grpGo (setColl s g (fun d => alyArrive.noteIn { d with inbox := d.inbox ++ [p] } p)) g)) ∧
      (aop = 5 → p = ⟨6, seq, sender, 0, chunk, 0, [], [], false, sender, dim, none, 0, data, 5⟩ →
        exec (.bcastChunk g seq sender sig chunk dim data) s =
          .next (grpGo (setColl s g (fun d => alyArrive.noteIn { d with inbox := d.inbox ++ [p] } p)) g))) ∧
    (grpOn s g = false → s.calm → exec (.upPacket g seq sender sig aop crit dim fault residue vals) s = .next s ∧
      exec (.void g seq sender sig) s = .next s) ∧
    (grpOn s g = true → sig = grpSig s g → (grpAt s g).voids.any (fun e => e.1 == seq) = false → (grpAt s g).cur = none →
      seqAhead (grpAt s g).seq seq = true → (grpGo (collBegin.noteVoid s g seq sender) g).calm →
      exec (.void g seq sender sig) s = .next (grpGo (collBegin.noteVoid s g seq sender) g))

/-- The control register of a group: enabling starts it afresh and disabling an idle group ends it (R301), an abort ends
its collectives (R331), and a cancel voids what has not begun (R329); the adders' test runs while every group is idle,
and a failed one is recorded (R379). -/
def Obligations.AlloyGroups : Prop :=
  ∀ (src : Src) (g : Nat) (v : Word) (s : State), g < 256 →
    (s.mode = .ready → grpOn s g = false →
      grpRefusal (setReg s (ALY_GRP_CTRL g) (grpCtrlBits (setBits v.toNat 0 1 1) / 2 * 2)) g = none →
      ∃ t, exec (.alyGrpEnable src g v) s = .next t ∧ grpOn t g = true ∧ grpAt t g = AlyGroup.init) ∧
    (s.mode = .ready → grpOn s g = true → grpIdle s g = true →
      ∃ t, exec (.alyGrpDisable src g) s = .next t ∧ grpOn t g = false ∧ grpAt t g = AlyGroup.init) ∧
    (s.mode = .ready → grpOn s g = true →
      ∃ t, exec (.alyGrpAbort src g) s = .next t ∧ grpIdle t g = true) ∧
    (s.mode = .ready → grpOn s g = true →
      (grpCancel (logAccepted s src 0 (ALY_GRP_CTRL g) (rd s (ALY_GRP_CTRL g) + 4)) g).calm →
      exec (.alyGrpCancel src g) s =
        .next (grpCancel (logAccepted s src 0 (ALY_GRP_CTRL g) (rd s (ALY_GRP_CTRL g) + 4)) g)) ∧
    (s.mode = .ready → s.integ.alyDue = true → s.integ.alyTest = none → (List.range 256).all (grpIdle s) = true →
      ∃ t, exec .alloyTest s = .next t ∧ t.integ.alyTest = some (tickNow s) ∧ t.integ.alyDue = false) ∧
    (∀ t0, s.integ.alyTest = some t0 → t0 + 50000 ≤ tickNow s →
      (∃ t, exec (.alloyTestEnd true) s = .next t ∧ t.integ.alyTest = none ∧ t.integ.failed = s.integ.failed ∧
        t.hlog = s.hlog) ∧
      (∃ t, exec (.alloyTestEnd false) s = .next t ∧ t.integ.alyTest = none ∧ t.integ.failed = true ∧
        t.module_.faultN = true))

/-- The control register of a context: enabling asks for its slice's credit and, once no link's answer is awaited, enables
it (R233); a stopped context is disabled, a running one is stopped, and a stopping or stopped one runs again (R232); a
staged crucible set without a conflict is applied (R235); a move is ordered (R244). -/
def Obligations.ContextRegisters : Prop :=
  ∀ (src : Src) (x c : Nat) (s u : State), s.mode = .ready → x < 16 → c < 256 →
    (ctxState s x = 0 → s.sprues.enabling.contains x = false →
      reserveSlice ((logAccepted s src 0 (TND_CTX_CTRL x) (setBits (rd s (TND_CTX_CTRL x)) 0 1 1)).withSprues
        { s.sprues with enabling := s.sprues.enabling ++ [x] }) (sliceTag s x) = (u, none) →
      exec (.tndCtxEnable src x) s = .next (settleEnables u (sliceTag s x))) ∧
    (ctxState s x = 3 →
      exec (.tndCtxDisable src x) s = .next (reserveSlice (setCtxState
        (logAccepted (setReg s (TND_CTX_CTRL x) (setBits (rd s (TND_CTX_CTRL x)) 0 1 0)) src 0 (TND_CTX_CTRL x)
          (setBits (rd s (TND_CTX_CTRL x)) 0 1 0)) x 0) (sliceTag s x)).1) ∧
    (ctxState s x = 1 → bit (rd s (TND_CTX_CTRL x)) 1 = false →
      u = setCtxState (logAccepted (setReg s (TND_CTX_CTRL x) (rd s (TND_CTX_CTRL x) + 2)) src 0 (TND_CTX_CTRL x)
        (rd s (TND_CTX_CTRL x) + 2)) x 2 →
      exec (.tndCtxStop src x) s = .next (settleStop ((residentCrus u x).foldl arbitrate u) x)) ∧
    (ctxState s x = 2 ∨ ctxState s x = 3 → bit (rd s (TND_CTX_CTRL x)) 1 = true →
      ∃ t, exec (.tndCtxUnstop src x) s = .next t ∧ ctxState t x = 1 ∧ bit (rd t (TND_CTX_CTRL x)) 1 = false ∧
        ∀ y, y ≠ x → ctxState t y = ctxState s y) ∧
    (csetConflict s x = none →
      u = forEach (List.range 8) (logAccepted s src 0 (TND_CTX_CTRL x) (rd s (TND_CTX_CTRL x) + 4))
        (fun st w => setReg st (TND_CTX_CSET x w) (stagedWord s x w)) →
      exec (.applyCset src x) s = .next ((residentCrus u x).foldl arbitrate u)) ∧
    exec (.tndMoveReq src c) s = .next (orderMove (logAccepted (setReg s TND_MOVE_REQ c) src 0 TND_MOVE_REQ (2 ^ 31 + c)) c
      false)

/-- Arbitration begins a switch to the context chosen, at a boundary (R242); the switch ends with it resident, once
its time has passed (R243); a quantum's end arbitrates (R242), a move's end changes the carrier (R244); a lent crucible goes back to its waiter (R247). -/
def Obligations.ContextSwitches : Prop :=
  ∀ (c : Nat) (s : State), s.mode = .ready → c < 256 →
    (available s c = true → canSwitch s c = true → s.tnd.moves.any (fun m => m.logical == c && m.endAt.isNone) = false →
      choose s c ≠ residentOn s c →
      (∃ t, exec (.arbitration c) s = .next t ∧ residentOn t c = none ∧
        (cruOf t (physOf t c)).switching = some (choose s c, s.clock.half + nSw s c (residentOn s c) * fclkHalf)) ∧
      (quantum s ≤ tickNow s - residentSince s c → exec (.quantumExpiry c) s = exec (.arbitration c) s)) ∧
    (∀ nxt e, (cruOf s (physOf s c)).switching = some (nxt, e) → e ≤ s.clock.half →
      s.tnd.moves.any (fun m => m.logical == c && m.endAt.isSome) = false →
      ∃ t, exec (.contextSwitchEnd c) s = .next t ∧ residentOn t c = nxt ∧ (cruOf t (physOf t c)).switching = none) ∧
    (∀ m p e, s.tnd.moves.find? (fun m => m.logical == c && m.endAt.isSome) = some m → m.target = some p →
      m.endAt = some e → e ≤ s.clock.half →
      ∃ t, exec (.moveEnd c) s = .next t ∧ physOf t c = p ∧ ∀ d, d ≠ c → physOf t d = physOf s d) ∧
    (∀ g, s.tnd.gifts.find? (fun g => g.lent == some c && residentOn s c == some g.holder) = some g →
      stillWaits s g.waiter g.sem = false → canSwitch s c = true → ctxState s g.waiter = 1 →
      exec (.lendReturn c) s =
        .next (beginSwitch (s.withTnd { s.tnd with gifts := s.tnd.gifts.filter (fun h => h != g) }) c (some g.waiter) 0))

/-- The schedule: an exclusive slot's guard opens before it, the slot reserves its owner's crucibles, and it ends (R239);
a swap that is ordered is taken at a cycle's start, where the other table passes its checks (R241). -/
def Obligations.Schedule : Prop :=
  ∀ (src : Src) (slot : Nat) (s : State),
    (schedOn s = true → slot < slotCount s s.tnd.bank → slotExcl s s.tnd.bank slot = true →
      tickNow s < cycleStart s + slotOffset s s.tnd.bank slot →
      cycleStart s + slotOffset s s.tnd.bank slot ≤ tickNow s + slotGuard s s.tnd.bank slot * 100 →
      s.tnd.guards.any (fun g => g.1 == slot) = false →
      ∃ t, exec (.slotGuardOpen slot) s = .next t ∧
        t.tnd.guards = s.tnd.guards ++ [(slot, cycleStart s + slotOffset s s.tnd.bank slot)]) ∧
    (∀ e, s.tnd.slots.find? (fun e => e.1 == slot && decide (e.2.2 ≤ tickNow s)) = some e →
      s.tnd.awaited.filter (fun f => f.1 == slot) = [] →
      ∃ t, exec (.slotEnd slot) s = .next t ∧ t.tnd.slots = s.tnd.slots.filter (fun f => f != e) ∧
        t.tnd.awaited = s.tnd.awaited.filter (fun f => f.1 != slot) ∧ t.hlog = s.hlog) ∧
    (∀ u mine, schedOn s = true → slot < slotCount s s.tnd.bank → slotExcl s s.tnd.bank slot = true →
      cycleStart s + slotOffset s s.tnd.bank slot ≤ tickNow s →
      tickNow s < cycleStart s + slotOffset s s.tnd.bank slot + slotLen s s.tnd.bank slot * 1000 →
      s.tnd.slots.any (fun e => e.1 == slot && e.2.1 == cycleStart s + slotOffset s s.tnd.bank slot) = false →
      mine = (List.range 256).filter (fun c => ctxState s (slotOwner s s.tnd.bank slot) == 1 &&
        inCset s (slotOwner s s.tnd.bank slot) c && available s c) →
      u = s.withTnd { s.tnd with
        guards := s.tnd.guards.filter (fun g => g.1 != slot || decide (tickNow s < g.2))
        slots := s.tnd.slots ++ [(slot, cycleStart s + slotOffset s s.tnd.bank slot,
          cycleStart s + slotOffset s s.tnd.bank slot + slotLen s s.tnd.bank slot * 1000)]
        awaited := s.tnd.awaited ++ ((mine.filter (fun c => residentOn s c != some (slotOwner s s.tnd.bank slot))).map
          (fun c => (slot, c, (residentOn s c).getD 16))) } →
      exec (.slotStart slot 0) s = .next (mine.foldl arbitrate u)) ∧
    (s.mode = .ready →
      ∃ t, exec (.tndSchedSwap src) s = .next t ∧ bit (rd t TND_SCHED_CTRL) 1 = true ∧
        recordsOnly (setReg s TND_SCHED_CTRL (setBits (rd s TND_SCHED_CTRL) 1 1 1)) t) ∧
    (bit (rd s TND_SCHED_CTRL) 1 = true → (tickNow s - rd64 s TND_CYC_ORIGIN_LO) % (cycleLen s s.tnd.bank * 1000) = 0 →
      bankFails s (1 - s.tnd.bank) = none →
      ∃ t, exec .schedSwapApply s = .next t ∧ t.tnd.bank = 1 - s.tnd.bank ∧ bit (rd t TND_SCHED_CTRL) 1 = false ∧
        rd64 t TND_CYC_ORIGIN_LO = tickNow s % 2 ^ 64 ∧ t.tnd.slots = [] ∧ t.tnd.guards = []) ∧
    (bit (rd s TND_SCHED_CTRL) 1 = true → (tickNow s - rd64 s TND_CYC_ORIGIN_LO) % (cycleLen s s.tnd.bank * 1000) = 0 →
      ∀ n i, bankFails s (1 - s.tnd.bank) = some (n, i) →
      ∃ t, exec .schedSwapApply s = .next t ∧ t.tnd = s.tnd ∧ bit (rd t TND_SCHED_CTRL) 1 = false ∧
        bit (rd t TND_SCHED_CTRL) 2 = true)

/-- Shared semaphores and batch tables: a register write stores its value (R245), a wait that reaches its target completes
(R245), and a flip is ordered and applied (R250). -/
def Obligations.SharedWaits : Prop :=
  ∀ (src : Src) (c x q sem : Nat) (v : Word) (s : State) (i : Item), qCtx (qKey c x q) = x →
    (s.mode = .ready → sem < 1024 →
      ∃ t, exec (.tndSsemValWrite src sem v) s = .next t ∧ rd t (TND_SSEM_VAL sem) = v.toNat ∧
        recordsOnly (setReg s (TND_SSEM_VAL sem) v.toNat) t) ∧
    (issuable s (qKey c x q) 0x62 = some i → i.w 2 ≤ rd s (TND_SSEM_VAL (i.w 1 % 1024)) → bit (i.w 1) 12 = false →
      ∃ u, exec (.semWaitShared c x q) s = .next (completeItem u (qKey c x q)
          { i with phase := .issued, phys := physOf s c, began := s.tnd.order } 0 0) ∧ u.regs = s.regs) ∧
    ((qOf s (qKey c x q)).items.find? (fun j => j.op == 0x62 && j.phase == .issued) = some i →
      onCrucible s (qKey c x q) = true → i.w 2 ≤ rd s (TND_SSEM_VAL (i.w 1 % 1024)) → bit (i.w 1) 12 = false →
      ∃ u, exec (.ssemWaitSatisfied c x q) s = .next (completeItem u (qKey c x q) i 0 0) ∧ u.regs = s.regs) ∧
    (s.mode = .ready → x < 16 → (batchOf s x).pending = none → participants s x ≠ [] → btOn s x = true →
      (∀ k ∈ participants s x, spGet s.tnd.issued k 0 = ((participants s x).map (fun k => spGet s.tnd.issued k 0)).foldl max 0) →
      s.calm →
      ∃ t, exec (.tndCtxBtFlip src x 1) s = .next t ∧ (batchOf t x).pending = some 1 ∧
        (batchOf t x).apply = ((participants s x).map (fun k => spGet s.tnd.issued k 0)).foldl max 0 + 1) ∧
    ((batchOf s x).pending.isSome = true →
      (participants s x).all (fun k => match nextItem s k with
        | some i => i.op == 2 && flipHolds s k i
        | none => false) = true → (applyFlip s x).calm →
      exec (.btFlipApply x) s = .next (applyFlip s x))

/-- Credit reservations and the bring-up of links, where each command has its effect (R258, R264, R269, R270, R288, R289). -/
def Obligations.LinkEvents : Prop :=
  ∀ (src : Src) (h slice req rsp cls cause lane last : Nat) (b : Bringup) (s : State), h < 36 → slice < 16 →
    (linkUp s h = true →
      exec (.creditReserve h slice 0 0 0 cls) s = .next (setPool s h slice (0, 0)) ∧
      (0 < req → carvedOther s h slice + max (sliceNeed s slice).1 req + max (sliceNeed s slice).2 rsp ≤ poolFlits →
        exec (.creditReserve h slice req rsp 0 cls) s = .next (drainLink (sendLc
          (setPool s h slice (max (sliceNeed s slice).1 req, max (sliceNeed s slice).2 rsp)) h "CREDIT_RESERVE"
          [slice, max (sliceNeed s slice).1 req, max (sliceNeed s slice).2 rsp, 1]) h)) ∧
      (s.sprues.asking.contains (h, slice) = true →
        exec (.creditReserve h slice req rsp 1 cls) s = .next (settleEnables (drainLink (setPool (s.withSprues
          { s.sprues with asking := s.sprues.asking.filter (fun e => e != (h, slice)) }) h slice (req, rsp)) h) slice))) ∧
    exec (.linkSeqQuery h true last) s = .next (emit s
      (.packet "LINK_SEQ_ANSWER" (bits (rd s (SPR_PARTNER (h / 2) (h % 2))) 0 16) [h, (linkAt s h).whole])) ∧
    ((linkAt s h).asked.isSome = true →
      exec (.linkSeqQuery h false last) s = .next (reinject s h (fun p => seqAfter p.1 last))) ∧
    (∀ t0 k, (linkAt s h).asked = some (t0, k) → t0 + 2000 ≤ tickNow s →
      exec (.partnerAnswerTimeout h) s =
        .next (reinject s h (fun p => p.2.1.dest != bits (rd s (SPR_PARTNER (h / 2) (h % 2))) 0 16))) ∧
    (linkUp s h = true → exec (.linkDown h) s = .next (linkDown s h 2)) ∧
    (linkUp s h = true → cause ≠ 3 →
      ∃ u, exec (.retrain h cause lane) s = .next (noteDetours u) ∧ linkState u h = 5 ∧
        (linkAt u h).retrain = some 4 ∧ (linkAt u h).lp = 0) ∧
    (s.mode = .ready → linkUp s h = true →
      ∃ u, exec (.sprRetrain src h) s = .next (noteDetours u) ∧ linkState u h = 5 ∧ (linkAt u h).retrain = some 5) ∧
    ((linkAt s h).retrain = some cause → linkWidth (linkLanes s h)
        (onesBelow ((linkAt s h).isolated ||| (linkAt s h).spared) (linkLanes s h)) ≠ 0 →
      linkWidth (linkLanes s h) (onesBelow (linkAt s h).isolated (linkLanes s h)) ≠ 0 →
      ∃ u, exec (.retrainEnd h true 0 0) s = .next (linkChanged (replay u h (fun _ => true)) h) ∧ linkState u h = 2 ∧
        (linkAt u h).retrain = none) ∧
    (linkState s h = 1 → linkDim s h ≠ 31 → exec (.sprueBringup h b) s = .next (bringup s h b)) ∧
    (∀ t0, (linkAt s h).retryAt = some t0 → t0 ≤ tickNow s → linkState s h = 0 → linkDim s h ≠ 31 →
      exec (.bringupRetry h b) s = .next (bringup s h b)) ∧
    (s.mode = .ready → linkState s h = 0 → linkDim s h ≠ 31 → bit (linkCtrl s h) 0 = false →
      ∃ u, exec (.sprEnable src h true) s = .next (linkChanged u h) ∧ linkState u h = 1 ∧ (linkAt u h).attempts = 0)

/-- The reliable link: an expected flit is taken, an old one acknowledged again, a bad one answered with NAK (R264, R268); an
acknowledgement frees the retry buffer (R268); timers acknowledge and retrain (R268, R269); a packet that waits too long
takes its escape layer (R280). -/
def Obligations.LinkFlits : Prop :=
  ∀ (h ecc seq : Nat) (f : Flit) (s : State), h < 36 → linkState s h = 2 →
    (f.crCount = 0 → f.crc = crc32c ((flitBytes f).map (·.toNat)) → f.seq < 4096 → f.seq = (linkAt s h).rxSeq →
      f.kind ≠ 3 →
      ∃ u, exec (.flitReceive h false 0 f ecc) s = .next (flitIn u h f ecc) ∧ u = s.withRegs u.regs ∧
        ∀ o, reg u o = reg s o) ∧
    (f.crCount = 0 → f.crc = crc32c ((flitBytes f).map (·.toNat)) → f.kind = 3 →
      ∃ t, exec (.flitReceive h false 0 f ecc) s = .next t ∧ t = s.withRegs t.regs ∧ ∀ o, reg t o = reg s o) ∧
    (f.crc ≠ crc32c ((flitBytes f).map (·.toNat)) →
      ∃ u, exec (.flitReceive h false 0 f ecc) s = .next (sendNak u h) ∧ u = s.withRegs u.regs ∧ ∀ o, reg u o = reg s o) ∧
    ((linkAt s h).nakRx = 0 →
      ∃ u, exec (.nak h seq) s = .next (replay u h (fun e => e.seq == seq % 4096 || seqAfter e.seq seq)) ∧
        (linkAt u h).nakRx = 1 ∧ (linkAt u h).retry = (linkAt s h).retry) ∧
    (∃ u, exec (.linkAck h seq) s = .next (drainLink u h) ∧
      (linkAt u h).retry = (linkAt s h).retry.filter (fun e => e.seq == seq % 4096 || seqAfter e.seq seq)) ∧
    (∀ t0, (linkAt s h).owedAt = some t0 → t0 + 200 ≤ tickNow s →
      exec (.ackSendTimer h) s = .next (sendAck s h)) ∧
    (∀ e, (linkAt s h).retry.head? = some e → e.sent + 1000 ≤ tickNow s →
      ∃ u, exec (.ackTimeout h) s = .next (noteDetours u) ∧ linkState u h = 5 ∧ (linkAt u h).retrain = some 2) ∧
    (∀ w, (linkAt s h).waits.find? (fun w => w.hdr.cls == 3 && w.hdr.layer.isNone && !mayStart s h w &&
        decide (w.since + 64 * lclkHalf ≤ s.clock.half)) = some w →
      ∃ u, exec (.escapeWait h) s = .next (routePacket u { w with hdr := { w.hdr with layer := some 0 } }).1 ∧
        (linkAt u h).waits = (linkAt s h).waits.erase w)

/-- Low power on one link: proposal, acceptance, decline, entry, exit and abort (R292 to R294), and that none of them
changes another link, a byte of memory or a queue. -/
def Obligations.LinkPower : Prop :=
  ∀ (h g : Nat) (s : State), h < 36 → g ≠ h →
    (linkState s h = 2 → bit (linkCtrl s h) 2 = true → (linkAt s h).lp = 0 → linkQuiet s h = true →
      (linkAt s h).busyAt + max 1 (bits (linkCtrl s h) 16 16) * 100 ≤ tickNow s →
      ∃ t, exec (.lpIdleTimer h) s = .next t ∧ (linkAt t h).lp = 1 ∧ linkAt t g = linkAt s g ∧ t.regs = s.regs ∧
        t.out = .link h "LP_PROPOSE" [] :: s.out) ∧
    (linkState s h = 2 → (linkAt s h).lp = 1 →
      ∃ t, exec (.lpPropose h) s = .next t ∧ (linkAt t h).lp = 2 ∧ (linkAt t h).lpEnd = lpCountdown s ∧
        linkAt t g = linkAt s g ∧ t.regs = s.regs) ∧
    (linkState s h = 2 → (linkAt s h).lp = 0 → linkQuiet s h = true →
      ∃ t, exec (.lpPropose h) s = .next t ∧ (linkAt t h).lp = 3 ∧ linkAt t g = linkAt s g ∧ t.regs = s.regs ∧
        t.out = .link h "LP_ACCEPT" [] :: s.out) ∧
    (linkState s h = 2 → (linkAt s h).lp = 0 → linkQuiet s h = false →
      exec (.lpPropose h) s = .next (emit s (.link h "LP_DECLINE" []))) ∧
    (linkState s h = 2 → (linkAt s h).lp = 1 →
      ∃ t, exec (.lpAccept h) s = .next t ∧ (linkAt t h).lp = 2 ∧ linkAt t g = linkAt s g ∧ t.regs = s.regs) ∧
    ((linkAt s h).lp = 1 →
      ∃ t, exec (.lpDecline h) s = .next t ∧ (linkAt t h).lp = 0 ∧ linkAt t g = linkAt s g ∧ t.regs = s.regs) ∧
    ((linkAt s h).lp = 2 ∨ (linkAt s h).lp = 3 →
      ∃ t, exec (.lpAbort h) s = .next t ∧ (linkAt t h).lp = 0 ∧ linkAt t g = linkAt s g ∧ t.queues = s.queues ∧
        t.mem = s.mem ∧ rd64 t (SPR_LP_ABORT_CNT_LO (h / 2) (h % 2)) =
          (rd64 s (SPR_LP_ABORT_CNT_LO (h / 2) (h % 2)) + 1) % 2 ^ 64) ∧
    ((linkAt s h).lp = 2 ∨ (linkAt s h).lp = 3 → linkState s h = 2 → (linkAt s h).lpEnd ≤ s.clock.half →
      ∃ t, exec (.electricalIdleEntry h) s = .next t ∧ (linkAt t h).lp = 4 ∧ linkState t h = 4 ∧
        linkAt t g = linkAt s g ∧ t.mem = s.mem ∧ rd64 t (SPR_LP_ENTRY_CNT_LO (h / 2) (h % 2)) =
          (rd64 s (SPR_LP_ENTRY_CNT_LO (h / 2) (h % 2)) + 1) % 2 ^ 64) ∧
    (linkUp s h = true → exec (.lpWake h) s = .next (drainLink (wakeLink s h) h)) ∧
    ((linkAt s h).lp = 4 → linkState s h = 4 →
      ∃ u, exec (.lpExitDetect h) s = .next (drainLink u h) ∧ linkState u h = 2 ∧ (linkAt u h).lp = 0)

/-- The Sprue's own registers: fences, the check of a bank of the routing table, its entries and a takeover (R278, R283,
R289, R296). -/
def Obligations.SprueRegisters : Prop :=
  ∀ (src : Src) (v : Word) (s : State), s.mode = .ready →
    exec (.sprFenceChange src none v) s = .next (fenceChange s src none v.toNat) ∧
    (∀ h, exec (.sprFenceChange src (some h) v) s = .next (fenceChange s src (some h) v.toNat)) ∧
    ((List.range (2 ^ bits (rd s SPR_TOPO) 4 5)).all (fun d => (hopFails s (bits (rd s SPR_RT_CTRL) 0 2) d).isNone) = true →
      ∃ t, exec (.sprRtCheck src []) s = .next t ∧
        bit (rd t SPR_RT_CTRL) (8 + bits (rd s SPR_RT_CTRL) 0 2) = true) ∧
    (∀ d c, d < 2 ^ bits (rd s SPR_TOPO) 4 5 → hopFails s (bits (rd s SPR_RT_CTRL) 0 2) d = some c →
      ∃ t, exec (.sprRtCheck src []) s = .next t ∧
        bit (rd t SPR_RT_CTRL) (8 + bits (rd s SPR_RT_CTRL) 0 2) = false) ∧
    (∃ t, exec (.sprRtDataAccess src false v) s = .next t ∧
      t.out = .readData src (routeEntry s (bits (rd s SPR_RT_CTRL) 0 2) (bits (rd s SPR_RT_INDEX) 0 16)) 4 false :: s.out ∧
      rd t SPR_RT_INDEX = (bits (rd s SPR_RT_INDEX) 0 16 + 1) % 65536 ∧ t.sprues = s.sprues) ∧
    (bankNamed s (bits (rd s SPR_RT_CTRL) 0 2) = false →
      ∃ t, exec (.sprRtDataAccess src true v) s = .next t ∧
        spGet t.sprues.banks (65536 * bits (rd s SPR_RT_CTRL) 0 2 + bits (rd s SPR_RT_INDEX) 0 16) 0#32 =
          BitVec.ofNat 32 (bits v.toNat 0 11 + 2 ^ 31 * bits v.toNat 31 1) ∧
        rd t SPR_RT_INDEX = (bits (rd s SPR_RT_INDEX) 0 16 + 1) % 65536) ∧
    (rd s SPR_TAKEOVER ≠ v.toNat % 16 →
      ∃ u, exec (.sprTakeover src v) s = .next (reroute u noLink) ∧ rd u SPR_TAKEOVER = v.toNat % 16)

/-- The requests of the flask fabric at the home, in a READY device: a request within the window takes its place in line
and what may start is started (R339, R342, R348, R349, R354); one beyond the window is refused and recorded (R339, R361);
one of a later step than this device's cut is held (R407). -/
def Obligations.FlaskHome : Prop :=
  ∀ (pos off tag slice bank version aop operand compare c : Nat) (data : List Byte) (s : State), s.mode = .ready →
    (heldByCut s none = false) ∧
    (∀ (i : Instr) (k : WinReq) (d : List Byte),
      (i, k, d) ∈ [(Instr.rdS pos off tag slice bank none, WinReq.rdS, []),
        (.rdX pos off tag slice bank none, .rdX, []), (.rdOnce pos off tag slice bank none, .rdOnce, []),
        (.wr pos off tag slice bank none data, .wr, data.take (128 - off % 128)),
        (.atCmd pos off tag slice bank none aop operand compare, .atomic,
          leBytes 1 (aop % 8) ++ leBytes 8 operand ++ leBytes 8 compare),
        (.wb pos off tag slice bank none data, .wb, data.take 128), (.peek pos off tag slice bank none, .peek, []),
        (.check pos off tag slice bank none version, .check, leBytes 2 version)] →
      (∀ u, winOn s = true → off < winBytes s → bit (rd s FLK_WIN_SLICE) slice = true →
        u = homePump (s.withFlask { s.flask with
          queued := s.flask.queued ++ [⟨off / 128, pos, k, off, d, tag, slice, bank, [], false⟩] }) →
        u.calm → exec i s = .next u) ∧
      (∀ u, winOn s = true → winBytes s ≤ off →
        u = sendRsp (logUnit s 0x0311 0 ([pos] ++ datum64 off)) "REFUSED" pos slice bank [tag, 0] [] →
        u.calm → exec i s = .next u)) ∧
    (heldByCut s (some c) = true → s.calm →
      ∀ i ∈ [Instr.rdS pos off tag slice bank (some c), .rdX pos off tag slice bank (some c),
        .rdOnce pos off tag slice bank (some c), .wr pos off tag slice bank (some c) data,
        .atCmd pos off tag slice bank (some c) aop operand compare, .wb pos off tag slice bank (some c) data,
        .peek pos off tag slice bank (some c), .check pos off tag slice bank (some c) version],
        exec i s = .next s)

/-- Snoops. At the home, a reply closes its snoop and the last one lets the transaction be served (R342, R345); a silent
position is taken to be dead (R358); DONE closes the transaction and frees its line (R346). At a caching device, SNP_INV and
SNP_RCL leave no copy, and SNP_SHR leaves one in S (R345). -/
def Obligations.FlaskSnoops : Prop :=
  ∀ (pos line f slice bank : Nat) (data : List Byte) (t : HomeTx) (s : State), s.mode = .ready →
    (s.flask.home.find? (fun t => t.line == line && t.snoops.any (fun n => n.1 == pos)) = some t →
      (∀ u, (∃ n ∈ t.snoops, n.1 ≠ pos) → s.calm →
        u = s.withFlask { s.flask with home := s.flask.home.map (fun v => if v.line = line then
          { t with snoops := t.snoops.filter (fun n => n.1 != pos) } else v) } →
        exec (.ackData pos line []) s = .next u) ∧
      (∀ u, (∀ n ∈ t.snoops, n.1 = pos) → data ≠ [] → u = (homeStore s line 0 (data.take 128)).1 →
        (homePump (serveTx (u.withFlask { u.flask with home := u.flask.home.map (fun v => if v.line = line then
          { t with snoops := [] } else v) }) { t with snoops := [] })).calm →
        exec (.ackData pos line data) s = .next (homePump (serveTx (u.withFlask { u.flask with
          home := u.flask.home.map (fun v => if v.line = line then { t with snoops := [] } else v) })
          { t with snoops := [] })))) ∧
    (s.flask.home.find? (fun t => t.line == line && t.snoops.any (fun n => n.1 == pos && decide (n.2 + 2000 ≤ tickNow s))) =
        some t →
      ∀ u, u = snoopReply (logUnit (setReg s FLK_DEADPOS (setBits (rd s FLK_DEADPOS) pos 1 1)) 0x0315 0
          [pos, snoopCode (homeSnoops s t).1, line]) pos line [] → u.calm →
        exec (.snoopTimeout pos line) s = .next u) ∧
    (s.flask.home.find? (fun t => t.line == line && t.pos == pos && t.answered) = some t →
      (homePump (closeTx s t)).calm →
      exec (.done pos line) s = .next (homePump (closeTx s t)) ∧
      ∀ v ∈ (closeTx s t).flask.home, v.line ≠ t.line) ∧
    (∃ u, exec (.snpInv f line slice bank) s = .next u ∧
      ((cached s f line).isSome = true → cached u f line = none)) ∧
    (∃ u, exec (.snpRcl f line slice bank) s = .next u ∧
      ((cached s f line).isSome = true → cached u f line = none)) ∧
    (∀ d, s.flask.wbs.find? (fun w => w.key == winKey f line) = none → cached s f line = some ⟨true, d⟩ →
      ∃ u, exec (.snpShr f line slice bank) s = .next (u.withFlask { u.flask with
          cache := spIns (spDel u.flask.cache (winKey f line)) (winKey f line) ⟨false, d⟩ }) ∧
        u = sendRsp s "ACK_DATA" f slice bank [ownPos s, line] d)

/-- Answers of the flask fabric at the requester. An answer without an open request is dropped and counted (R357); an
answer of an open request installs its line (R340, R346), ends a write-back (R346), buffers or misses a peeked line (R348),
serves or repeats a checked read (R349), or stops the item (R339, R351). -/
def Obligations.FlaskAnswers : Prop :=
  ∀ (tag version mask pos line reason : Nat) (data : List Byte) (r : LReq) (s : State), s.mode = .ready →
    (openReq s tag = none →
      ∀ i ∈ [Instr.data tag version mask data, .ack false pos line tag mask data, .peekMiss tag, .checkOk tag,
        .checkFail tag, .refused tag reason],
      ∃ u, exec i s = .next u ∧ u = s.withRegs u.regs ∧
        rd64 u FLK_LATE_CNT_LO = (rd64 s FLK_LATE_CNT_LO + 1) % 2 ^ 64 ∧
        ∀ o, o ≠ FLK_LATE_CNT_LO → o ≠ FLK_LATE_CNT_LO + 4 → rd u o = rd s o) ∧
    (openReq s tag = some r →
      (r.kind = 10 ∨ r.kind = 11 → mask = 0 →
        ∀ u, u = answerAny (sendDone (installLine s (reqCtx s r) (winKey (reqLine s r).1 (reqLine s r).2)
          ⟨r.kind == 11, data.take 128⟩) r) r 0 0 (data.take 128) → u.calm →
        exec (.data tag version mask data) s = .next u) ∧
      (r.kind = 15 → ∃ u, exec (.ack false pos line tag 0 data) s = .next (answerAny u r 0 0 []) ∧
        ∀ w ∈ u.flask.wbs, w.key ≠ winKey (reqLine s r).1 (reqLine s r).2) ∧
      (r.kind = 16 → exec (.peekMiss tag) s = .next (answerAny
        (setLine (cntAdd s FLK_PEEKMISS_CNT_LO 1) (reqStream r) r.addr (fun _ => none)) r 0 0 [])) ∧
      (r.kind = 17 → peekedLine s (reqCtx s r) r.addr = none → (answerAny s r 2 0 []).calm →
        exec (.checkOk tag) s = .next (answerAny s r 2 0 [])) ∧
      (r.kind = 17 → peekedLine s (reqCtx s r) r.addr = none →
        ∀ u v, u = cntAdd s FLK_CHECKFAIL_CNT_LO 1 →
          v = ladleAdvance (u.withLadle { u.ladle with
            slots := spPut u.ladle.slots r.slice (spGet u.ladle.slots r.slice 0 - r.slots) 0
            reqs := u.ladle.reqs.filter (fun q => q.id != r.id) }) r.queue r.index → v.calm →
        exec (.checkFail tag) s = .next v) ∧
      (r.kind ≠ 16 → reason ≠ 0 → (answerAny s r 3 reason []).calm →
        exec (.refused tag reason) s = .next (answerAny s r 3 reason []))) ∧
    (∀ t d, s.flask.home.find? (fun t => t.line == line && t.snoops.any (fun n => n.1 == pos)) = some t →
      (∃ n ∈ t.snoops, n.1 ≠ pos) → s.calm →
      exec (.ack true pos line tag mask d) s = .next (s.withFlask { s.flask with
        home := s.flask.home.map (fun v => if v.line = line then
          { t with snoops := t.snoops.filter (fun n => n.1 != pos) } else v) }))

/-- Remote accesses and triggers, in a READY device. An access outside every export range is counted, recorded and refused;
another is served (R351 to R354). A trigger packet for a slot that is not valid is refused with reason 4; for a valid slot
whose queue is enabled, available and has room, the list with its argument is copied and published (R360). A write of
FLK_TRIG_CTRL registers the slot or refuses it (R359); FLK_CLR_DEAD and FLK_WIN_EN have their effect (R358, R341). -/
def Obligations.FlaskServices : Prop :=
  ∀ (src slice bank tag kind a n t arg : Nat) (data : List Byte) (w : Src) (v : Word) (s : State),
    s.mode = .ready → t < 256 →
    (∀ why, exportRefuses s slice (min kind 2) a n = some why →
      exec (.remoteAccessArrive src slice bank tag kind a n data none none) s = .next (sendAnswer
        (logUnit (cntAdd s FLK_REFUSED_CNT_LO 1) 0x0313 0 ([src] ++ datum64 a ++ [min kind 2 + 1, why])) "REFUSED" src slice
        bank [tag, why] [])) ∧
    (∀ u, exportRefuses s slice (min kind 2) a n = none → u = remoteServe s src slice bank tag kind a n data none → u.calm →
      exec (.remoteAccessArrive src slice bank tag kind a n data none none) s = .next u) ∧
    (∀ u, bit (rd s (FLK_TRIG_CTRL t)) 0 = false →
      u = sendAnswer (logUnit (satAdd s (FLK_TRIG_REF_CNT t) 1) 0x0318 0 [t, src, 4]) "REFUSED" src slice bank [tag, 4] [] →
      u.calm → exec (.triggerPacket src slice bank tag t arg none) s = .next u) ∧
    (∀ u z, bit (rd s (FLK_TRIG_CTRL t)) 0 = true → bit (rd s (FLK_TRIG_LEN t)) (16 + slice) = true →
      qEnabled s (trigQueue s t) = true → available s (qCru (trigQueue s t)) = true →
      (2 ^ 32 + rd s (FLK_TRIG_WIDX t) - qHead s (trigQueue s t)) % 2 ^ 32 + trigLen s t ≤ qSize s (trigQueue s t) →
      bits (rd s (FLK_TRIG_CTRL t)) 16 12 = 0 →
      z = (trigWords s t).zipIdx.foldl
        (fun st e => devWords st hostAgent (qWordAddr s (trigQueue s t) (rd s (FLK_TRIG_WIDX t) + e.2)) [e.1]) s →
      u = sendAnswer (cntAdd (doorbell (setReg z (FLK_TRIG_WIDX t) (rd s (FLK_TRIG_WIDX t) + trigLen s t))
        (.unit (0x1000 + t)) (trigQueue s t) (trigLen s t) (trigQueue s t * 64)) (FLK_TRIG_CNT_LO t) 1) "ACK" src slice bank
        [tag] [] →
      u.calm → exec (.triggerPacket src slice bank tag t arg none) s = .next u) ∧
    (bit (rd s (FLK_TRIG_CTRL t)) 0 = false → bit v.toNat 0 = true →
      (∀ u, u = setReg s (FLK_TRIG_CTRL t) (v.toNat % 2 ^ 28) → trigFails u t = none →
        exec (.flkTrigValid w t v) s = .next (logAccepted (setReg u (FLK_TRIG_WIDX t) (qPub u (trigQueue u t))) w 0
          (FLK_TRIG_CTRL t) (v.toNat % 2 ^ 28))) ∧
      (∀ u c, u = setReg s (FLK_TRIG_CTRL t) (v.toNat % 2 ^ 28) → trigFails u t = some c →
        exec (.flkTrigValid w t v) s = .next (logUnit (setReg s (FLK_TRIG_CTRL t) (v.toNat % 2 ^ 28 - 1)) 0x0317 0 [t, c]))) ∧
    exec (.flkClrDead w) s =
      .next (logAccepted (setReg s FLK_DEADPOS 0) w 0 FLK_CTRL (setBits (rd s FLK_CTRL) 2 1 1)) ∧
    (bit v.toNat 2 = false → bit v.toNat 0 = bit (rd s FLK_CTRL) 0 → v.toNat % 4 ≠ rd s FLK_CTRL →
      exec (.flkWinEn w v) s = .next (logAccepted (setReg s FLK_CTRL (v.toNat % 4)) w 0 FLK_CTRL (v.toNat % 4))) ∧
    (bit v.toNat 2 = false → bit v.toNat 0 = true → bit (rd s FLK_CTRL) 0 = false →
      exec (.flkWinEn w v) s = .next (logUnit (logAccepted (setReg s FLK_CTRL (v.toNat % 4)) w 0 FLK_CTRL (v.toNat % 4))
        0x0310 0 ([min 64 (bits (rd s FLK_WIN_SIZE) 0 7)] ++ datum64 (rd64 s FLK_WIN_BACK_LO) ++
          datum64 (rd64 s FLK_DIR_BASE_LO))))

/-- When a crucible is due, and what happens then: before its due tick nothing; at it a crucible without load is tested at
once (R372), and a loaded one is DUE and waits while no spare is left (R373). A loaded crucible with score s is due at
last pass + max(600 s, PERIOD × (256 − s) / 256), never later than PERIOD allows (R455). -/
def Obligations.FettleDueTick : Prop :=
  ∀ (p : Nat) (s : State),
    ((carriedBy s p).isSome = true →
      ftlDue s p = ftlLast s p + 100000000 * max 600 (rd s CUP_FTL_PERIOD * (256 - riskScore s p) / 256)) ∧
    (600 ≤ rd s CUP_FTL_PERIOD → ftlDue s p ≤ ftlLast s p + 100000000 * rd s CUP_FTL_PERIOD) ∧
    (tickNow s < ftlDue s p → exec (.fettleDue p) s = .next s) ∧
    (s.mode = .ready → p < 264 → ftlState s p = 0 → ftlDue s p ≤ tickNow s →
      (carriedBy s p = none → ∃ u, exec (.fettleDue p) s = .next u ∧ ftlState u p = 3 ∧ u.regs = s.regs ∧
        u.mem = s.mem ∧ (cruOf u p).testing = some (tickNow s) ∧ (cruOf u p).resident = none) ∧
      ((carriedBy s p).isSome = true → sparesLeft (setFtl s p 1) (physCasting p) = 0 →
        exec (.fettleDue p) s = .next (setFtl s p 1)))

/-- The course of a fettle test. A move not begun while the resident command lasts 200 ms is withdrawn and ordered again
after RETRY (R373); at its deadline a crucible with no free spare is OVERDUE until its context can be switched out, then
tested in place (R377), and one with a free spare is ordered moved (R376); a pass sets the tick of the last pass, and a
failure takes the crucible out of service (R375, R378). -/
def Obligations.FettleCourse : Prop :=
  ∀ (p c phase sig : Nat) (s : State), p < 264 →
    (carriedBy s p = some c → ftlState s p = 2 → 20000000 ≤ commandAge s c →
      s.tnd.moves.any (fun m => m.logical == c && m.endAt.isNone && m.fettle) = true →
      ∃ u, exec (.fettleDefer p) s = .next u ∧ ftlState u p = 1 ∧ (∀ m ∈ u.tnd.moves, m.logical ≠ c) ∧
        spGet u.integ.defers p 0 = spGet s.integ.defers p 0 + 1 ∧
        spGet u.integ.retryAt p 0 = tickNow s + ticksPerSecond * rd s CUP_FTL_RETRY ∧
        rd64 u CUP_FTL_DEFER_CNT_LO = (rd64 s CUP_FTL_DEFER_CNT_LO + 1) % 2 ^ 64) ∧
    (ftlState s p = 1 → spGet s.integ.retryAt p 0 ≤ tickNow s →
      exec (.fettleRetry p) s = .next (fettleOrder s (physCasting p)) ∧
      (sparesLeft s (physCasting p) = 0 → exec (.fettleRetry p) s = .next s)) ∧
    (carriedBy s p = some c → s.mode = .ready → ftlDeadline s p ≤ tickNow s → ftlState s p ≠ 3 → ftlState s p ≠ 5 →
      s.tnd.moves.any (fun m => m.logical == c && m.endAt.isSome) = false →
      (freeSpare s c = none → canSwitch s c = false → exec (.fettleDeadline p) s = .next (setFtl s p 4)) ∧
      (freeSpare s c = none → canSwitch s c = true → residentOn s c = none →
        ∃ u, exec (.fettleDeadline p) s = .next u ∧ ftlState u p = 3 ∧ (cruOf u p).testing = some (tickNow s) ∧
          rd64 u CUP_FTL_INPLACE_CNT_LO = (rd64 s CUP_FTL_INPLACE_CNT_LO + 1) % 2 ^ 64 ∧ u.mem = s.mem) ∧
      (∀ t, freeSpare s c = some t → ftlState s p ≠ 4 → s.tnd.moves.any (fun m => m.logical == c) = false →
        ∃ u, exec (.fettleDeadline p) s = .next (arbitrate (u.withTnd { u.tnd with
          moves := s.tnd.moves ++ [⟨c, none, none, false⟩] }) c) ∧ recordsOnly (setFtl s p 4) u)) ∧
    (∀ t, (cruOf s p).testing = some t → t + 150000 ≤ tickNow s → s.integ.inPlace.find? (fun e => e.1 == p) = none →
      (∃ u, exec (.fettleTestEnd p true phase sig) s =
          .next (fettleOrder (serveUnavailable u (physCasting p)) (physCasting p)) ∧
        ftlState u p = 0 ∧ ftlLast u p = tickNow s % 2 ^ 64) ∧
      (carriedBy s p = none → spGet s.integ.carried p 0 = 0 →
        ∃ u, exec (.fettleTestEnd p false phase sig) s = .next u ∧ ftlState u p = 5 ∧
          rd u (CUP_FTL_FAILS p) = min (rd s (CUP_FTL_FAILS p) + 1) 0xFFFFFFFF ∧ u.physMap = s.physMap))

/-- Verify mode, choices, taint and the records of a cope/drag pair: what each command writes, and that recording it
changes nothing else (R380, R390, R368); a partner's record is matched with this side's own by key, and a mismatch or one
left for 1 s stops the pair (R389). -/
def Obligations.IntegrityCommands : Prop :=
  ∀ (src : Src) (on_ : Bool) (v : Word) (key dg : Nat) (s : State), s.mode = .ready →
    (rd s CUP_INT_CTRL ≠ setBits (rd s CUP_INT_CTRL) 0 1 (b2n on_) →
      ∃ u, exec (.cupIntCtrlVerify src on_) s = .next u ∧
        recordsOnly (setReg s CUP_INT_CTRL (setBits (rd s CUP_INT_CTRL) 0 1 (b2n on_))) u) ∧
    (∃ u, exec (.clrChoice src) s = .next u ∧ rd64 u CUP_CHOICE_CNT_LO = 0 ∧
      (∀ k < 6, rd u (CUP_CHOICE_KIND_CNT k) = 0) ∧ rd u CUP_CHOICE_FIRST = 0 ∧ rd u CUP_CHOICE_FIRST_STEP = 0 ∧
      u.integ.detBroken = false ∧ rd u CUP_INT_TAINT = rd s CUP_INT_TAINT) ∧
    (rd s CUP_INT_TAINT &&& v.toNat % 64 ≠ 0 →
      ∃ u, exec (.cupIntTaintClear src v) s = .next u ∧
        recordsOnly (setReg s CUP_INT_TAINT (rd s CUP_INT_TAINT - (rd s CUP_INT_TAINT &&& v.toNat % 64))) u) ∧
    (rd s CUP_INT_TAINT &&& v.toNat % 64 = 0 → exec (.cupIntTaintClear src v) s = .next s) ∧
    (s.integ.cope = 1 → (∀ e ∈ s.integ.theirs, e.1 ≠ key) →
      ((∀ e ∈ s.integ.mine, e.1 ≠ key) → exec (.digestRecord key dg) s =
        .next (s.withInteg { s.integ with theirs := s.integ.theirs ++ [(key, dg, tickNow s)] })) ∧
      (∀ d t, s.integ.mine.find? (fun e => e.1 == key) = some (key, d, t) → d ≠ dg →
        ∃ u, exec (.digestRecord key dg) s = .next u ∧ u.integ.cope = 2 ∧ rd64 u CUP_COPE_KEY_LO = key % 2 ^ 64 ∧
          rd64 u CUP_COPE_OWN_LO = d % 2 ^ 64 ∧ rd64 u CUP_COPE_PART_LO = dg % 2 ^ 64)) ∧
    (∀ d t, s.integ.cope = 1 → s.integ.mine = [(key, d, t)] → s.integ.theirs = [] → t + ticksPerSecond ≤ tickNow s →
      ∃ u, exec .copeUnmatchedTimeout s = .next u ∧ recordsOnly (s.withInteg { s.integ with cope := 3 }) u)

/-- The ingot's requests and the cut. An enable with a failing condition of R398 is refused with its place, and one without
frees the map; CUT is pending until its conditions hold, and dropped by ABANDON or refused while tainted (R403, R406);
CUT_TAKE takes a pending cut when its conditions hold and not before (R404), and CHILL is noted once (R406). -/
def Obligations.IngotCuts : Prop :=
  ∀ (src : Src) (v : Word) (pos : Nat) (peers : List Nat) (s : State), s.mode = .ready →
    (∀ c, bit (ingCtrlBits v.toNat) 0 = true → bit (rd s CUP_ING_CTRL) 0 = false →
      rd s CUP_ING_CTRL ≠ ingCtrlBits v.toNat - 1 → ingFails s = some c →
      exec (.cupIngEnable src v) s = .next (logCup (logAccepted (setReg s CUP_ING_CTRL (ingCtrlBits v.toNat - 1)) src 0
        CUP_ING_CTRL (ingCtrlBits v.toNat - 1)) 0x070F [c])) ∧
    (bit (ingCtrlBits v.toNat) 0 = true → bit (rd s CUP_ING_CTRL) 0 = false → ingFails s = none →
      ∃ u, exec (.cupIngEnable src v) s = .next u ∧ u.ingot.images = [] ∧ u.ingot.want = none ∧ u.ingot.failed = false) ∧
    (tainted s = true → ingOn s = true → s.ingot.want = none →
      ∃ u, exec (.cut src) s = .next u ∧ recordsOnly s u) ∧
    (tainted s = false → ingOn s = true → s.ingot.want = none → s.ingot.busy = 0 → bits (rd s FLK_CTRL) 0 2 = 0 →
      ∃ u, exec (.cut src) s = .next u ∧ recordsOnly (s.withIngot { s.ingot with want := some (2, 0, tickNow s) }) u) ∧
    (s.ingot.want ≠ none →
      ∃ u, exec (.abandon src) s = .next u ∧ recordsOnly (s.withIngot { s.ingot with want := none }) u) ∧
    (∀ kind step since, s.ingot.want = some (kind, step, since) →
      (cutReady s kind peers = false → exec (.cutTake peers) s = .next s) ∧
      (cutReady s kind peers = true → exec (.cutTake peers) s = .next (takeCut s kind step since))) ∧
    (s.ingot.chilled.contains pos = false →
      exec (.chillAnnounce pos) s = .next (s.withIngot { s.ingot with chilled := s.ingot.chilled ++ [pos] })) ∧
    (s.ingot.chilled.contains pos = true → exec (.chillAnnounce pos) s = .next s)

/-- The drain to the buddy (R408, R411). A packet or seal record that is not the ward's is recorded and changes nothing
else; the ward's seal record is answered with its result; SEALED of the buddy seals the cut or sets the next attempt one
second later; DRAIN_RETRY begins the drain again then. -/
def Obligations.IngotDrain : Prop :=
  ∀ (src epoch n addr pages dg result step : Nat) (data : List Byte) (s : State), s.mode = .ready →
    (isWard s src = false → ∃ u, recordsOnly s u ∧ exec (.drainPacket src epoch n addr data) s = .next u ∧
      exec (.sealRecord src epoch step pages dg) s = .next u) ∧
    (isWard s src = true → n = (if n = 0 then 0 else s.ingot.wardGot) → n < halfSlots s →
      ∃ u, exec (.drainPacket src epoch n addr data) s = .next (sendMsg u "ACK" src [epoch, n] 1 (drainSlice s) 0 0 0) ∧
        u.ingot.wardGot = n + 1 ∧ u.regs = s.regs ∧
        u.mem = putBytes s.mem (rd64 s CUP_ING_BSTORE_BASE_LO + 65536 * ((1 - s.ingot.wardHalf) * halfSlots s + n))
          (data.take 65536)) ∧
    (isWard s src = true → n ≠ 0 → n ≠ s.ingot.wardGot → exec (.drainPacket src epoch n addr data) s = .next s) ∧
    (isWard s src = true → pages ≤ halfSlots s → s.ingot.wardGot = pages → s.ingot.wardSum = dg →
      ∃ u w, exec (.sealRecord src epoch step pages dg) s =
          .next (sendMsg w "SEALED" src [epoch, 0] 1 (drainSlice s) 0 0 0) ∧ recordsOnly u w ∧
        rd u CUP_ING_WARD_SEALED = epoch % 2 ^ 32 ∧ u.ingot.wardHalf = 1 - s.ingot.wardHalf ∧ u.mem = s.mem) ∧
    (isWard s src = true → pages ≤ halfSlots s → s.ingot.wardGot ≠ pages ∨ s.ingot.wardSum ≠ dg →
      ∃ w, exec (.sealRecord src epoch step pages dg) s =
          .next (sendMsg w "SEALED" src [epoch, 1] 1 (drainSlice s) 0 0 0) ∧
        recordsOnly (s.withIngot { s.ingot with wardGot := 0, wardSum := 0 }) w) ∧
    (∀ k start d, s.ingot.drain = some (epoch, k, start, d, none) → src = bits (rd s CUP_ING_BUDDY) 0 16 →
      exec (.sealed src epoch 0) s = .next (logCup (sealCut s epoch) 0x0703 [epoch, k, tickNow s - start]) ∧
      (result ≠ 0 → ∃ w, exec (.sealed src epoch result) s = .next w ∧ recordsOnly (s.withIngot { s.ingot with
        drain := some (epoch, k, start, d, some (tickNow s + ticksPerSecond)) }) w)) ∧
    (∀ e k start d t, s.ingot.drain = some (e, k, start, d, some t) →
      (t ≤ tickNow s → exec .drainRetry s = .next (startDrain s)) ∧ (tickNow s < t → exec .drainRetry s = .next s))

/-- Restore and load (R413 to R415). A failing condition is recorded with its place and nothing else changes; RESTORE
rolls back at once and is busy until RESTORE_COMPLETE, whose event gives what was written; a load that fails leaves FAILED
and its source and page; one that succeeds leaves CUP_ING_SEALED at its epoch. -/
def Obligations.IngotRestore : Prop :=
  ∀ (src : Src) (image : List (Nat × Nat)) (pages : List (Nat × List Byte)) (lines : List (Nat × Bool × List Byte))
    (source page : Nat) (s : State), s.mode = .ready →
    (s.ingot.busy ≠ 0 → ∃ u, recordsOnly s u ∧ exec (.restore src) s = .next u ∧ exec (.load src) s = .next u) ∧
    (∀ c, s.ingot.busy = 0 → restoreFails s (rd s CUP_ING_TARGET) = some c →
      ∃ u, exec (.restore src) s = .next u ∧ recordsOnly s u) ∧
    (s.ingot.busy = 0 → restoreFails s (rd s CUP_ING_TARGET) = none →
      ∃ u, exec (.restore src) s = .next (restoreContexts u) ∧ u.ingot.busy = 4 ∧ u.ingot.busyAt = tickNow s ∧
        u.ingot.want = none ∧ u.flask.cache = spGet s.ingot.caches (rd s CUP_ING_TARGET) []) ∧
    (s.ingot.busy = 4 → exec .restoreComplete s = .next (logCup (s.withIngot { s.ingot with busy := 0 }) 0x0708
      [rd s CUP_ING_EPOCH, s.ingot.wrote, tickNow s - s.ingot.busyAt])) ∧
    (isSpare s = false → s.ingot.busy = 0 → ∃ u, exec (.load src) s = .next u ∧
      recordsOnly (s.withIngot { s.ingot with failed := true }) u) ∧
    (isSpare s = true → (ownAddress s).isSome = true → s.ingot.busy = 0 →
      (∀ x < 16, masked s x = false ∨ ctxState s x = 0) → rd s CUP_ING_LOADSRC = 2 ^ 31 →
      ∃ u, exec (.load src) s = .next u ∧ recordsOnly (s.withIngot { s.ingot with
        busy := 5, busyAt := tickNow s, failed := false }) u) ∧
    (s.ingot.busy = 5 → ∃ u, exec (.loadComplete (some (source, page)) image pages lines) s = .next u ∧
      recordsOnly (s.withIngot { s.ingot with busy := 0, failed := true }) u) ∧
    (s.ingot.busy = 5 → bit (rd s CUP_ING_LOADSRC) 31 = true →
      ∃ u w, exec (.loadComplete none image pages lines) s = .next w ∧ recordsOnly u w ∧ u.ingot.busy = 0 ∧
        u.ingot.images = [] ∧ u.ingot.drain = none ∧ rd u CUP_ING_SEALED = rd s CUP_ING_TARGET)

/-- A quench (R417, R418, R420, R421). ARM with a cause of 1 to 4 is kept with its tick and zeroes nothing; GO with its nonce
within 1 ms begins the quench, and one with another nonce, or late, is discarded; the shakeout goes before the phases; the
end applies the profile and releases the device, or stops it where no profile can be used. -/
def Obligations.QuenchCourse : Prop :=
  ∀ (src : Src) (v : Word) (absent lost : Nat) (partner : Bool) (s : State),
    (s.mode = .ready → bits (v.toNat &&& 0xFFFF00F7) 4 3 = 0 ∨ 5 ≤ bits (v.toNat &&& 0xFFFF00F7) 4 3 →
      ∃ u, exec (.cupQuenchArm src v) s = .next u ∧ recordsOnly s u) ∧
    (s.mode = .ready → 1 ≤ bits (v.toNat &&& 0xFFFF00F7) 4 3 → bits (v.toNat &&& 0xFFFF00F7) 4 3 ≤ 4 →
      rd s CUP_QUENCH_ARM ≠ v.toNat &&& 0xFFFF00F7 →
      ∃ u w, exec (.cupQuenchArm src v) s = .next (w.withCup { w.cup with armedAt := some (tickNow s) }) ∧
        recordsOnly u w ∧ u = setReg s CUP_QUENCH_ARM (v.toNat &&& 0xFFFF00F7)) ∧
    (∀ t, s.mode = .ready → s.cup.armedAt = some t →
      (tickNow s ≤ t + 100000 → bits v.toNat 16 16 = bits (rd s CUP_QUENCH_ARM) 16 16 →
        exec (.cupQuenchGo src v) s = .next (beginQuench (logAccepted s src 0 CUP_QUENCH_GO (v.toNat / 65536 * 65536))
          (bits (rd s CUP_QUENCH_ARM) 4 3) (bits (rd s CUP_QUENCH_ARM) 0 3)
          (bits (rd s CUP_QUENCH_ARM) 4 3 == 2 || bit (rd s CUP_QUENCH_ARM) 7) src)) ∧
      (t + 100000 < tickNow s ∨ bits v.toNat 16 16 ≠ bits (rd s CUP_QUENCH_ARM) 16 16 →
        ∃ u, exec (.cupQuenchGo src v) s = .next u ∧ recordsOnly s u)) ∧
    (∀ q, s.mode = .quenching → s.cup.quench = some q → q.shake = true → q.shaken = false →
      exec (.shakeoutEnd absent) s = .next (quenchStop ((writeShakeout s q.cause absent).withCup
        { (writeShakeout s q.cause absent).cup with quench := some { q with shaken := true, start := tickNow s } })) ∧
      exec (.quenchComplete lost partner) s = .next s) ∧
    (∀ q, s.mode = .quenching → s.cup.quench = some q → q.shake = false →
      (∀ u, applyProfile s q.profile lost partner = (u, false) →
        exec (.quenchComplete lost partner) s = .next { u.withCup { u.cup with quench := none } with mode := .stopped }) ∧
      (∀ u, applyProfile s q.profile lost partner = (u, true) →
        ∃ w, exec (.quenchComplete lost partner) s = .next (release w) ∧ w.cup.quench = none ∧
          (release w).mode = .ready ∧ rd64 w CUP_QUENCH_TIME_LO = tickNow s % 2 ^ 64))

/-- COLD_START acts only in a held device with its main rails on, and then starts from the state that the main domain has
after reset (R434, R488): the third restart within 10 s takes the rails off (R482), the test strap holds the device with
FAULT_N, and else the steps of Table 12.4 run. -/
def Obligations.ColdStarts : Prop :=
  ∀ (c : ColdStart) (s : State),
    (s.mode ≠ .held ∨ s.module_.rails = false → exec (.coldStart c) s = .next s) ∧
    (s.mode = .held → s.module_.rails = true → ∀ u, u = advance ((mainReset s).withModule
        { (mainReset s).module_ with rstHeld := false, faultN := false }) c.took →
      (∀ l, restartLimit c.restarts = some l → ∃ t, exec (.coldStart c) s = .next t ∧ t.module_.faultN = true ∧
        t.module_.needCycle = true) ∧
      (restartLimit c.restarts = none → bit (rd (latchStraps u c) CUP_MOD_STRAPS) 25 = true →
        exec (.coldStart c) s = .next ((latchStraps u c).withModule { (latchStraps u c).module_ with faultN := true })) ∧
      (restartLimit c.restarts = none → bit (rd (latchStraps u c) CUP_MOD_STRAPS) 25 = false →
        exec (.coldStart c) s = .next (coldRun (latchStraps u c) c)))

/-- The Cupola's loops. The comparator holds the gates at once (R449); a root change puts its point in force, counts it, and
goes on by at most 8 points (R448); a pass comes when it is due and not before, and updates the heartbeat; the decay takes
each accumulator to floor(A × 15/16) (R453); a limit above point 48, or a FLOOR above CEIL, is discarded (R447). -/
def Obligations.CupolaLoops : Prop :=
  ∀ (src : Src) (v : Word) (p10 tj inlet outlet u : Nat) (temps : List (Nat × Bool)) (lost : List Nat)
    (lanes : List (Nat × Nat × Nat × Nat)) (ceil : Bool) (s : State), s.mode = .ready →
    (s.cup.trip = false → ∃ t, exec .inputOverLimit s = .next t ∧ t.cup.trip = true ∧ t.cup.hold = true ∧ t.mem = s.mem) ∧
    (s.cup.trip = true → exec .inputOverLimit s = .next s) ∧
    (∀ k t0, s.clock.changing = some (k, t0) → ∃ t, exec .rootPointChangeEnd s = .next t ∧ t.clock.point = k ∧
      rd64 t CUP_VF_CHG_CNT_LO = (rd64 s CUP_VF_CHG_CNT_LO + 1) % 2 ^ 64 ∧
      (k = s.clock.target → t.clock.changing = none) ∧
      (∀ j e, t.clock.changing = some (j, e) → j ≤ k + 8 ∧ k ≤ j + 8 ∧ e = s.clock.now + 200)) ∧
    (tickNow s < s.cup.passAt → exec (.supervisionPass p10 tj temps inlet outlet lost) s = .next s) ∧
    (s.cup.passAt ≤ tickNow s → ∃ t, exec (.supervisionPass p10 tj temps inlet outlet lost) s = .next t ∧
      rd t CUP_WDT_HEART = tickNow s % 2 ^ 32) ∧
    (s.cup.riskAt ≤ tickNow s → exec (.riskUpdate []) s = .next
      ((List.range 300).foldl scorePart (s.withCup { s.cup with riskAt := s.cup.riskAt + ticksPerSecond }))) ∧
    (tickNow s < s.cup.riskAt → exec (.riskUpdate lanes) s = .next s) ∧
    (s.cup.decayAt ≤ tickNow s → ∃ t, exec .riskDecay s = .next t ∧
      (∀ n < 300, rd t (CUP_RISK_ACC n) = rd s (CUP_RISK_ACC n) * 15 / 16) ∧
      (∀ o, (∀ n < 300, o ≠ CUP_RISK_ACC n) → reg t o = reg s o)) ∧
    (48 < bits v.toNat 0 6 → ∃ t, exec (.cupVfLimitWrite src ceil v) s = .next t ∧ recordsOnly s t) ∧
    (vfCeil s < bits v.toNat 0 6 → ∃ t, exec (.cupVfLimitWrite src false v) s = .next t ∧ recordsOnly s t) ∧
    (s.integ.det = false → vfFloor s ≤ bits v.toNat 0 6 → bits v.toNat 0 6 ≤ 48 → rd s CUP_VF_CEIL ≠ bits v.toNat 0 6 →
      ∃ t, exec (.cupVfLimitWrite src true v) s = .next t ∧ recordsOnly (setReg s CUP_VF_CEIL (bits v.toNat 0 6)) t) ∧
    (u < 300 → rd s (CUP_RISK_ACC u) ≠ v.toNat →
      ∃ t, exec (.cupRiskAccWrite src u v) s = .next t ∧ recordsOnly (setReg s (CUP_RISK_ACC u) v.toNat) t) ∧
    (300 ≤ u → ∃ t, exec (.cupRiskAccWrite src u v) s = .next t ∧ recordsOnly s t)

/-- The voltage and frequency loop outside safety action: from a point between FLOOR and CEIL it chooses one between them,
at most one point away; it raises only with 50 W and 2 °C in hand, and lowers above a limit (R447). -/
def Obligations.LoopStaysInLimits : Prop :=
  ∀ (k : Nat) (s : State), s.integ.det = false → vfFloor s ≤ k → k ≤ vfCeil s →
    vfFloor s ≤ loopPoint s k ∧ loopPoint s k ≤ vfCeil s ∧ loopPoint s k ≤ k + 1 ∧ k ≤ loopPoint s k + 1 ∧
    (k < loopPoint s k ↔ s.cup.p10 + 50 ≤ bits (rd s CUP_POWER_LIMIT) 0 12 ∧ s.cup.tj + 2 ≤ bits (rd s CUP_T_TARGET) 0 7 ∧
      k < vfCeil s) ∧
    (loopPoint s k < k ↔ (bits (rd s CUP_POWER_LIMIT) 0 12 < s.cup.p10 ∨ bits (rd s CUP_T_TARGET) 0 7 < s.cup.tj) ∧
      vfFloor s < k)

/-- Management frames (R437, R441, R457, R465). Over a dead interface nothing arrives; a frame whose CRC fails is answered
BAD_FRAME and has no effect; READ answers with the value read, WRITE with whether the write was discarded, UNIT_READ with
the unit's entry, IMAGE_STATUS with what was received and HLOG_READ with records. -/
def Obligations.ManagementFrames : Prop :=
  ∀ (src : Src) (tag space width addr v u len off first count : Nat) (data : List Byte) (program require : Bool)
    (c : ColdStart) (s : State),
    (∀ e ∈ [(1, Instr.read src false tag space width addr), (2, .write src false tag space width addr v),
        (0x10, .unitRead src false tag u), (0x11, .orderStop src false tag u), (0x11, .orderResume src false tag u),
        (0x11, .orderDisableContext src false tag u), (0x11, .orderMove src false tag u),
        (0x11, .orderDisableGroup src false tag u), (0x11, .orderRetrain src false tag u), (0x11, .orderDown src false tag u),
        (0x11, .orderUp src false tag u), (0x11, .orderCut src false tag u), (0x20, .imageBegin src false tag len program),
        (0x21, .imageData src false tag off data), (0x22, .imageEnd src false tag c), (0x23, .imageStatus src false tag),
        (0x24, .fuseKey src false tag data require), (0x30, .hlogRead src false tag first count)],
      (frameArrives s src = false → exec e.2 s = .next s) ∧
      (frameArrives s src = true → exec e.2 s = .next (respond s src tag e.1 2 []) ∧
        recordsOnly s (respond s src tag e.1 2 []))) ∧
    (frameArrives s src = true →
      (readActs s 0 width addr = true → ∀ w n, regRead s src addr width = (w, n) →
        exec (.read src true tag 0 width addr) s = .next (respond w src tag 1 0 [n])) ∧
      (readActs s space width addr = false →
        exec (.read src true tag space width addr) s = .next (respond s src tag 1 1 [])) ∧
      (writeActs s 0 width addr = true → ∀ w, regWriteAny s src addr width v = w →
        exec (.write src true tag 0 width addr v) s =
          .next (respond w src tag 2 (if w.hlog.refused = s.hlog.refused then 0 else 1) [])) ∧
      (serving s = true → u < 565 →
        exec (.unitRead src true tag u) s = .next (respond s src tag 0x10 0 [(unitEntry s u).1, (unitEntry s u).2])) ∧
      (serving s = true →
        exec (.imageStatus src true tag) s = .next (respond s src tag 0x23 0 [s.cup.got, s.cup.verdict, rd s CUP_IMG_PROG])) ∧
      (serving s = true → 1 ≤ count → count ≤ 16 → first + count ≤ hlogSize →
        exec (.hlogRead src true tag first count) s = .next (respond s src tag 0x30 0 ((List.range count).flatMap (fun i =>
          (s.hlog.entries.getD (first + i) (List.replicate 16 0)).map (·.toNat))))))

/-- ORDER (R458). Each action is refused where it does not apply to its unit; at the unit's boundary it has its effect at
once, is recorded by 0x0904 and answered done; before the boundary it is left pending, recorded by 0x0903 and answered
so; a pending order acts at the boundary. -/
def Obligations.OrdersActAtBoundaries : Prop :=
  ∀ (src : Src) (tag u : Nat) (s : State), s.mode = .ready →
    (∀ e ∈ [(1, Instr.orderStop src true tag u), (2, .orderResume src true tag u), (3, .orderDisableContext src true tag u),
        (4, .orderMove src true tag u), (5, .orderDisableGroup src true tag u), (6, .orderRetrain src true tag u),
        (7, .orderDown src true tag u), (8, .orderUp src true tag u), (9, .orderCut src true tag u)],
      frameArrives s src = true → orderUnit e.1 u = true → spGet s.cup.orders u 0 = 0 →
      (orderApplies s u e.1 = false → exec e.2 s = .next (respond s src tag 0x11 1 [])) ∧
      (orderApplies s u e.1 = true → orderBoundary s u e.1 = true → ∀ w, w = orderAct s src u e.1 →
        exec e.2 s = .next (respond (logSrc (setUnit w u 0 (unitState w u)) 0x0904 src [u, e.1]) src tag 0x11 0 [])) ∧
      (orderApplies s u e.1 = true → orderBoundary s u e.1 = false →
        exec e.2 s = .next (respond (logSrc (setUnit s u e.1 (spGet s.cup.units u (0, 0)).1) 0x0903 src [u, e.1]) src tag
          0x11 3 []))) ∧
    (∀ a, spGet s.cup.orders u 0 = a → a ≠ 0 → orderApplies s u a = true →
      (orderBoundary s u a = false → exec (.orderApply u) s = .next s) ∧
      (orderBoundary s u a = true → ∀ w, w = orderAct s .cupola u a →
        exec (.orderApply u) s = .next (logCup (setUnit w u 0 (unitState w u)) 0x0904 [u, a])))

/-- Delivery of an image (R438), the key fuses (R431) and the NVM. BEGIN empties the staging area, DATA writes into it, END
gives a verdict and programs a valid image in every mode but cold-shut; FUSE_KEY works once; a finished programming
leaves the image in the NVM. -/
def Obligations.ImageDelivery : Prop :=
  ∀ (src : Src) (tag len off : Nat) (program require : Bool) (data hash : List Byte) (c : ColdStart) (s : State),
    frameArrives s src = true → s.mode = .ready →
    (len ≤ 0x1000000 → ∃ u, exec (.imageBegin src true tag len program) s = .next u ∧
      u.cup.deliver = some (len, program) ∧ u.cup.staged = [] ∧ u.cup.got = 0 ∧ u.cup.verdict = 0 ∧ u.regs = s.regs ∧
      u.mem = s.mem) ∧
    (0x1000000 < len → exec (.imageBegin src true tag len program) s = .next (respond s src tag 0x20 1 [])) ∧
    (s.cup.deliver = some (len, program) → 1 ≤ data.length → data.length ≤ 1024 → off + data.length ≤ len →
      ∃ u, exec (.imageData src true tag off data) s = .next u ∧ u.cup.got = s.cup.got + data.length ∧
        u.cup.staged = stageBytes s.cup.staged off data ∧ u.regs = s.regs ∧ u.mem = s.mem) ∧
    (s.cup.deliver = none → exec (.imageEnd src true tag c) s = .next (respond s src tag 0x22 1 [])) ∧
    (∀ n, s.cup.deliver = some (len, program) →
      coldVerdict s (fun i => (spGet s.cup.staged i 0#8).toNat) len = n →
      ∃ u, exec (.imageEnd src true tag c) s = .next (if n = 0 then beginProgram u len else u) ∧
        recordsOnly (s.withCup { s.cup with deliver := none, verdict := n }) u) ∧
    (s.cup.fused = false → hash.length = 48 → ∃ u, exec (.fuseKey src true tag hash require) s = .next u ∧
      recordsOnly (s.withCup { s.cup with fused := true, fuseHash := hash, require := require }) u) ∧
    (s.cup.fused = true → exec (.fuseKey src true tag hash require) s = .next (respond s src tag 0x24 1 [])) ∧
    (∀ img, s.cup.program = some (img, len) →
      ∃ u w, exec (.nvmProgramDone []) s = .next w ∧ recordsOnly u w ∧ u.cup.program = none ∧
        rd u CUP_IMG_PROG = len % 2 ^ 32 ∧ u.mem = s.mem)

/-- The Heat Log's commands. A refill adds one token to every bucket that is not full, and changes nothing else (R467);
CLEAR empties the log at once and notes its source and what it cleared, and a second one is discarded (R468); the end of
the clear writes the 0x0806 entry first (R468). -/
def Obligations.HeatLogCommands : Prop :=
  ∀ (src : Src) (s : State),
    (s.hlog.refillAt ≤ tickNow s → spRising s.hlog.tokens = true → (∀ e ∈ s.hlog.tokens, e.2 < 16) →
      ∃ u, exec .hlogTokenRefill s = .next u ∧ u = { s with hlog := u.hlog } ∧
        (∀ code, spGet u.hlog.tokens code 16 = min 16 (spGet s.hlog.tokens code 16 + 1)) ∧
        u.hlog.refillAt = s.hlog.refillAt + 6250 ∧ u.hlog.entries = s.hlog.entries) ∧
    (tickNow s < s.hlog.refillAt → exec .hlogTokenRefill s = .next s) ∧
    (s.mode = .ready → s.hlog.clearing = none →
      exec (.hlgClear src) s = .next (logAccepted (clearLog s src) src 0 HLG_CTRL (rd s HLG_CTRL + 1)) ∧
      (clearLog s src).hlog.entries = [] ∧ (clearLog s src).hlog.clearing = some (src, s.hlog.entries.length, tickNow s)) ∧
    (s.mode = .ready → s.hlog.clearing ≠ none → ∃ u, exec (.hlgClear src) s = .next u ∧ recordsOnly s u ∧
      u.hlog.clearing = s.hlog.clearing) ∧
    (∀ who n t, s.hlog.clearing = some (who, n, t) → s.hlog.waiting = [] →
      ∃ u, exec .hlogClearEnd s = .next u ∧ recordsOnly s u ∧ u.hlog.clearing = none ∧
        u.hlog.firstSeq = s.hlog.nextSeq) ∧
    (s.hlog.clearing = none → exec .hlogClearEnd s = .next s)

/-- The meters (R461 to R463, R471). MAP_GO applies both values at once, advances the generation, and leaves an armed
boundary as it is; a boundary at or before the last closed one is refused, one in the future is armed, and another
closes the interval late at the current tick; an armed boundary closes the interval at its tick. -/
def Obligations.MeterCommands : Prop :=
  ∀ (src : Src) (v : Word) (s : State), s.mode = .ready →
    (∃ u, exec (.mtrMapGo src) s = .next u ∧ u.meters.mapTick = rd64 s MTR_MAP_TICK_LO ∧
      u.meters.mapWall = rd64 s MTR_MAP_WALL_LO ∧ rd u MTR_MAP_GEN = (rd s MTR_MAP_GEN + 1) % 2 ^ 32 ∧
      u.meters.armed = s.meters.armed ∧ u.mem = s.mem) ∧
    (∀ w b, w = rd64 s MTR_CLOSE_WALL_LO → b = boundary s.meters.mapTick s.meters.mapWall w →
      (b ≤ rd64 s MTR_LAST_CLOSED_LO → ∃ u, exec (.mtrCloseGo src) s = .next u ∧
        recordsOnly (s.withMeters { s.meters with refused := true }) u) ∧
      (rd64 s MTR_LAST_CLOSED_LO < b → tickNow s < b → ∃ u, exec (.mtrCloseGo src) s = .next u ∧
        u.meters.refused = false ∧ u.meters.armed = some (b.toNat, w, rd s MTR_MAP_GEN) ∧
        rd u MTR_SEQ = rd s MTR_SEQ) ∧
      (rd64 s MTR_LAST_CLOSED_LO < b → b ≤ tickNow s → (2 ^ 32 + rd s MTR_SEQ - rd s MTR_ACK) % 2 ^ 32 < 64 →
        ∃ u, exec (.mtrCloseGo src) s = .next u ∧ rd64 u MTR_LAST_CLOSED_LO = tickNow s % 2 ^ 64 ∧
          rd u MTR_SEQ = (rd s MTR_SEQ + 1) % 2 ^ 32 ∧ u.meters.armed = none)) ∧
    (∀ b w g, s.meters.armed = some (b, w, g) →
      (tickNow s < b → exec .mtrIntervalClose s = .next s) ∧
      (b ≤ tickNow s → (2 ^ 32 + rd s MTR_SEQ - rd s MTR_ACK) % 2 ^ 32 < 64 →
        ∃ u, exec .mtrIntervalClose s = .next u ∧ rd64 u MTR_LAST_CLOSED_LO = b % 2 ^ 64 ∧
          rd u MTR_SEQ = (rd s MTR_SEQ + 1) % 2 ^ 32 ∧ u.meters.start = b) ∧
      (b ≤ tickNow s → 64 ≤ (2 ^ 32 + rd s MTR_SEQ - rd s MTR_ACK) % 2 ^ 32 →
        ∃ u, exec .mtrIntervalClose s = .next u ∧ rd u MTR_SEQ = rd s MTR_SEQ ∧ u.meters.start = s.meters.start)) ∧
    (rd s MTR_ACK ≠ v.toNat →
      ∃ u, exec (.mtrAckWrite src v) s = .next u ∧ recordsOnly (setReg s MTR_ACK v.toNat) u) ∧
    (s.meters.rangeAt ≤ tickNow s → (∀ x < 16, ctxState s x = 0) → exec .mtrRangeTick s =
      .next (s.withMeters { s.meters with rangeAt := s.meters.rangeAt + 100000 }))

/-- The module's supply and pins (R475, R477, R484 to R487, R490, R491, R494, Table 13.2): what each event does to the rails
and to the aux domain. Where the main domain is held, an event leaves no record. -/
def Obligations.ModuleSupply : Prop :=
  ∀ (mV : Int) (amps sensor temp low line : Nat) (cool : Bool) (s : State),
    (48000 ≤ mV → mV ≤ 58000 → s.module_.cut = false → s.module_.aux = true →
      ∃ u, exec (.inputVoltageChange mV amps) s = .next u ∧ u.module_.vin = mV ∧ u.module_.iin = amps ∧ u.module_.aux = true ∧
        u.module_.sagging = none ∧ u.regs = s.regs ∧ u.mem = s.mem ∧ (s.module_.rails = true → u.module_.rails = true)) ∧
    (60000 < mV → s.module_.cut = false → ∃ u, exec (.inputVoltageChange mV amps) s = .next u ∧
      u.module_.cut = true ∧ u.module_.aux = false ∧ u.module_.rails = false ∧ rd u CUP_MOD_LAST_OFF = 3) ∧
    (mV < 36000 → s.module_.cut = false → s.module_.aux = true → ∃ u, exec (.inputVoltageChange mV amps) s = .next u ∧
      u.module_.aux = false ∧ u.module_.rails = false ∧ u.regs = [] ∧ u.mem = []) ∧
    (∀ t, s.module_.below58 = some t → s.module_.cut = true → t + 10000000 ≤ s.module_.now →
      ∃ u, exec .overVoltageReconnect s = .next u ∧ u.module_.cut = false ∧ u.regs = s.regs) ∧
    (∀ t, s.module_.sagging = some t → s.module_.rails = true → t + 100000 ≤ s.module_.now →
      ∃ u, exec .mainRailHoldExpiry s = .next u ∧ u.module_.rails = false ∧ u.module_.needCycle = true ∧
        rd u CUP_MOD_LAST_OFF = 2 ∧ u.mode = .held) ∧
    (s.module_.pwrEn = false → s.module_.aux = true → 46000 ≤ s.module_.vin → s.module_.thermal = false →
      ∃ u, exec (.pwrEnAssert cool) s = .next u ∧ u.module_.rails = true ∧ u.module_.pwrEn = true ∧
        u.module_.needCycle = false ∧ u.regs = s.regs) ∧
    (s.module_.pwrEn = true → s.module_.rails = true → ∃ u, exec .pwrEnDeassert s = .next u ∧ u.module_.rails = false ∧
      u.module_.pwrEn = false ∧ rd u CUP_MOD_LAST_OFF = 1 ∧ u.mode = .held ∧ u.mem = [] ∧ u.spad = [] ∧ u.queues = []) ∧
    (∃ u, exec .modRstNAssert s = .next u ∧ u.mode = .held ∧ u.module_.rstHeld = true ∧
      u.module_.rails = s.module_.rails ∧ u.queues = [] ∧ u.pending = s.pending) ∧
    (s.module_.rails = true → ∃ u, exec (.thermalTrip sensor temp) s = .next u ∧ u.module_.rails = false ∧
      u.module_.thermal = true ∧ u.module_.needCycle = true ∧ rd u CUP_MOD_LAST_OFF = 4) ∧
    (s.module_.rails = false → exec (.thermalTrip sensor temp) s = .next s) ∧
    (s.module_.aux = true → ∃ u, exec (.statusPinReadback low) s = .next u ∧
      ∀ i < 6, bit u.module_.shorts i = (if bit (pinsLow s) i then bit s.module_.shorts i else bit low i)) ∧
    (s.module_.i3cOff = none → s.module_.aux = true → ∃ u, exec (.i3cLineHeldLow line) s = .next u ∧
      recordsOnly (s.withModule { s.module_ with i3cOff := some (s.module_.now, line) }) u) ∧
    (∀ t, s.module_.i3cOff = some (t, line) → ∃ u, exec .i3cLinesReleased s = .next u ∧
      recordsOnly (s.withModule { s.module_ with i3cOff := none }) u)

/-- PCIe reset, monitors and clocks (R480, R481, R487). PERST_N resets the PCIe side alone; a monitor quench is counted and,
unless it is the third within the limit, begins a quench of cause 5 without a shakeout; a rail fault of the aux rail
resets the aux registers alone; the reference clock's holdover is entered once and left again. -/
def Obligations.ModuleMonitors : Prop :=
  ∀ (rail measured width rate pll cause : Nat) (s : State),
    (s.module_.pcieUp = false → ∃ u, exec .perstN s = .next u ∧ u = { s with bar4 := [] } ∧ ∀ o, reg u o = reg s o) ∧
    (s.module_.pcieUp = true → ∃ u, exec .perstN s = .next u ∧ u.module_.pcieUp = false ∧
      u.mode = s.mode ∧ u.mem = s.mem ∧ u.queues = s.queues ∧ u.sprues = s.sprues) ∧
    (s.module_.pcieUp = false → serving s = true → ∃ u, exec (.pcieLinkUp width rate) s = .next u ∧
      u.module_.pcieUp = true ∧ u.mode = s.mode ∧ u.mem = s.mem) ∧
    (s.mode = .ready → rail ≠ 9 → repeatedTrip ((s.module_.trips ++ [(s.module_.now, rail)]).drop
        (s.module_.trips.length - 2)) = none →
      ∃ w, exec (.railFault rail measured) s = .next (beginQuench w 5 ((s.cup.quench.map (·.profile)).getD s.cup.profile)
        false .cupola) ∧ rd64 w CUP_MOD_MONQ_CNT_LO = (rd64 s CUP_MOD_MONQ_CNT_LO + 1) % 2 ^ 64) ∧
    (exec (.railFault 9 measured) s = .next ((s.withRegs (s.regs.filter (fun e =>
      !(e.1 == CUP_MOD_LAST_OFF || e.1 == CUP_MOD_SAG_CNT_LO || e.1 == CUP_MOD_SAG_CNT_HI)))).withModule
        { s.module_ with latched := [] })) ∧
    (exec (.pllLockLoss pll) s = .next (monitorQuench (drawNat s).2 pll (drawNat s).1)) ∧
    (s.module_.holdover = none → s.module_.rails = true → ∃ u, exec (.refclkFault cause) s = .next u ∧
      recordsOnly (s.withModule { s.module_ with holdover := some (s.module_.now, cause) }) u) ∧
    (s.module_.holdover ≠ none → exec (.refclkFault cause) s = .next s) ∧
    (∀ t, s.module_.holdover = some (t, cause) → ∃ u, exec .refclkRestored s = .next u ∧
      recordsOnly (s.withModule { s.module_ with holdover := none }) u)

/-- The test access port (R493). BYPASS, IDCODE and SAMPLE change nothing; EXTEST, CLAMP and private debug act only while
MOD_RST_N is asserted or JTAG_EN is set, and else are taken as BYPASS with the attempt recorded; what a private debug
instruction does then is not stated, and the model stops there (the fault privateDebug). -/
def Obligations.JtagInstructions : Prop :=
  ∀ (kind : Nat) (s : State),
    (kind < 3 → exec (.jtagInstruction kind) s = .next s) ∧
    (3 ≤ kind → s.module_.rstHeld = false → bit (rd s CUP_MOD_CTRL) 0 = false →
      ∃ u, exec (.jtagInstruction kind) s = .next u ∧ recordsOnly s u) ∧
    (3 ≤ kind → kind < 5 → s.module_.rstHeld = true ∨ bit (rd s CUP_MOD_CTRL) 0 = true →
      exec (.jtagInstruction kind) s = .next s) ∧
    (5 ≤ kind → s.module_.rstHeld = true ∨ bit (rd s CUP_MOD_CTRL) 0 = true →
      exec (.jtagInstruction kind) s = .fault .privateDebug)

/-- Each source has one high-half latch: a 4-byte read of a counter's low half stores the high half of that cycle in it, the
next 4-byte read of a high half by the same source gives the latched half if the pair is the same one and clears the latch
whichever pair it names, and no other source's latch is touched; an 8-byte read gives both halves and leaves every latch
(R503, R502). -/
def Obligations.CounterLatches : Prop :=
  (∀ a b : Src, latchKey a = latchKey b → a = b) ∧
  ∀ (src : Src) (lo hi : Nat) (s : State), s.mode = .ready → lo % 8 = 0 → hi % 8 = 4 →
    pairOf lo = some lo → pairOf hi = some (hi - 4) →
    (∃ u, exec (.counterLoRead src lo) s = .next u ∧
      u = emit { s with latches := u.latches } (.readData src (regValue s lo) 4 false) ∧
      u.latches.find? (fun e => e.1 == latchKey src) = some (latchKey src, lo, BitVec.ofNat 32 (regValue s (lo + 4))) ∧
      (∀ k, k ≠ latchKey src → u.latches.find? (fun e => e.1 == k) = s.latches.find? (fun e => e.1 == k))) ∧
    (∃ u, exec (.counterHiRead src hi) s = .next u ∧
      u = emit { s with latches := u.latches } (.readData src
        (match s.latches.find? (fun e => e.1 == latchKey src) with
          | some e => if e.2.1 = hi - 4 then e.2.2.toNat else regValue s hi
          | none => regValue s hi) 4 false) ∧
      u.latches.find? (fun e => e.1 == latchKey src) = none ∧
      (∀ k, k ≠ latchKey src → u.latches.find? (fun e => e.1 == k) = s.latches.find? (fun e => e.1 == k))) ∧
    exec (.counterPairRead src lo) s =
      .next (emit s (.readData src (regValue s lo + 2 ^ 32 * regValue s (lo + 4)) 8 false))

/-- Accesses to the register space and to device memory (R498, R502, R511, R512). A write that is narrow or unaligned, or
outside every block, is discarded and recorded; another is made word by word; a BAR2 access to an unmapped extent is an
Unsupported Request recorded with reason 9, and one to mapped memory reads or writes at GLB_BAR2_BASE × 2^30 + o. -/
def Obligations.RegisterAccesses : Prop :=
  ∀ (src : Src) (off width n v : Nat) (b : Word) (data : List (Option Byte)) (s : State), s.mode = .ready →
    (s.calm → blockRows off = none ∨ width < 4 ∨ off % accessAlign width ≠ 0 →
      ∃ u, exec (.registerWrite src false off width v) s = .next u ∧ recordsOnly s u) ∧
    (blockRows off ≠ none → off % 4 = 0 → (regWrite s src off (v % 2 ^ 32)).calm →
      exec (.registerWrite src false off 4 v) s = .next (regWrite s src off (v % 2 ^ 32))) ∧
    (exec (.rcRead src off) s = .next (emit (regRead s src off 4).1 (.readData src (regRead s src off 4).2 4 false))) ∧
    (hostMapped s (2 ^ 30 * bits (rd s GLB_BAR2_BASE) 0 18 + off % 2 ^ 38) n = false →
      ∃ u, exec (.bar2Read off n) s = .next u ∧ recordsOnly s u) ∧
    (∀ u, hostMapped s (bar2Addr s off) n = true → u = hostRead s .pcie 0 (bar2Addr s off) n → u.calm →
      exec (.bar2Read off n) s = .next u) ∧
    (hostMapped s (bar2Addr s off) data.length = false → ∃ u, exec (.bar2Write off data) s = .next u ∧ recordsOnly s u) ∧
    (∀ u, hostMapped s (bar2Addr s off) data.length = true → memoryBarred s (bar2Addr s off) data.length = none →
      u = (enabledRuns 0 data).foldl (fun st r => hostWrite st .pcie (bar2Addr s off + r.1) r.2) s → u.calm →
      exec (.bar2Write off data) s = .next u) ∧
    (rd s GLB_BAR2_BASE ≠ b.toNat % 2 ^ 18 → ∃ u, exec (.glbBar2BaseWrite src b) s = .next u ∧
      recordsOnly (setReg s GLB_BAR2_BASE (b.toNat % 2 ^ 18)) u)

/-- A signal to a crucible semaphore adds its value. An addition that would pass 0xFFFF_FFFF sets the semaphore to
0xFFFF_FFFF, counts CRU_SEMSAT_CNT of its crucible and records event 0x0210; a smaller one gives the sum, and neither
changes another register (R115). -/
def Obligations.SemaphoreAdditions : Prop :=
  ∀ (c x sem n p item : Nat) (s : State), c < 256 → x < 16 → sem < 64 → p < 264 →
    (rd s (CRU_SEM c x sem) + n < 2 ^ 32 → rd (semAdd s c x sem n p item) (CRU_SEM c x sem) = rd s (CRU_SEM c x sem) + n ∧
      ∀ o, o ≠ CRU_SEM c x sem → rd (semAdd s c x sem n p item) o = rd s o) ∧
    (2 ^ 32 ≤ rd s (CRU_SEM c x sem) + n →
      rd (semAdd s c x sem n p item) (CRU_SEM c x sem) = 0xFFFFFFFF ∧
      rd64 (semAdd s c x sem n p item) (gateCnt p 10) = (rd64 s (gateCnt p 10) + 1) % 2 ^ 64 ∧
      (∀ o, logReg o = false → o ≠ CRU_SEM c x sem → o ≠ gateCnt p 10 → o ≠ gateCnt p 10 + 4 →
        rd (semAdd s c x sem n p item) o = rd s o) ∧
      ∃ u, semAdd s c x sem n p item = logCtx u 0x0210 (16 + c) x 0 [c, x, sem, item])

/-- K4i elements (R24). A code is a 4-bit two's-complement integer from −7 to +7; code 1000 reads as zero and counts one
invalid code, and only it; the conversion to K4i never writes it, whatever the block, the scale and the rounding. -/
def Obligations.K4iElements : Prop :=
  (∀ n ≤ 7, elemValue .k4i n = (.fin false n 0, false)) ∧
  (∀ n, 1 ≤ n → n ≤ 7 → elemValue .k4i (16 - n) = (.fin true n 0, false)) ∧
  (elemValue .k4i 8 = (.fin false 0 0, true)) ∧
  (∀ (scale : Nat) (codes : List Nat), (decodeBlock .k4i scale codes).2 = codes.countP (fun c => c % 16 == 8)) ∧
  (∀ (o : BlockOpts) (rnd : Nat → Rounding) (xs : List Fp), ∀ c ∈ (convBlock .k4i o rnd xs).2.1, c < 16 ∧ c ≠ 8)
end

