-- ==== Sys2Proof/Laws/State.lean ====
section
/-! SUPPORT. One fact for each field of the state under each named update: an update changes its own field alone. -/
namespace Sys2Proof.Machine

@[simp] theorem State.withRegs_pending (s : State) (r : Sparse Word) : (s.withRegs r).pending = s.pending := rfl
@[simp] theorem State.withRegs_clock (s : State) (r : Sparse Word) : (s.withRegs r).clock = s.clock := rfl
@[simp] theorem State.withRegs_regs (s : State) (r : Sparse Word) : (s.withRegs r).regs = r := rfl
@[simp] theorem State.withRegs_mem (s : State) (r : Sparse Word) : (s.withRegs r).mem = s.mem := rfl
@[simp] theorem State.withRegs_spad (s : State) (r : Sparse Word) : (s.withRegs r).spad = s.spad := rfl
@[simp] theorem State.withRegs_tags (s : State) (r : Sparse Word) : (s.withRegs r).tags = s.tags := rfl
@[simp] theorem State.withRegs_poison (s : State) (r : Sparse Word) : (s.withRegs r).poison = s.poison := rfl
@[simp] theorem State.withRegs_hlog (s : State) (r : Sparse Word) : (s.withRegs r).hlog = s.hlog := rfl
@[simp] theorem State.withRegs_queues (s : State) (r : Sparse Word) : (s.withRegs r).queues = s.queues := rfl
@[simp] theorem State.withRegs_arrays (s : State) (r : Sparse Word) : (s.withRegs r).arrays = s.arrays := rfl
@[simp] theorem State.withRegs_crus (s : State) (r : Sparse Word) : (s.withRegs r).crus = s.crus := rfl
@[simp] theorem State.withRegs_physMap (s : State) (r : Sparse Word) : (s.withRegs r).physMap = s.physMap := rfl
@[simp] theorem State.withRegs_ladle (s : State) (r : Sparse Word) : (s.withRegs r).ladle = s.ladle := rfl
@[simp] theorem State.withRegs_alloy (s : State) (r : Sparse Word) : (s.withRegs r).alloy = s.alloy := rfl
@[simp] theorem State.withRegs_sprues (s : State) (r : Sparse Word) : (s.withRegs r).sprues = s.sprues := rfl
@[simp] theorem State.withRegs_tnd (s : State) (r : Sparse Word) : (s.withRegs r).tnd = s.tnd := rfl
@[simp] theorem State.withRegs_integ (s : State) (r : Sparse Word) : (s.withRegs r).integ = s.integ := rfl
@[simp] theorem State.withRegs_flask (s : State) (r : Sparse Word) : (s.withRegs r).flask = s.flask := rfl
@[simp] theorem State.withRegs_ingot (s : State) (r : Sparse Word) : (s.withRegs r).ingot = s.ingot := rfl
@[simp] theorem State.withRegs_cup (s : State) (r : Sparse Word) : (s.withRegs r).cup = s.cup := rfl
@[simp] theorem State.withRegs_meters (s : State) (r : Sparse Word) : (s.withRegs r).meters = s.meters := rfl
@[simp] theorem State.withRegs_mode (s : State) (r : Sparse Word) : (s.withRegs r).mode = s.mode := rfl
@[simp] theorem State.withRegs_module_ (s : State) (r : Sparse Word) : (s.withRegs r).module_ = s.module_ := rfl
@[simp] theorem State.withRegs_bar4 (s : State) (r : Sparse Word) : (s.withRegs r).bar4 = s.bar4 := rfl
@[simp] theorem State.withRegs_latches (s : State) (r : Sparse Word) : (s.withRegs r).latches = s.latches := rfl
@[simp] theorem State.withRegs_draws (s : State) (r : Sparse Word) : (s.withRegs r).draws = s.draws := rfl
@[simp] theorem State.withRegs_out (s : State) (r : Sparse Word) : (s.withRegs r).out = s.out := rfl

@[simp] theorem State.withMem_pending (s : State) (m : List Host.Cell) : (s.withMem m).pending = s.pending := rfl
@[simp] theorem State.withMem_clock (s : State) (m : List Host.Cell) : (s.withMem m).clock = s.clock := rfl
@[simp] theorem State.withMem_regs (s : State) (m : List Host.Cell) : (s.withMem m).regs = s.regs := rfl
@[simp] theorem State.withMem_mem (s : State) (m : List Host.Cell) : (s.withMem m).mem = m := rfl
@[simp] theorem State.withMem_spad (s : State) (m : List Host.Cell) : (s.withMem m).spad = s.spad := rfl
@[simp] theorem State.withMem_tags (s : State) (m : List Host.Cell) : (s.withMem m).tags = s.tags := rfl
@[simp] theorem State.withMem_poison (s : State) (m : List Host.Cell) : (s.withMem m).poison = s.poison := rfl
@[simp] theorem State.withMem_hlog (s : State) (m : List Host.Cell) : (s.withMem m).hlog = s.hlog := rfl
@[simp] theorem State.withMem_queues (s : State) (m : List Host.Cell) : (s.withMem m).queues = s.queues := rfl
@[simp] theorem State.withMem_arrays (s : State) (m : List Host.Cell) : (s.withMem m).arrays = s.arrays := rfl
@[simp] theorem State.withMem_crus (s : State) (m : List Host.Cell) : (s.withMem m).crus = s.crus := rfl
@[simp] theorem State.withMem_physMap (s : State) (m : List Host.Cell) : (s.withMem m).physMap = s.physMap := rfl
@[simp] theorem State.withMem_ladle (s : State) (m : List Host.Cell) : (s.withMem m).ladle = s.ladle := rfl
@[simp] theorem State.withMem_alloy (s : State) (m : List Host.Cell) : (s.withMem m).alloy = s.alloy := rfl
@[simp] theorem State.withMem_sprues (s : State) (m : List Host.Cell) : (s.withMem m).sprues = s.sprues := rfl
@[simp] theorem State.withMem_tnd (s : State) (m : List Host.Cell) : (s.withMem m).tnd = s.tnd := rfl
@[simp] theorem State.withMem_integ (s : State) (m : List Host.Cell) : (s.withMem m).integ = s.integ := rfl
@[simp] theorem State.withMem_flask (s : State) (m : List Host.Cell) : (s.withMem m).flask = s.flask := rfl
@[simp] theorem State.withMem_ingot (s : State) (m : List Host.Cell) : (s.withMem m).ingot = s.ingot := rfl
@[simp] theorem State.withMem_cup (s : State) (m : List Host.Cell) : (s.withMem m).cup = s.cup := rfl
@[simp] theorem State.withMem_meters (s : State) (m : List Host.Cell) : (s.withMem m).meters = s.meters := rfl
@[simp] theorem State.withMem_mode (s : State) (m : List Host.Cell) : (s.withMem m).mode = s.mode := rfl
@[simp] theorem State.withMem_module_ (s : State) (m : List Host.Cell) : (s.withMem m).module_ = s.module_ := rfl
@[simp] theorem State.withMem_bar4 (s : State) (m : List Host.Cell) : (s.withMem m).bar4 = s.bar4 := rfl
@[simp] theorem State.withMem_latches (s : State) (m : List Host.Cell) : (s.withMem m).latches = s.latches := rfl
@[simp] theorem State.withMem_draws (s : State) (m : List Host.Cell) : (s.withMem m).draws = s.draws := rfl
@[simp] theorem State.withMem_out (s : State) (m : List Host.Cell) : (s.withMem m).out = s.out := rfl

@[simp] theorem State.withSpad_pending (s : State) (m : List Host.Cell) : (s.withSpad m).pending = s.pending := rfl
@[simp] theorem State.withSpad_clock (s : State) (m : List Host.Cell) : (s.withSpad m).clock = s.clock := rfl
@[simp] theorem State.withSpad_regs (s : State) (m : List Host.Cell) : (s.withSpad m).regs = s.regs := rfl
@[simp] theorem State.withSpad_mem (s : State) (m : List Host.Cell) : (s.withSpad m).mem = s.mem := rfl
@[simp] theorem State.withSpad_spad (s : State) (m : List Host.Cell) : (s.withSpad m).spad = m := rfl
@[simp] theorem State.withSpad_tags (s : State) (m : List Host.Cell) : (s.withSpad m).tags = s.tags := rfl
@[simp] theorem State.withSpad_poison (s : State) (m : List Host.Cell) : (s.withSpad m).poison = s.poison := rfl
@[simp] theorem State.withSpad_hlog (s : State) (m : List Host.Cell) : (s.withSpad m).hlog = s.hlog := rfl
@[simp] theorem State.withSpad_queues (s : State) (m : List Host.Cell) : (s.withSpad m).queues = s.queues := rfl
@[simp] theorem State.withSpad_arrays (s : State) (m : List Host.Cell) : (s.withSpad m).arrays = s.arrays := rfl
@[simp] theorem State.withSpad_crus (s : State) (m : List Host.Cell) : (s.withSpad m).crus = s.crus := rfl
@[simp] theorem State.withSpad_physMap (s : State) (m : List Host.Cell) : (s.withSpad m).physMap = s.physMap := rfl
@[simp] theorem State.withSpad_ladle (s : State) (m : List Host.Cell) : (s.withSpad m).ladle = s.ladle := rfl
@[simp] theorem State.withSpad_alloy (s : State) (m : List Host.Cell) : (s.withSpad m).alloy = s.alloy := rfl
@[simp] theorem State.withSpad_sprues (s : State) (m : List Host.Cell) : (s.withSpad m).sprues = s.sprues := rfl
@[simp] theorem State.withSpad_tnd (s : State) (m : List Host.Cell) : (s.withSpad m).tnd = s.tnd := rfl
@[simp] theorem State.withSpad_integ (s : State) (m : List Host.Cell) : (s.withSpad m).integ = s.integ := rfl
@[simp] theorem State.withSpad_flask (s : State) (m : List Host.Cell) : (s.withSpad m).flask = s.flask := rfl
@[simp] theorem State.withSpad_ingot (s : State) (m : List Host.Cell) : (s.withSpad m).ingot = s.ingot := rfl
@[simp] theorem State.withSpad_cup (s : State) (m : List Host.Cell) : (s.withSpad m).cup = s.cup := rfl
@[simp] theorem State.withSpad_meters (s : State) (m : List Host.Cell) : (s.withSpad m).meters = s.meters := rfl
@[simp] theorem State.withSpad_mode (s : State) (m : List Host.Cell) : (s.withSpad m).mode = s.mode := rfl
@[simp] theorem State.withSpad_module_ (s : State) (m : List Host.Cell) : (s.withSpad m).module_ = s.module_ := rfl
@[simp] theorem State.withSpad_bar4 (s : State) (m : List Host.Cell) : (s.withSpad m).bar4 = s.bar4 := rfl
@[simp] theorem State.withSpad_latches (s : State) (m : List Host.Cell) : (s.withSpad m).latches = s.latches := rfl
@[simp] theorem State.withSpad_draws (s : State) (m : List Host.Cell) : (s.withSpad m).draws = s.draws := rfl
@[simp] theorem State.withSpad_out (s : State) (m : List Host.Cell) : (s.withSpad m).out = s.out := rfl

@[simp] theorem State.withTnd_pending (s : State) (t : Tundish) : (s.withTnd t).pending = s.pending := rfl
@[simp] theorem State.withTnd_clock (s : State) (t : Tundish) : (s.withTnd t).clock = s.clock := rfl
@[simp] theorem State.withTnd_regs (s : State) (t : Tundish) : (s.withTnd t).regs = s.regs := rfl
@[simp] theorem State.withTnd_mem (s : State) (t : Tundish) : (s.withTnd t).mem = s.mem := rfl
@[simp] theorem State.withTnd_spad (s : State) (t : Tundish) : (s.withTnd t).spad = s.spad := rfl
@[simp] theorem State.withTnd_tags (s : State) (t : Tundish) : (s.withTnd t).tags = s.tags := rfl
@[simp] theorem State.withTnd_poison (s : State) (t : Tundish) : (s.withTnd t).poison = s.poison := rfl
@[simp] theorem State.withTnd_hlog (s : State) (t : Tundish) : (s.withTnd t).hlog = s.hlog := rfl
@[simp] theorem State.withTnd_queues (s : State) (t : Tundish) : (s.withTnd t).queues = s.queues := rfl
@[simp] theorem State.withTnd_arrays (s : State) (t : Tundish) : (s.withTnd t).arrays = s.arrays := rfl
@[simp] theorem State.withTnd_crus (s : State) (t : Tundish) : (s.withTnd t).crus = s.crus := rfl
@[simp] theorem State.withTnd_physMap (s : State) (t : Tundish) : (s.withTnd t).physMap = s.physMap := rfl
@[simp] theorem State.withTnd_ladle (s : State) (t : Tundish) : (s.withTnd t).ladle = s.ladle := rfl
@[simp] theorem State.withTnd_alloy (s : State) (t : Tundish) : (s.withTnd t).alloy = s.alloy := rfl
@[simp] theorem State.withTnd_sprues (s : State) (t : Tundish) : (s.withTnd t).sprues = s.sprues := rfl
@[simp] theorem State.withTnd_tnd (s : State) (t : Tundish) : (s.withTnd t).tnd = t := rfl
@[simp] theorem State.withTnd_integ (s : State) (t : Tundish) : (s.withTnd t).integ = s.integ := rfl
@[simp] theorem State.withTnd_flask (s : State) (t : Tundish) : (s.withTnd t).flask = s.flask := rfl
@[simp] theorem State.withTnd_ingot (s : State) (t : Tundish) : (s.withTnd t).ingot = s.ingot := rfl
@[simp] theorem State.withTnd_cup (s : State) (t : Tundish) : (s.withTnd t).cup = s.cup := rfl
@[simp] theorem State.withTnd_meters (s : State) (t : Tundish) : (s.withTnd t).meters = s.meters := rfl
@[simp] theorem State.withTnd_mode (s : State) (t : Tundish) : (s.withTnd t).mode = s.mode := rfl
@[simp] theorem State.withTnd_module_ (s : State) (t : Tundish) : (s.withTnd t).module_ = s.module_ := rfl
@[simp] theorem State.withTnd_bar4 (s : State) (t : Tundish) : (s.withTnd t).bar4 = s.bar4 := rfl
@[simp] theorem State.withTnd_latches (s : State) (t : Tundish) : (s.withTnd t).latches = s.latches := rfl
@[simp] theorem State.withTnd_draws (s : State) (t : Tundish) : (s.withTnd t).draws = s.draws := rfl
@[simp] theorem State.withTnd_out (s : State) (t : Tundish) : (s.withTnd t).out = s.out := rfl

@[simp] theorem State.withInteg_pending (s : State) (i : Integ) : (s.withInteg i).pending = s.pending := rfl
@[simp] theorem State.withInteg_clock (s : State) (i : Integ) : (s.withInteg i).clock = s.clock := rfl
@[simp] theorem State.withInteg_regs (s : State) (i : Integ) : (s.withInteg i).regs = s.regs := rfl
@[simp] theorem State.withInteg_mem (s : State) (i : Integ) : (s.withInteg i).mem = s.mem := rfl
@[simp] theorem State.withInteg_spad (s : State) (i : Integ) : (s.withInteg i).spad = s.spad := rfl
@[simp] theorem State.withInteg_tags (s : State) (i : Integ) : (s.withInteg i).tags = s.tags := rfl
@[simp] theorem State.withInteg_poison (s : State) (i : Integ) : (s.withInteg i).poison = s.poison := rfl
@[simp] theorem State.withInteg_hlog (s : State) (i : Integ) : (s.withInteg i).hlog = s.hlog := rfl
@[simp] theorem State.withInteg_queues (s : State) (i : Integ) : (s.withInteg i).queues = s.queues := rfl
@[simp] theorem State.withInteg_arrays (s : State) (i : Integ) : (s.withInteg i).arrays = s.arrays := rfl
@[simp] theorem State.withInteg_crus (s : State) (i : Integ) : (s.withInteg i).crus = s.crus := rfl
@[simp] theorem State.withInteg_physMap (s : State) (i : Integ) : (s.withInteg i).physMap = s.physMap := rfl
@[simp] theorem State.withInteg_ladle (s : State) (i : Integ) : (s.withInteg i).ladle = s.ladle := rfl
@[simp] theorem State.withInteg_alloy (s : State) (i : Integ) : (s.withInteg i).alloy = s.alloy := rfl
@[simp] theorem State.withInteg_sprues (s : State) (i : Integ) : (s.withInteg i).sprues = s.sprues := rfl
@[simp] theorem State.withInteg_tnd (s : State) (i : Integ) : (s.withInteg i).tnd = s.tnd := rfl
@[simp] theorem State.withInteg_integ (s : State) (i : Integ) : (s.withInteg i).integ = i := rfl
@[simp] theorem State.withInteg_flask (s : State) (i : Integ) : (s.withInteg i).flask = s.flask := rfl
@[simp] theorem State.withInteg_ingot (s : State) (i : Integ) : (s.withInteg i).ingot = s.ingot := rfl
@[simp] theorem State.withInteg_cup (s : State) (i : Integ) : (s.withInteg i).cup = s.cup := rfl
@[simp] theorem State.withInteg_meters (s : State) (i : Integ) : (s.withInteg i).meters = s.meters := rfl
@[simp] theorem State.withInteg_mode (s : State) (i : Integ) : (s.withInteg i).mode = s.mode := rfl
@[simp] theorem State.withInteg_module_ (s : State) (i : Integ) : (s.withInteg i).module_ = s.module_ := rfl
@[simp] theorem State.withInteg_bar4 (s : State) (i : Integ) : (s.withInteg i).bar4 = s.bar4 := rfl
@[simp] theorem State.withInteg_latches (s : State) (i : Integ) : (s.withInteg i).latches = s.latches := rfl
@[simp] theorem State.withInteg_draws (s : State) (i : Integ) : (s.withInteg i).draws = s.draws := rfl
@[simp] theorem State.withInteg_out (s : State) (i : Integ) : (s.withInteg i).out = s.out := rfl

@[simp] theorem State.withCup_pending (s : State) (c : Cupola) : (s.withCup c).pending = s.pending := rfl
@[simp] theorem State.withCup_clock (s : State) (c : Cupola) : (s.withCup c).clock = s.clock := rfl
@[simp] theorem State.withCup_regs (s : State) (c : Cupola) : (s.withCup c).regs = s.regs := rfl
@[simp] theorem State.withCup_mem (s : State) (c : Cupola) : (s.withCup c).mem = s.mem := rfl
@[simp] theorem State.withCup_spad (s : State) (c : Cupola) : (s.withCup c).spad = s.spad := rfl
@[simp] theorem State.withCup_tags (s : State) (c : Cupola) : (s.withCup c).tags = s.tags := rfl
@[simp] theorem State.withCup_poison (s : State) (c : Cupola) : (s.withCup c).poison = s.poison := rfl
@[simp] theorem State.withCup_hlog (s : State) (c : Cupola) : (s.withCup c).hlog = s.hlog := rfl
@[simp] theorem State.withCup_queues (s : State) (c : Cupola) : (s.withCup c).queues = s.queues := rfl
@[simp] theorem State.withCup_arrays (s : State) (c : Cupola) : (s.withCup c).arrays = s.arrays := rfl
@[simp] theorem State.withCup_crus (s : State) (c : Cupola) : (s.withCup c).crus = s.crus := rfl
@[simp] theorem State.withCup_physMap (s : State) (c : Cupola) : (s.withCup c).physMap = s.physMap := rfl
@[simp] theorem State.withCup_ladle (s : State) (c : Cupola) : (s.withCup c).ladle = s.ladle := rfl
@[simp] theorem State.withCup_alloy (s : State) (c : Cupola) : (s.withCup c).alloy = s.alloy := rfl
@[simp] theorem State.withCup_sprues (s : State) (c : Cupola) : (s.withCup c).sprues = s.sprues := rfl
@[simp] theorem State.withCup_tnd (s : State) (c : Cupola) : (s.withCup c).tnd = s.tnd := rfl
@[simp] theorem State.withCup_integ (s : State) (c : Cupola) : (s.withCup c).integ = s.integ := rfl
@[simp] theorem State.withCup_flask (s : State) (c : Cupola) : (s.withCup c).flask = s.flask := rfl
@[simp] theorem State.withCup_ingot (s : State) (c : Cupola) : (s.withCup c).ingot = s.ingot := rfl
@[simp] theorem State.withCup_cup (s : State) (c : Cupola) : (s.withCup c).cup = c := rfl
@[simp] theorem State.withCup_meters (s : State) (c : Cupola) : (s.withCup c).meters = s.meters := rfl
@[simp] theorem State.withCup_mode (s : State) (c : Cupola) : (s.withCup c).mode = s.mode := rfl
@[simp] theorem State.withCup_module_ (s : State) (c : Cupola) : (s.withCup c).module_ = s.module_ := rfl
@[simp] theorem State.withCup_bar4 (s : State) (c : Cupola) : (s.withCup c).bar4 = s.bar4 := rfl
@[simp] theorem State.withCup_latches (s : State) (c : Cupola) : (s.withCup c).latches = s.latches := rfl
@[simp] theorem State.withCup_draws (s : State) (c : Cupola) : (s.withCup c).draws = s.draws := rfl
@[simp] theorem State.withCup_out (s : State) (c : Cupola) : (s.withCup c).out = s.out := rfl

@[simp] theorem State.withClock_pending (s : State) (c : Clock) : (s.withClock c).pending = s.pending := rfl
@[simp] theorem State.withClock_clock (s : State) (c : Clock) : (s.withClock c).clock = c := rfl
@[simp] theorem State.withClock_regs (s : State) (c : Clock) : (s.withClock c).regs = s.regs := rfl
@[simp] theorem State.withClock_mem (s : State) (c : Clock) : (s.withClock c).mem = s.mem := rfl
@[simp] theorem State.withClock_spad (s : State) (c : Clock) : (s.withClock c).spad = s.spad := rfl
@[simp] theorem State.withClock_tags (s : State) (c : Clock) : (s.withClock c).tags = s.tags := rfl
@[simp] theorem State.withClock_poison (s : State) (c : Clock) : (s.withClock c).poison = s.poison := rfl
@[simp] theorem State.withClock_hlog (s : State) (c : Clock) : (s.withClock c).hlog = s.hlog := rfl
@[simp] theorem State.withClock_queues (s : State) (c : Clock) : (s.withClock c).queues = s.queues := rfl
@[simp] theorem State.withClock_arrays (s : State) (c : Clock) : (s.withClock c).arrays = s.arrays := rfl
@[simp] theorem State.withClock_crus (s : State) (c : Clock) : (s.withClock c).crus = s.crus := rfl
@[simp] theorem State.withClock_physMap (s : State) (c : Clock) : (s.withClock c).physMap = s.physMap := rfl
@[simp] theorem State.withClock_ladle (s : State) (c : Clock) : (s.withClock c).ladle = s.ladle := rfl
@[simp] theorem State.withClock_alloy (s : State) (c : Clock) : (s.withClock c).alloy = s.alloy := rfl
@[simp] theorem State.withClock_sprues (s : State) (c : Clock) : (s.withClock c).sprues = s.sprues := rfl
@[simp] theorem State.withClock_tnd (s : State) (c : Clock) : (s.withClock c).tnd = s.tnd := rfl
@[simp] theorem State.withClock_integ (s : State) (c : Clock) : (s.withClock c).integ = s.integ := rfl
@[simp] theorem State.withClock_flask (s : State) (c : Clock) : (s.withClock c).flask = s.flask := rfl
@[simp] theorem State.withClock_ingot (s : State) (c : Clock) : (s.withClock c).ingot = s.ingot := rfl
@[simp] theorem State.withClock_cup (s : State) (c : Clock) : (s.withClock c).cup = s.cup := rfl
@[simp] theorem State.withClock_meters (s : State) (c : Clock) : (s.withClock c).meters = s.meters := rfl
@[simp] theorem State.withClock_mode (s : State) (c : Clock) : (s.withClock c).mode = s.mode := rfl
@[simp] theorem State.withClock_module_ (s : State) (c : Clock) : (s.withClock c).module_ = s.module_ := rfl
@[simp] theorem State.withClock_bar4 (s : State) (c : Clock) : (s.withClock c).bar4 = s.bar4 := rfl
@[simp] theorem State.withClock_latches (s : State) (c : Clock) : (s.withClock c).latches = s.latches := rfl
@[simp] theorem State.withClock_draws (s : State) (c : Clock) : (s.withClock c).draws = s.draws := rfl
@[simp] theorem State.withClock_out (s : State) (c : Clock) : (s.withClock c).out = s.out := rfl

@[simp] theorem State.withModule_pending (s : State) (m : Module) : (s.withModule m).pending = s.pending := rfl
@[simp] theorem State.withModule_clock (s : State) (m : Module) : (s.withModule m).clock = s.clock := rfl
@[simp] theorem State.withModule_regs (s : State) (m : Module) : (s.withModule m).regs = s.regs := rfl
@[simp] theorem State.withModule_mem (s : State) (m : Module) : (s.withModule m).mem = s.mem := rfl
@[simp] theorem State.withModule_spad (s : State) (m : Module) : (s.withModule m).spad = s.spad := rfl
@[simp] theorem State.withModule_tags (s : State) (m : Module) : (s.withModule m).tags = s.tags := rfl
@[simp] theorem State.withModule_poison (s : State) (m : Module) : (s.withModule m).poison = s.poison := rfl
@[simp] theorem State.withModule_hlog (s : State) (m : Module) : (s.withModule m).hlog = s.hlog := rfl
@[simp] theorem State.withModule_queues (s : State) (m : Module) : (s.withModule m).queues = s.queues := rfl
@[simp] theorem State.withModule_arrays (s : State) (m : Module) : (s.withModule m).arrays = s.arrays := rfl
@[simp] theorem State.withModule_crus (s : State) (m : Module) : (s.withModule m).crus = s.crus := rfl
@[simp] theorem State.withModule_physMap (s : State) (m : Module) : (s.withModule m).physMap = s.physMap := rfl
@[simp] theorem State.withModule_ladle (s : State) (m : Module) : (s.withModule m).ladle = s.ladle := rfl
@[simp] theorem State.withModule_alloy (s : State) (m : Module) : (s.withModule m).alloy = s.alloy := rfl
@[simp] theorem State.withModule_sprues (s : State) (m : Module) : (s.withModule m).sprues = s.sprues := rfl
@[simp] theorem State.withModule_tnd (s : State) (m : Module) : (s.withModule m).tnd = s.tnd := rfl
@[simp] theorem State.withModule_integ (s : State) (m : Module) : (s.withModule m).integ = s.integ := rfl
@[simp] theorem State.withModule_flask (s : State) (m : Module) : (s.withModule m).flask = s.flask := rfl
@[simp] theorem State.withModule_ingot (s : State) (m : Module) : (s.withModule m).ingot = s.ingot := rfl
@[simp] theorem State.withModule_cup (s : State) (m : Module) : (s.withModule m).cup = s.cup := rfl
@[simp] theorem State.withModule_meters (s : State) (m : Module) : (s.withModule m).meters = s.meters := rfl
@[simp] theorem State.withModule_mode (s : State) (m : Module) : (s.withModule m).mode = s.mode := rfl
@[simp] theorem State.withModule_module_ (s : State) (m : Module) : (s.withModule m).module_ = m := rfl
@[simp] theorem State.withModule_bar4 (s : State) (m : Module) : (s.withModule m).bar4 = s.bar4 := rfl
@[simp] theorem State.withModule_latches (s : State) (m : Module) : (s.withModule m).latches = s.latches := rfl
@[simp] theorem State.withModule_draws (s : State) (m : Module) : (s.withModule m).draws = s.draws := rfl
@[simp] theorem State.withModule_out (s : State) (m : Module) : (s.withModule m).out = s.out := rfl

@[simp] theorem State.withMeters_pending (s : State) (m : Meters) : (s.withMeters m).pending = s.pending := rfl
@[simp] theorem State.withMeters_clock (s : State) (m : Meters) : (s.withMeters m).clock = s.clock := rfl
@[simp] theorem State.withMeters_regs (s : State) (m : Meters) : (s.withMeters m).regs = s.regs := rfl
@[simp] theorem State.withMeters_mem (s : State) (m : Meters) : (s.withMeters m).mem = s.mem := rfl
@[simp] theorem State.withMeters_spad (s : State) (m : Meters) : (s.withMeters m).spad = s.spad := rfl
@[simp] theorem State.withMeters_tags (s : State) (m : Meters) : (s.withMeters m).tags = s.tags := rfl
@[simp] theorem State.withMeters_poison (s : State) (m : Meters) : (s.withMeters m).poison = s.poison := rfl
@[simp] theorem State.withMeters_hlog (s : State) (m : Meters) : (s.withMeters m).hlog = s.hlog := rfl
@[simp] theorem State.withMeters_queues (s : State) (m : Meters) : (s.withMeters m).queues = s.queues := rfl
@[simp] theorem State.withMeters_arrays (s : State) (m : Meters) : (s.withMeters m).arrays = s.arrays := rfl
@[simp] theorem State.withMeters_crus (s : State) (m : Meters) : (s.withMeters m).crus = s.crus := rfl
@[simp] theorem State.withMeters_physMap (s : State) (m : Meters) : (s.withMeters m).physMap = s.physMap := rfl
@[simp] theorem State.withMeters_ladle (s : State) (m : Meters) : (s.withMeters m).ladle = s.ladle := rfl
@[simp] theorem State.withMeters_alloy (s : State) (m : Meters) : (s.withMeters m).alloy = s.alloy := rfl
@[simp] theorem State.withMeters_sprues (s : State) (m : Meters) : (s.withMeters m).sprues = s.sprues := rfl
@[simp] theorem State.withMeters_tnd (s : State) (m : Meters) : (s.withMeters m).tnd = s.tnd := rfl
@[simp] theorem State.withMeters_integ (s : State) (m : Meters) : (s.withMeters m).integ = s.integ := rfl
@[simp] theorem State.withMeters_flask (s : State) (m : Meters) : (s.withMeters m).flask = s.flask := rfl
@[simp] theorem State.withMeters_ingot (s : State) (m : Meters) : (s.withMeters m).ingot = s.ingot := rfl
@[simp] theorem State.withMeters_cup (s : State) (m : Meters) : (s.withMeters m).cup = s.cup := rfl
@[simp] theorem State.withMeters_meters (s : State) (m : Meters) : (s.withMeters m).meters = m := rfl
@[simp] theorem State.withMeters_mode (s : State) (m : Meters) : (s.withMeters m).mode = s.mode := rfl
@[simp] theorem State.withMeters_module_ (s : State) (m : Meters) : (s.withMeters m).module_ = s.module_ := rfl
@[simp] theorem State.withMeters_bar4 (s : State) (m : Meters) : (s.withMeters m).bar4 = s.bar4 := rfl
@[simp] theorem State.withMeters_latches (s : State) (m : Meters) : (s.withMeters m).latches = s.latches := rfl
@[simp] theorem State.withMeters_draws (s : State) (m : Meters) : (s.withMeters m).draws = s.draws := rfl
@[simp] theorem State.withMeters_out (s : State) (m : Meters) : (s.withMeters m).out = s.out := rfl

@[simp] theorem State.withIngot_pending (s : State) (i : Ingot) : (s.withIngot i).pending = s.pending := rfl
@[simp] theorem State.withIngot_clock (s : State) (i : Ingot) : (s.withIngot i).clock = s.clock := rfl
@[simp] theorem State.withIngot_regs (s : State) (i : Ingot) : (s.withIngot i).regs = s.regs := rfl
@[simp] theorem State.withIngot_mem (s : State) (i : Ingot) : (s.withIngot i).mem = s.mem := rfl
@[simp] theorem State.withIngot_spad (s : State) (i : Ingot) : (s.withIngot i).spad = s.spad := rfl
@[simp] theorem State.withIngot_tags (s : State) (i : Ingot) : (s.withIngot i).tags = s.tags := rfl
@[simp] theorem State.withIngot_poison (s : State) (i : Ingot) : (s.withIngot i).poison = s.poison := rfl
@[simp] theorem State.withIngot_hlog (s : State) (i : Ingot) : (s.withIngot i).hlog = s.hlog := rfl
@[simp] theorem State.withIngot_queues (s : State) (i : Ingot) : (s.withIngot i).queues = s.queues := rfl
@[simp] theorem State.withIngot_arrays (s : State) (i : Ingot) : (s.withIngot i).arrays = s.arrays := rfl
@[simp] theorem State.withIngot_crus (s : State) (i : Ingot) : (s.withIngot i).crus = s.crus := rfl
@[simp] theorem State.withIngot_physMap (s : State) (i : Ingot) : (s.withIngot i).physMap = s.physMap := rfl
@[simp] theorem State.withIngot_ladle (s : State) (i : Ingot) : (s.withIngot i).ladle = s.ladle := rfl
@[simp] theorem State.withIngot_alloy (s : State) (i : Ingot) : (s.withIngot i).alloy = s.alloy := rfl
@[simp] theorem State.withIngot_sprues (s : State) (i : Ingot) : (s.withIngot i).sprues = s.sprues := rfl
@[simp] theorem State.withIngot_tnd (s : State) (i : Ingot) : (s.withIngot i).tnd = s.tnd := rfl
@[simp] theorem State.withIngot_integ (s : State) (i : Ingot) : (s.withIngot i).integ = s.integ := rfl
@[simp] theorem State.withIngot_flask (s : State) (i : Ingot) : (s.withIngot i).flask = s.flask := rfl
@[simp] theorem State.withIngot_ingot (s : State) (i : Ingot) : (s.withIngot i).ingot = i := rfl
@[simp] theorem State.withIngot_cup (s : State) (i : Ingot) : (s.withIngot i).cup = s.cup := rfl
@[simp] theorem State.withIngot_meters (s : State) (i : Ingot) : (s.withIngot i).meters = s.meters := rfl
@[simp] theorem State.withIngot_mode (s : State) (i : Ingot) : (s.withIngot i).mode = s.mode := rfl
@[simp] theorem State.withIngot_module_ (s : State) (i : Ingot) : (s.withIngot i).module_ = s.module_ := rfl
@[simp] theorem State.withIngot_bar4 (s : State) (i : Ingot) : (s.withIngot i).bar4 = s.bar4 := rfl
@[simp] theorem State.withIngot_latches (s : State) (i : Ingot) : (s.withIngot i).latches = s.latches := rfl
@[simp] theorem State.withIngot_draws (s : State) (i : Ingot) : (s.withIngot i).draws = s.draws := rfl
@[simp] theorem State.withIngot_out (s : State) (i : Ingot) : (s.withIngot i).out = s.out := rfl

@[simp] theorem State.withFlask_pending (s : State) (f : Flask) : (s.withFlask f).pending = s.pending := rfl
@[simp] theorem State.withFlask_clock (s : State) (f : Flask) : (s.withFlask f).clock = s.clock := rfl
@[simp] theorem State.withFlask_regs (s : State) (f : Flask) : (s.withFlask f).regs = s.regs := rfl
@[simp] theorem State.withFlask_mem (s : State) (f : Flask) : (s.withFlask f).mem = s.mem := rfl
@[simp] theorem State.withFlask_spad (s : State) (f : Flask) : (s.withFlask f).spad = s.spad := rfl
@[simp] theorem State.withFlask_tags (s : State) (f : Flask) : (s.withFlask f).tags = s.tags := rfl
@[simp] theorem State.withFlask_poison (s : State) (f : Flask) : (s.withFlask f).poison = s.poison := rfl
@[simp] theorem State.withFlask_hlog (s : State) (f : Flask) : (s.withFlask f).hlog = s.hlog := rfl
@[simp] theorem State.withFlask_queues (s : State) (f : Flask) : (s.withFlask f).queues = s.queues := rfl
@[simp] theorem State.withFlask_arrays (s : State) (f : Flask) : (s.withFlask f).arrays = s.arrays := rfl
@[simp] theorem State.withFlask_crus (s : State) (f : Flask) : (s.withFlask f).crus = s.crus := rfl
@[simp] theorem State.withFlask_physMap (s : State) (f : Flask) : (s.withFlask f).physMap = s.physMap := rfl
@[simp] theorem State.withFlask_ladle (s : State) (f : Flask) : (s.withFlask f).ladle = s.ladle := rfl
@[simp] theorem State.withFlask_alloy (s : State) (f : Flask) : (s.withFlask f).alloy = s.alloy := rfl
@[simp] theorem State.withFlask_sprues (s : State) (f : Flask) : (s.withFlask f).sprues = s.sprues := rfl
@[simp] theorem State.withFlask_tnd (s : State) (f : Flask) : (s.withFlask f).tnd = s.tnd := rfl
@[simp] theorem State.withFlask_integ (s : State) (f : Flask) : (s.withFlask f).integ = s.integ := rfl
@[simp] theorem State.withFlask_flask (s : State) (f : Flask) : (s.withFlask f).flask = f := rfl
@[simp] theorem State.withFlask_ingot (s : State) (f : Flask) : (s.withFlask f).ingot = s.ingot := rfl
@[simp] theorem State.withFlask_cup (s : State) (f : Flask) : (s.withFlask f).cup = s.cup := rfl
@[simp] theorem State.withFlask_meters (s : State) (f : Flask) : (s.withFlask f).meters = s.meters := rfl
@[simp] theorem State.withFlask_mode (s : State) (f : Flask) : (s.withFlask f).mode = s.mode := rfl
@[simp] theorem State.withFlask_module_ (s : State) (f : Flask) : (s.withFlask f).module_ = s.module_ := rfl
@[simp] theorem State.withFlask_bar4 (s : State) (f : Flask) : (s.withFlask f).bar4 = s.bar4 := rfl
@[simp] theorem State.withFlask_latches (s : State) (f : Flask) : (s.withFlask f).latches = s.latches := rfl
@[simp] theorem State.withFlask_draws (s : State) (f : Flask) : (s.withFlask f).draws = s.draws := rfl
@[simp] theorem State.withFlask_out (s : State) (f : Flask) : (s.withFlask f).out = s.out := rfl

@[simp] theorem State.withSprues_pending (s : State) (p : Sprues) : (s.withSprues p).pending = s.pending := rfl
@[simp] theorem State.withSprues_clock (s : State) (p : Sprues) : (s.withSprues p).clock = s.clock := rfl
@[simp] theorem State.withSprues_regs (s : State) (p : Sprues) : (s.withSprues p).regs = s.regs := rfl
@[simp] theorem State.withSprues_mem (s : State) (p : Sprues) : (s.withSprues p).mem = s.mem := rfl
@[simp] theorem State.withSprues_spad (s : State) (p : Sprues) : (s.withSprues p).spad = s.spad := rfl
@[simp] theorem State.withSprues_tags (s : State) (p : Sprues) : (s.withSprues p).tags = s.tags := rfl
@[simp] theorem State.withSprues_poison (s : State) (p : Sprues) : (s.withSprues p).poison = s.poison := rfl
@[simp] theorem State.withSprues_hlog (s : State) (p : Sprues) : (s.withSprues p).hlog = s.hlog := rfl
@[simp] theorem State.withSprues_queues (s : State) (p : Sprues) : (s.withSprues p).queues = s.queues := rfl
@[simp] theorem State.withSprues_arrays (s : State) (p : Sprues) : (s.withSprues p).arrays = s.arrays := rfl
@[simp] theorem State.withSprues_crus (s : State) (p : Sprues) : (s.withSprues p).crus = s.crus := rfl
@[simp] theorem State.withSprues_physMap (s : State) (p : Sprues) : (s.withSprues p).physMap = s.physMap := rfl
@[simp] theorem State.withSprues_ladle (s : State) (p : Sprues) : (s.withSprues p).ladle = s.ladle := rfl
@[simp] theorem State.withSprues_alloy (s : State) (p : Sprues) : (s.withSprues p).alloy = s.alloy := rfl
@[simp] theorem State.withSprues_sprues (s : State) (p : Sprues) : (s.withSprues p).sprues = p := rfl
@[simp] theorem State.withSprues_tnd (s : State) (p : Sprues) : (s.withSprues p).tnd = s.tnd := rfl
@[simp] theorem State.withSprues_integ (s : State) (p : Sprues) : (s.withSprues p).integ = s.integ := rfl
@[simp] theorem State.withSprues_flask (s : State) (p : Sprues) : (s.withSprues p).flask = s.flask := rfl
@[simp] theorem State.withSprues_ingot (s : State) (p : Sprues) : (s.withSprues p).ingot = s.ingot := rfl
@[simp] theorem State.withSprues_cup (s : State) (p : Sprues) : (s.withSprues p).cup = s.cup := rfl
@[simp] theorem State.withSprues_meters (s : State) (p : Sprues) : (s.withSprues p).meters = s.meters := rfl
@[simp] theorem State.withSprues_mode (s : State) (p : Sprues) : (s.withSprues p).mode = s.mode := rfl
@[simp] theorem State.withSprues_module_ (s : State) (p : Sprues) : (s.withSprues p).module_ = s.module_ := rfl
@[simp] theorem State.withSprues_bar4 (s : State) (p : Sprues) : (s.withSprues p).bar4 = s.bar4 := rfl
@[simp] theorem State.withSprues_latches (s : State) (p : Sprues) : (s.withSprues p).latches = s.latches := rfl
@[simp] theorem State.withSprues_draws (s : State) (p : Sprues) : (s.withSprues p).draws = s.draws := rfl
@[simp] theorem State.withSprues_out (s : State) (p : Sprues) : (s.withSprues p).out = s.out := rfl

@[simp] theorem State.withLadle_pending (s : State) (l : Ladle) : (s.withLadle l).pending = s.pending := rfl
@[simp] theorem State.withLadle_clock (s : State) (l : Ladle) : (s.withLadle l).clock = s.clock := rfl
@[simp] theorem State.withLadle_regs (s : State) (l : Ladle) : (s.withLadle l).regs = s.regs := rfl
@[simp] theorem State.withLadle_mem (s : State) (l : Ladle) : (s.withLadle l).mem = s.mem := rfl
@[simp] theorem State.withLadle_spad (s : State) (l : Ladle) : (s.withLadle l).spad = s.spad := rfl
@[simp] theorem State.withLadle_tags (s : State) (l : Ladle) : (s.withLadle l).tags = s.tags := rfl
@[simp] theorem State.withLadle_poison (s : State) (l : Ladle) : (s.withLadle l).poison = s.poison := rfl
@[simp] theorem State.withLadle_hlog (s : State) (l : Ladle) : (s.withLadle l).hlog = s.hlog := rfl
@[simp] theorem State.withLadle_queues (s : State) (l : Ladle) : (s.withLadle l).queues = s.queues := rfl
@[simp] theorem State.withLadle_arrays (s : State) (l : Ladle) : (s.withLadle l).arrays = s.arrays := rfl
@[simp] theorem State.withLadle_crus (s : State) (l : Ladle) : (s.withLadle l).crus = s.crus := rfl
@[simp] theorem State.withLadle_physMap (s : State) (l : Ladle) : (s.withLadle l).physMap = s.physMap := rfl
@[simp] theorem State.withLadle_ladle (s : State) (l : Ladle) : (s.withLadle l).ladle = l := rfl
@[simp] theorem State.withLadle_alloy (s : State) (l : Ladle) : (s.withLadle l).alloy = s.alloy := rfl
@[simp] theorem State.withLadle_sprues (s : State) (l : Ladle) : (s.withLadle l).sprues = s.sprues := rfl
@[simp] theorem State.withLadle_tnd (s : State) (l : Ladle) : (s.withLadle l).tnd = s.tnd := rfl
@[simp] theorem State.withLadle_integ (s : State) (l : Ladle) : (s.withLadle l).integ = s.integ := rfl
@[simp] theorem State.withLadle_flask (s : State) (l : Ladle) : (s.withLadle l).flask = s.flask := rfl
@[simp] theorem State.withLadle_ingot (s : State) (l : Ladle) : (s.withLadle l).ingot = s.ingot := rfl
@[simp] theorem State.withLadle_cup (s : State) (l : Ladle) : (s.withLadle l).cup = s.cup := rfl
@[simp] theorem State.withLadle_meters (s : State) (l : Ladle) : (s.withLadle l).meters = s.meters := rfl
@[simp] theorem State.withLadle_mode (s : State) (l : Ladle) : (s.withLadle l).mode = s.mode := rfl
@[simp] theorem State.withLadle_module_ (s : State) (l : Ladle) : (s.withLadle l).module_ = s.module_ := rfl
@[simp] theorem State.withLadle_bar4 (s : State) (l : Ladle) : (s.withLadle l).bar4 = s.bar4 := rfl
@[simp] theorem State.withLadle_latches (s : State) (l : Ladle) : (s.withLadle l).latches = s.latches := rfl
@[simp] theorem State.withLadle_draws (s : State) (l : Ladle) : (s.withLadle l).draws = s.draws := rfl
@[simp] theorem State.withLadle_out (s : State) (l : Ladle) : (s.withLadle l).out = s.out := rfl

@[simp] theorem emit_pending (s : State) (o : Out) : (emit s o).pending = s.pending := rfl
@[simp] theorem emit_clock (s : State) (o : Out) : (emit s o).clock = s.clock := rfl
@[simp] theorem emit_regs (s : State) (o : Out) : (emit s o).regs = s.regs := rfl
@[simp] theorem emit_mem (s : State) (o : Out) : (emit s o).mem = s.mem := rfl
@[simp] theorem emit_spad (s : State) (o : Out) : (emit s o).spad = s.spad := rfl
@[simp] theorem emit_tags (s : State) (o : Out) : (emit s o).tags = s.tags := rfl
@[simp] theorem emit_poison (s : State) (o : Out) : (emit s o).poison = s.poison := rfl
@[simp] theorem emit_hlog (s : State) (o : Out) : (emit s o).hlog = s.hlog := rfl
@[simp] theorem emit_queues (s : State) (o : Out) : (emit s o).queues = s.queues := rfl
@[simp] theorem emit_arrays (s : State) (o : Out) : (emit s o).arrays = s.arrays := rfl
@[simp] theorem emit_crus (s : State) (o : Out) : (emit s o).crus = s.crus := rfl
@[simp] theorem emit_physMap (s : State) (o : Out) : (emit s o).physMap = s.physMap := rfl
@[simp] theorem emit_ladle (s : State) (o : Out) : (emit s o).ladle = s.ladle := rfl
@[simp] theorem emit_alloy (s : State) (o : Out) : (emit s o).alloy = s.alloy := rfl
@[simp] theorem emit_sprues (s : State) (o : Out) : (emit s o).sprues = s.sprues := rfl
@[simp] theorem emit_tnd (s : State) (o : Out) : (emit s o).tnd = s.tnd := rfl
@[simp] theorem emit_integ (s : State) (o : Out) : (emit s o).integ = s.integ := rfl
@[simp] theorem emit_flask (s : State) (o : Out) : (emit s o).flask = s.flask := rfl
@[simp] theorem emit_ingot (s : State) (o : Out) : (emit s o).ingot = s.ingot := rfl
@[simp] theorem emit_cup (s : State) (o : Out) : (emit s o).cup = s.cup := rfl
@[simp] theorem emit_meters (s : State) (o : Out) : (emit s o).meters = s.meters := rfl
@[simp] theorem emit_mode (s : State) (o : Out) : (emit s o).mode = s.mode := rfl
@[simp] theorem emit_module_ (s : State) (o : Out) : (emit s o).module_ = s.module_ := rfl
@[simp] theorem emit_bar4 (s : State) (o : Out) : (emit s o).bar4 = s.bar4 := rfl
@[simp] theorem emit_latches (s : State) (o : Out) : (emit s o).latches = s.latches := rfl
@[simp] theorem emit_draws (s : State) (o : Out) : (emit s o).draws = s.draws := rfl
@[simp] theorem emit_out (s : State) (o : Out) : (emit s o).out = o :: s.out := rfl

@[simp] theorem setReg_pending (s : State) (off v : Nat) : (setReg s off v).pending = s.pending := rfl
@[simp] theorem setReg_clock (s : State) (off v : Nat) : (setReg s off v).clock = s.clock := rfl
@[simp] theorem setReg_regs (s : State) (off v : Nat) : (setReg s off v).regs = spPut s.regs off (BitVec.ofNat 32 v) (regReset off) := rfl
@[simp] theorem setReg_mem (s : State) (off v : Nat) : (setReg s off v).mem = s.mem := rfl
@[simp] theorem setReg_spad (s : State) (off v : Nat) : (setReg s off v).spad = s.spad := rfl
@[simp] theorem setReg_tags (s : State) (off v : Nat) : (setReg s off v).tags = s.tags := rfl
@[simp] theorem setReg_poison (s : State) (off v : Nat) : (setReg s off v).poison = s.poison := rfl
@[simp] theorem setReg_hlog (s : State) (off v : Nat) : (setReg s off v).hlog = s.hlog := rfl
@[simp] theorem setReg_queues (s : State) (off v : Nat) : (setReg s off v).queues = s.queues := rfl
@[simp] theorem setReg_arrays (s : State) (off v : Nat) : (setReg s off v).arrays = s.arrays := rfl
@[simp] theorem setReg_crus (s : State) (off v : Nat) : (setReg s off v).crus = s.crus := rfl
@[simp] theorem setReg_physMap (s : State) (off v : Nat) : (setReg s off v).physMap = s.physMap := rfl
@[simp] theorem setReg_ladle (s : State) (off v : Nat) : (setReg s off v).ladle = s.ladle := rfl
@[simp] theorem setReg_alloy (s : State) (off v : Nat) : (setReg s off v).alloy = s.alloy := rfl
@[simp] theorem setReg_sprues (s : State) (off v : Nat) : (setReg s off v).sprues = s.sprues := rfl
@[simp] theorem setReg_tnd (s : State) (off v : Nat) : (setReg s off v).tnd = s.tnd := rfl
@[simp] theorem setReg_integ (s : State) (off v : Nat) : (setReg s off v).integ = s.integ := rfl
@[simp] theorem setReg_flask (s : State) (off v : Nat) : (setReg s off v).flask = s.flask := rfl
@[simp] theorem setReg_ingot (s : State) (off v : Nat) : (setReg s off v).ingot = s.ingot := rfl
@[simp] theorem setReg_cup (s : State) (off v : Nat) : (setReg s off v).cup = s.cup := rfl
@[simp] theorem setReg_meters (s : State) (off v : Nat) : (setReg s off v).meters = s.meters := rfl
@[simp] theorem setReg_mode (s : State) (off v : Nat) : (setReg s off v).mode = s.mode := rfl
@[simp] theorem setReg_module_ (s : State) (off v : Nat) : (setReg s off v).module_ = s.module_ := rfl
@[simp] theorem setReg_bar4 (s : State) (off v : Nat) : (setReg s off v).bar4 = s.bar4 := rfl
@[simp] theorem setReg_latches (s : State) (off v : Nat) : (setReg s off v).latches = s.latches := rfl
@[simp] theorem setReg_draws (s : State) (off v : Nat) : (setReg s off v).draws = s.draws := rfl
@[simp] theorem setReg_out (s : State) (off v : Nat) : (setReg s off v).out = s.out := rfl

@[simp] theorem setQ_pending (s : State) (k : Nat) (q : QState) : (setQ s k q).pending = s.pending := rfl
@[simp] theorem setQ_clock (s : State) (k : Nat) (q : QState) : (setQ s k q).clock = s.clock := rfl
@[simp] theorem setQ_regs (s : State) (k : Nat) (q : QState) : (setQ s k q).regs = s.regs := rfl
@[simp] theorem setQ_mem (s : State) (k : Nat) (q : QState) : (setQ s k q).mem = s.mem := rfl
@[simp] theorem setQ_spad (s : State) (k : Nat) (q : QState) : (setQ s k q).spad = s.spad := rfl
@[simp] theorem setQ_tags (s : State) (k : Nat) (q : QState) : (setQ s k q).tags = s.tags := rfl
@[simp] theorem setQ_poison (s : State) (k : Nat) (q : QState) : (setQ s k q).poison = s.poison := rfl
@[simp] theorem setQ_hlog (s : State) (k : Nat) (q : QState) : (setQ s k q).hlog = s.hlog := rfl
@[simp] theorem setQ_queues (s : State) (k : Nat) (q : QState) : (setQ s k q).queues = spPut s.queues k q QState.init := rfl
@[simp] theorem setQ_arrays (s : State) (k : Nat) (q : QState) : (setQ s k q).arrays = s.arrays := rfl
@[simp] theorem setQ_crus (s : State) (k : Nat) (q : QState) : (setQ s k q).crus = s.crus := rfl
@[simp] theorem setQ_physMap (s : State) (k : Nat) (q : QState) : (setQ s k q).physMap = s.physMap := rfl
@[simp] theorem setQ_ladle (s : State) (k : Nat) (q : QState) : (setQ s k q).ladle = s.ladle := rfl
@[simp] theorem setQ_alloy (s : State) (k : Nat) (q : QState) : (setQ s k q).alloy = s.alloy := rfl
@[simp] theorem setQ_sprues (s : State) (k : Nat) (q : QState) : (setQ s k q).sprues = s.sprues := rfl
@[simp] theorem setQ_tnd (s : State) (k : Nat) (q : QState) : (setQ s k q).tnd = s.tnd := rfl
@[simp] theorem setQ_integ (s : State) (k : Nat) (q : QState) : (setQ s k q).integ = s.integ := rfl
@[simp] theorem setQ_flask (s : State) (k : Nat) (q : QState) : (setQ s k q).flask = s.flask := rfl
@[simp] theorem setQ_ingot (s : State) (k : Nat) (q : QState) : (setQ s k q).ingot = s.ingot := rfl
@[simp] theorem setQ_cup (s : State) (k : Nat) (q : QState) : (setQ s k q).cup = s.cup := rfl
@[simp] theorem setQ_meters (s : State) (k : Nat) (q : QState) : (setQ s k q).meters = s.meters := rfl
@[simp] theorem setQ_mode (s : State) (k : Nat) (q : QState) : (setQ s k q).mode = s.mode := rfl
@[simp] theorem setQ_module_ (s : State) (k : Nat) (q : QState) : (setQ s k q).module_ = s.module_ := rfl
@[simp] theorem setQ_bar4 (s : State) (k : Nat) (q : QState) : (setQ s k q).bar4 = s.bar4 := rfl
@[simp] theorem setQ_latches (s : State) (k : Nat) (q : QState) : (setQ s k q).latches = s.latches := rfl
@[simp] theorem setQ_draws (s : State) (k : Nat) (q : QState) : (setQ s k q).draws = s.draws := rfl
@[simp] theorem setQ_out (s : State) (k : Nat) (q : QState) : (setQ s k q).out = s.out := rfl

@[simp] theorem setCru_pending (s : State) (p : Nat) (c : Crucible) : (setCru s p c).pending = s.pending := rfl
@[simp] theorem setCru_clock (s : State) (p : Nat) (c : Crucible) : (setCru s p c).clock = s.clock := rfl
@[simp] theorem setCru_regs (s : State) (p : Nat) (c : Crucible) : (setCru s p c).regs = s.regs := rfl
@[simp] theorem setCru_mem (s : State) (p : Nat) (c : Crucible) : (setCru s p c).mem = s.mem := rfl
@[simp] theorem setCru_spad (s : State) (p : Nat) (c : Crucible) : (setCru s p c).spad = s.spad := rfl
@[simp] theorem setCru_tags (s : State) (p : Nat) (c : Crucible) : (setCru s p c).tags = s.tags := rfl
@[simp] theorem setCru_poison (s : State) (p : Nat) (c : Crucible) : (setCru s p c).poison = s.poison := rfl
@[simp] theorem setCru_hlog (s : State) (p : Nat) (c : Crucible) : (setCru s p c).hlog = s.hlog := rfl
@[simp] theorem setCru_queues (s : State) (p : Nat) (c : Crucible) : (setCru s p c).queues = s.queues := rfl
@[simp] theorem setCru_arrays (s : State) (p : Nat) (c : Crucible) : (setCru s p c).arrays = s.arrays := rfl
@[simp] theorem setCru_crus (s : State) (p : Nat) (c : Crucible) : (setCru s p c).crus = spPut s.crus p c ⟨none, none, 0, none⟩ := rfl
@[simp] theorem setCru_physMap (s : State) (p : Nat) (c : Crucible) : (setCru s p c).physMap = s.physMap := rfl
@[simp] theorem setCru_ladle (s : State) (p : Nat) (c : Crucible) : (setCru s p c).ladle = s.ladle := rfl
@[simp] theorem setCru_alloy (s : State) (p : Nat) (c : Crucible) : (setCru s p c).alloy = s.alloy := rfl
@[simp] theorem setCru_sprues (s : State) (p : Nat) (c : Crucible) : (setCru s p c).sprues = s.sprues := rfl
@[simp] theorem setCru_tnd (s : State) (p : Nat) (c : Crucible) : (setCru s p c).tnd = s.tnd := rfl
@[simp] theorem setCru_integ (s : State) (p : Nat) (c : Crucible) : (setCru s p c).integ = s.integ := rfl
@[simp] theorem setCru_flask (s : State) (p : Nat) (c : Crucible) : (setCru s p c).flask = s.flask := rfl
@[simp] theorem setCru_ingot (s : State) (p : Nat) (c : Crucible) : (setCru s p c).ingot = s.ingot := rfl
@[simp] theorem setCru_cup (s : State) (p : Nat) (c : Crucible) : (setCru s p c).cup = s.cup := rfl
@[simp] theorem setCru_meters (s : State) (p : Nat) (c : Crucible) : (setCru s p c).meters = s.meters := rfl
@[simp] theorem setCru_mode (s : State) (p : Nat) (c : Crucible) : (setCru s p c).mode = s.mode := rfl
@[simp] theorem setCru_module_ (s : State) (p : Nat) (c : Crucible) : (setCru s p c).module_ = s.module_ := rfl
@[simp] theorem setCru_bar4 (s : State) (p : Nat) (c : Crucible) : (setCru s p c).bar4 = s.bar4 := rfl
@[simp] theorem setCru_latches (s : State) (p : Nat) (c : Crucible) : (setCru s p c).latches = s.latches := rfl
@[simp] theorem setCru_draws (s : State) (p : Nat) (c : Crucible) : (setCru s p c).draws = s.draws := rfl
@[simp] theorem setCru_out (s : State) (p : Nat) (c : Crucible) : (setCru s p c).out = s.out := rfl

end Sys2Proof.Machine
end

