-- ==== Sys2Proof/Laws/Table.lean ====
section
/-! SUPPORT. Sparse tables: a read after a write, the canonical form, and equal contents as equal data. -/
namespace Sys2Proof.Machine

theorem spGet_spIns_same (l : Sparse α) (k : Nat) (v d : α) (h : ∀ e ∈ l, e.1 ≠ k) : spGet (spIns l k v) k d = v := by
  induction l with
  | nil => simp [spIns, spGet]
  | cons e t ih =>
    obtain ⟨j, w⟩ := e
    have hj : j ≠ k := h (j, w) (by simp)
    have ht : ∀ e ∈ t, e.1 ≠ k := fun e he => h e (by simp [he])
    unfold spIns
    split
    · simp [spGet]
    · simp [spGet, hj, ih ht]

theorem spGet_spIns_ne (l : Sparse α) (k j : Nat) (v d : α) (h : j ≠ k) : spGet (spIns l k v) j d = spGet l j d := by
  induction l with
  | nil => simp [spIns, spGet, Ne.symm h]
  | cons e t ih =>
    obtain ⟨i, w⟩ := e
    unfold spIns
    split
    · simp [spGet, Ne.symm h]
    · by_cases hi : i = j <;> simp [spGet, hi, ih]

theorem spGet_spDel_same (l : Sparse α) (k : Nat) (d : α) : spGet (spDel l k) k d = d := by
  induction l with
  | nil => simp [spDel, spGet]
  | cons e t ih =>
    obtain ⟨i, w⟩ := e
    by_cases hi : i = k
    · simpa [spDel, hi] using ih
    · simpa [spDel, hi, spGet] using ih

theorem spGet_spDel_ne (l : Sparse α) (k j : Nat) (d : α) (h : j ≠ k) : spGet (spDel l k) j d = spGet l j d := by
  induction l with
  | nil => simp [spDel, spGet]
  | cons e t ih =>
    obtain ⟨i, w⟩ := e
    by_cases hi : i = k
    · have hj : i ≠ j := fun x => h (x ▸ hi)
      simpa [spDel, hi, spGet, Ne.symm h] using ih
    · by_cases hj : i = j <;> simp_all [spDel, spGet]

theorem spDel_key_ne (l : Sparse α) (k : Nat) : ∀ e ∈ spDel l k, e.1 ≠ k := by
  intro e he
  simpa [spDel] using (List.mem_filter.1 he).2

/-- What a table holds at the key that was written. -/
theorem spGet_spPut_same [DecidableEq α] (l : Sparse α) (k : Nat) (v d : α) : spGet (spPut l k v d) k d = v := by
  unfold spPut
  split
  · simp [spGet_spDel_same, *]
  · exact spGet_spIns_same _ _ _ _ (spDel_key_ne l k)

/-- What a table holds at every other key. -/
theorem spGet_spPut_ne [DecidableEq α] (l : Sparse α) (k j : Nat) (v d d' : α) (h : j ≠ k) :
    spGet (spPut l k v d) j d' = spGet l j d' := by
  unfold spPut
  split
  · exact spGet_spDel_ne _ _ _ _ h
  · rw [spGet_spIns_ne _ _ _ _ _ h, spGet_spDel_ne _ _ _ _ h]

/-- Rising keys, as a proposition over pairs. -/
theorem spRising_iff (l : Sparse α) : spRising l = true ↔ l.Pairwise (fun a b => a.1 < b.1) := by
  induction l with
  | nil => simp [spRising]
  | cons a t ih =>
    cases t with
    | nil => simp [spRising]
    | cons b t =>
      obtain ⟨j, v⟩ := a
      obtain ⟨k, w⟩ := b
      simp only [spRising, Bool.and_eq_true, decide_eq_true_eq, ih]
      rw [List.pairwise_cons (a := (j, v))]
      constructor
      · rintro ⟨h, p⟩
        refine ⟨?_, p⟩
        intro e he
        rcases List.mem_cons.1 he with rfl | he
        · exact h
        · exact lt_trans h ((List.pairwise_cons.1 p).1 e he)
      · rintro ⟨h, p⟩
        exact ⟨h (k, w) (by simp), p⟩

theorem spRising_filter (l : Sparse α) (p : Nat × α → Bool) (h : spRising l = true) : spRising (l.filter p) = true :=
  (spRising_iff _).2 (((spRising_iff _).1 h).filter p)

theorem spIns_key (l : Sparse α) (k : Nat) (v : α) : ∀ e ∈ spIns l k v, e.1 = k ∨ e ∈ l := by
  induction l with
  | nil => simp [spIns]
  | cons a t ih =>
    obtain ⟨j, w⟩ := a
    intro e he
    unfold spIns at he
    split at he
    · rcases List.mem_cons.1 he with rfl | he
      · exact .inl rfl
      · exact .inr he
    · rcases List.mem_cons.1 he with rfl | he
      · exact .inr (by simp)
      · rcases ih e he with h | h
        · exact .inl h
        · exact .inr (by simp [h])

theorem spRising_spIns (l : Sparse α) (k : Nat) (v : α) (hk : ∀ e ∈ l, e.1 ≠ k) (h : spRising l = true) :
    spRising (spIns l k v) = true := by
  rw [spRising_iff] at *
  induction l with
  | nil => simp [spIns]
  | cons a t ih =>
    obtain ⟨j, w⟩ := a
    obtain ⟨h1, h2⟩ := List.pairwise_cons.1 h
    unfold spIns
    split
    · rename_i hkj
      refine List.pairwise_cons.2 ⟨?_, h⟩
      intro e he
      rcases List.mem_cons.1 he with rfl | he
      · exact hkj
      · exact lt_trans hkj (h1 e he)
    · rename_i hkj
      have hj : j ≠ k := hk (j, w) (by simp)
      refine List.pairwise_cons.2 ⟨?_, ih (fun e he => hk e (by simp [he])) h2⟩
      intro e he
      rcases spIns_key t k v e he with h' | h'
      · omega
      · exact h1 e h'

/-- A write keeps the canonical form. -/
theorem spWf_spPut [DecidableEq α] (l : Sparse α) (k : Nat) (v d : α) (h : spWf l d = true) :
    spWf (spPut l k v d) d = true := by
  simp only [spWf, Bool.and_eq_true, List.all_eq_true, decide_eq_true_eq] at *
  obtain ⟨hr, hd⟩ := h
  have hf : ∀ e ∈ spDel l k, e.2 ≠ d := fun e he => hd e (List.mem_filter.1 he).1
  unfold spPut
  split
  · exact ⟨spRising_filter l _ hr, hf⟩
  · rename_i hv
    refine ⟨spRising_spIns _ _ _ (spDel_key_ne l k) (spRising_filter l _ hr), ?_⟩
    intro e he
    by_cases hek : e.1 = k
    · have : ∀ (m : Sparse α), (∀ x ∈ m, x.1 ≠ k) → e ∈ spIns m k v → e.2 = v := by
        intro m
        induction m with
        | nil => intro _ h1; simp [spIns] at h1; simp [h1]
        | cons a t ih =>
          obtain ⟨j, w⟩ := a
          intro hm h1
          unfold spIns at h1
          split at h1
          · rcases List.mem_cons.1 h1 with rfl | h1
            · rfl
            · exact absurd hek (hm e h1)
          · rcases List.mem_cons.1 h1 with rfl | h1
            · exact absurd hek (hm _ (by simp))
            · exact ih (fun x hx => hm x (by simp [hx])) h1
      rw [this _ (spDel_key_ne l k) he]
      exact hv
    · rcases spIns_key _ _ _ e he with h1 | h1
      · exact absurd h1 hek
      · exact hf e h1

/-- Leaving entries out keeps the canonical form. -/
theorem spWf_filter [DecidableEq α] (l : Sparse α) (d : α) (p : Nat × α → Bool) (h : spWf l d = true) :
    spWf (l.filter p) d = true := by
  simp only [spWf, Bool.and_eq_true, List.all_eq_true, decide_eq_true_eq] at *
  exact ⟨spRising_filter l p h.1, fun e he => h.2 e (List.mem_filter.1 he).1⟩

end Sys2Proof.Machine
end

