-- ==== Sys2Proof/Laws/Memory.lean ====
section
/-! SUPPORT. Memory: a byte reads back as it was written, every other byte stays, and every operation keeps the canonical
form. -/
namespace Sys2Proof.Machine

theorem byteAt_putByte_same (m : List Host.Cell) (a : Nat) (b : Byte) : byteAt (putByte m a b) a = b :=
  spGet_spPut_same m a b 0

theorem byteAt_putByte_ne (m : List Host.Cell) (a c : Nat) (b : Byte) (h : c ≠ a) : byteAt (putByte m a b) c = byteAt m c :=
  spGet_spPut_ne m a c b 0 0 h

theorem putByte_wf (m : List Host.Cell) (a : Nat) (b : Byte) (h : Memory.wf m = true) : Memory.wf (putByte m a b) = true :=
  spWf_spPut m a b 0 h

/-- A run of bytes written leaves every byte outside it. -/
theorem byteAt_putBytes_outside (bs : List Byte) (m : List Host.Cell) (a c : Nat) (h : c < a ∨ a + bs.length ≤ c) :
    byteAt (putBytes m a bs) c = byteAt m c := by
  induction bs generalizing m a with
  | nil => rfl
  | cons b t ih =>
    simp only [List.length_cons] at h
    rw [putBytes, ih _ _ (by omega), byteAt_putByte_ne _ _ _ _ (by omega)]

/-- A run of bytes reads back as it was written. -/
theorem byteAt_putBytes_inside (bs : List Byte) (m : List Host.Cell) (a i : Nat) (h : i < bs.length) :
    byteAt (putBytes m a bs) (a + i) = bs[i] := by
  induction bs generalizing m a i with
  | nil => simp at h
  | cons b t ih =>
    rw [putBytes]
    cases i with
    | zero =>
      rw [byteAt_putBytes_outside _ _ _ _ (by omega)]
      exact byteAt_putByte_same m a b
    | succ j =>
      have hj : j < t.length := by simpa using h
      rw [show a + (j + 1) = a + 1 + j by omega, ih _ _ _ hj]
      rfl

theorem putBytes_wf (bs : List Byte) (m : List Host.Cell) (a : Nat) (h : Memory.wf m = true) :
    Memory.wf (putBytes m a bs) = true := by
  induction bs generalizing m a with
  | nil => exact h
  | cons b t ih => exact ih _ _ (putByte_wf m a b h)

theorem filter_wf (m : List Host.Cell) (p : Host.Cell → Bool) (h : Memory.wf m = true) : Memory.wf (m.filter p) = true :=
  spWf_filter m 0 p h

/-- What a register holds after a write to it. -/
theorem reg_setReg_same (s : State) (off v : Nat) : reg (setReg s off v) off = BitVec.ofNat 32 v :=
  spGet_spPut_same s.regs off (BitVec.ofNat 32 v) (regReset off)

/-- The number that a register holds after a write to it. -/
theorem rd_setReg_same (s : State) (off v : Nat) : rd (setReg s off v) off = v % 2 ^ 32 := by
  simp [rd, reg_setReg_same]

/-- A write of one register leaves every other register. -/
theorem rd_setReg_ne (s : State) (off o v : Nat) (h : o ≠ off) : rd (setReg s off v) o = rd s o := by
  unfold rd reg setReg
  rw [State.withRegs_regs, spGet_spPut_ne s.regs off o _ _ _ h]

end Sys2Proof.Machine
end

