-- ==== Sys2Proof/Laws/Kept.lean ====
section
/-! SUPPORT. What every operation keeps, said once for each: the command queue, the fuses, the canonical form of memory
and scratchpads, and the soundness of the Heat Log. -/
namespace Sys2Proof.Machine

/-- The parts of a state that the operations keep, with the queue `p` and the fuses `z`. -/
def Keeps (p : List Instr) (z : Bool × List Byte × Bool) (pend : List Instr) (fz : Bool × List Byte × Bool)
    (m sp : List Host.Cell) (h : HeatLog) : Prop :=
  pend = p ∧ fz = z ∧ Memory.wf m = true ∧ Memory.wf sp = true ∧ h.sound

/-- A state that keeps them. -/
abbrev Kept (p : List Instr) (z : Bool × List Byte × Bool) (s : State) : Prop :=
  Keeps p z s.pending (s.cup.fused, s.cup.fuseHash, s.cup.require) s.mem s.spad s.hlog

/-- An outcome that is no next state, or whose next state keeps them. -/
def KeptO (p : List Instr) (z : Bool × List Byte × Bool) (o : Host.Outcome State Fault Refusal) : Prop :=
  ∀ t, o = .next t → Kept p z t

variable {p : List Instr} {z : Bool × List Byte × Bool}

theorem ite_kept {c : Prop} [Decidable c] {a b : State} (ha : Kept p z a) (hb : Kept p z b) :
    Kept p z (if c then a else b) := by
  split
  · exact ha
  · exact hb

theorem iteO_kept {c : Prop} [Decidable c] {a b : Host.Outcome State Fault Refusal} (ha : KeptO p z a) (hb : KeptO p z b) :
    KeptO p z (if c then a else b) := by
  split
  · exact ha
  · exact hb

theorem foldl_kept {f : State → α → State} (l : List α) (s : State) (hs : Kept p z s)
    (hf : ∀ t a, Kept p z t → Kept p z (f t a)) : Kept p z (l.foldl f s) := by
  induction l generalizing s with
  | nil => exact hs
  | cons a t ih => exact ih _ (hf _ _ hs)

theorem foldl_kept1 {β : Type} {f : State × β → α → State × β} (l : List α) (s : State × β) (hs : Kept p z s.1)
    (hf : ∀ t a, Kept p z t.1 → Kept p z (f t a).1) : Kept p z (l.foldl f s).1 := by
  induction l generalizing s with
  | nil => exact hs
  | cons a t ih => exact ih _ (hf _ _ hs)

theorem foldl_kept11 {β γ : Type} {f : (State × β) × γ → α → (State × β) × γ} (l : List α) (s : (State × β) × γ)
    (hs : Kept p z s.1.1) (hf : ∀ t a, Kept p z t.1.1 → Kept p z (f t a).1.1) : Kept p z (l.foldl f s).1.1 := by
  induction l generalizing s with
  | nil => exact hs
  | cons a t ih => exact ih _ (hf _ _ hs)

/-- A fold that collects what an operation answers keeps what the operation keeps. -/
theorem foldl_kept_seq {β γ : Type} (g : State → α → State × β) (c : γ → α → β → γ) (l : List α) (s : State) (x : γ)
    (hs : Kept p z s) (hg : ∀ t a, Kept p z t → Kept p z (g t a).1) :
    Kept p z (l.foldl (fun (st : State × γ) a => ((g st.1 a).1, c st.2 a (g st.1 a).2)) (s, x)).1 :=
  foldl_kept1 l (s, x) hs (fun t a ht => hg t.1 a ht)

theorem putBytes_keeps {pend fz m sp h} (a : Nat) (bs : List Byte) (k : Keeps p z pend fz m sp h) :
    Keeps p z pend fz (putBytes m a bs) sp h :=
  ⟨k.1, k.2.1, putBytes_wf _ _ _ k.2.2.1, k.2.2.2⟩

theorem putBytes_spad_keeps {pend fz m sp h} (a : Nat) (bs : List Byte) (k : Keeps p z pend fz m sp h) :
    Keeps p z pend fz m (putBytes sp a bs) h :=
  ⟨k.1, k.2.1, k.2.2.1, putBytes_wf _ _ _ k.2.2.2.1, k.2.2.2.2⟩

theorem filter_keeps {pend fz m sp h} (q : Host.Cell → Bool) (k : Keeps p z pend fz m sp h) :
    Keeps p z pend fz (m.filter q) sp h :=
  ⟨k.1, k.2.1, filter_wf _ _ k.2.2.1, k.2.2.2⟩

theorem filter_spad_keeps {pend fz m sp h} (q : Host.Cell → Bool) (k : Keeps p z pend fz m sp h) :
    Keeps p z pend fz m (sp.filter q) h :=
  ⟨k.1, k.2.1, k.2.2.1, filter_wf _ _ k.2.2.2.1, k.2.2.2.2⟩

theorem next_kept {s : State} (h : Kept p z s) : KeptO p z (.next s) := by
  rintro t ⟨⟩
  exact h

theorem fault_kept (r : Fault) : KeptO p z (.fault r) := by
  rintro t ⟨⟩

end Sys2Proof.Machine
end

