-- ==== Sys2Proof/Laws/Kept/Ops.lean ====
section
/-! SUPPORT. What the operations of Machine/Ops.lean keep. -/
set_option linter.all false
set_option simprocs false
namespace Sys2Proof.Machine
variable {κ : List Instr} {ζ : Bool × List Byte × Bool}

theorem withRegs_kept (s : State) (r : Sparse Word) (hκ : Kept κ ζ s) : Kept κ ζ (State.withRegs s r) := by
  unfold State.withRegs
  repeat' (first | with_reducible assumption | with_reducible intro _ | dsimp only | with_reducible apply ite_kept | with_reducible apply iteO_kept | split)

theorem setReg_kept (s : State) (off : Nat) (v : Nat) (hκ : Kept κ ζ s) : Kept κ ζ (setReg s off v) := by
  unfold setReg
  repeat' (first | with_reducible assumption | with_reducible apply withRegs_kept | with_reducible intro _ | dsimp only | with_reducible apply ite_kept | with_reducible apply iteO_kept | split)

theorem setReg64_kept (s : State) (off v : Nat) (hκ : Kept κ ζ s) : Kept κ ζ (setReg64 s off v) := by
  unfold setReg64
  repeat' (first | with_reducible assumption | with_reducible apply setReg_kept | with_reducible intro _ | dsimp only | with_reducible apply ite_kept | with_reducible apply iteO_kept | split)

theorem cntAdd_kept (s : State) (off n : Nat) (hk : Kept κ ζ s) : Kept κ ζ (cntAdd s off n) := by
  unfold cntAdd
  split
  · exact hk
  · exact setReg64_kept _ _ _ hk

theorem cntAdd_mem (s : State) (off n : Nat) : (cntAdd s off n).mem = s.mem := by
  unfold cntAdd setReg64
  split
  · rfl
  · rw [setReg_mem, setReg_mem]

theorem satAdd_kept (s : State) (off n : Nat) (hκ : Kept κ ζ s) : Kept κ ζ (satAdd s off n) := by
  unfold satAdd
  repeat' (first | with_reducible assumption | with_reducible apply setReg_kept | with_reducible intro _ | dsimp only | with_reducible apply ite_kept | with_reducible apply iteO_kept | split)

theorem emit_kept (s : State) (o : Out) (hκ : Kept κ ζ s) : Kept κ ζ (emit s o) := by
  unfold emit
  repeat' (first | with_reducible assumption | with_reducible intro _ | dsimp only | with_reducible apply ite_kept | with_reducible apply iteO_kept | split)

theorem respond_kept (s : State) (src : Src) (tag cmd status : Nat) (payload : List Nat) (hκ : Kept κ ζ s) : Kept κ ζ (respond s src tag cmd status payload) := by
  unfold respond
  repeat' (first | with_reducible assumption | with_reducible apply emit_kept | with_reducible intro _ | dsimp only | with_reducible apply ite_kept | with_reducible apply iteO_kept | split)

theorem toHost_kept (s : State) (o : Out) (hκ : Kept κ ζ s) : Kept κ ζ (toHost s o) := by
  unfold toHost
  repeat' (first | with_reducible assumption | with_reducible apply cntAdd_kept | with_reducible apply emit_kept | with_reducible intro _ | dsimp only | with_reducible apply ite_kept | with_reducible apply iteO_kept | split)

theorem raiseMsix_kept (s : State) (v : Nat) (hκ : Kept κ ζ s) : Kept κ ζ (raiseMsix s v) := by
  unfold raiseMsix
  repeat' (first | with_reducible assumption | with_reducible apply toHost_kept | with_reducible intro _ | dsimp only | with_reducible apply ite_kept | with_reducible apply iteO_kept | split)

theorem drawWord_kept (s : State) (hκ : Kept κ ζ s) : Kept κ ζ (drawWord s).2 := by
  unfold drawWord
  repeat' (first | with_reducible assumption | with_reducible intro _ | dsimp only | with_reducible apply ite_kept | with_reducible apply iteO_kept | split)

theorem drawNat_kept (s : State) (hκ : Kept κ ζ s) : Kept κ ζ (drawNat s).2 := by
  unfold drawNat
  repeat' (first | with_reducible assumption | with_reducible intro _ | dsimp only | with_reducible apply ite_kept | with_reducible apply iteO_kept | split)

theorem forEach_kept {α : Type} (l : List α) (s : State) (f : State → α → State) (h : Kept κ ζ s)
    (hf : ∀ t a, Kept κ ζ t → Kept κ ζ (f t a)) : Kept κ ζ (forEach l s f) := foldl_kept l s h hf

theorem done_kept (s : State) (h : Kept κ ζ s) : KeptO κ ζ (done s) := next_kept h

end Sys2Proof.Machine
end

