-- ==== Sys2Proof/Laws/Kept/HeatLog.lean ====
section
/-! SUPPORT. What the operations of Machine/HeatLog.lean keep. -/
set_option linter.all false
namespace Sys2Proof.Machine
variable {κ : List Instr} {ζ : Bool × List Byte × Bool}

theorem hlogAlert_kept (s : State) (h : Kept κ ζ s) : Kept κ ζ (hlogAlert s) := by
  unfold hlogAlert
  dsimp only
  split
  · refine emit_kept _ _ (raiseMsix_kept _ _ ?_)
    exact h
  · exact h

theorem cntAdd_hlog (s : State) (off n : Nat) : (cntAdd s off n).hlog = s.hlog := by
  unfold cntAdd setReg64
  split
  · rfl
  · rw [setReg_hlog, setReg_hlog]

theorem satAdd_hlog (s : State) (off n : Nat) : (satAdd s off n).hlog = s.hlog := setReg_hlog _ _ _

theorem toHost_hlog (s : State) (o : Out) : (toHost s o).hlog = s.hlog := by
  unfold toHost
  split
  · exact emit_hlog _ _
  · exact cntAdd_hlog _ _ _

theorem raiseMsix_hlog (s : State) (v : Nat) : (raiseMsix s v).hlog = s.hlog := by
  unfold raiseMsix
  dsimp only
  split
  · rfl
  · exact toHost_hlog _ _

theorem hlogAlert_clearing (s : State) : (hlogAlert s).hlog.clearing = s.hlog.clearing := by
  unfold hlogAlert
  dsimp only
  split
  · rw [emit_hlog, raiseMsix_hlog]
  · rfl

theorem hlogWrite_clearing (s : State) (e : LogEvent) : (hlogWrite s e).hlog.clearing = s.hlog.clearing :=
  hlogAlert_clearing _

theorem hlogPresent_clearing (s : State) (e : LogEvent) : (hlogPresent s e).hlog.clearing = s.hlog.clearing := by
  unfold hlogPresent
  dsimp only
  split
  · rw [cntAdd_hlog]
  · split
    · rw [cntAdd_hlog, satAdd_hlog]
    · rw [hlogWrite_clearing]

/-- An entry written to a recorder that is in order, has room and clears nothing. -/
theorem hlogWrite_kept (s : State) (e : LogEvent) (h : Kept κ ζ s) (hl : s.hlog.entries.length < hlogSize)
    (hc : s.hlog.clearing = none) : Kept κ ζ (hlogWrite s e) := by
  unfold hlogWrite
  refine hlogAlert_kept _ ?_
  obtain ⟨h1, h2, h3, h4, h0, h5, h6, h7, h8, h9, h10, h11⟩ := h
  refine ⟨h1, h2, h3, h4, Nat.mod_lt _ (by decide), ?_, h6, ?_, h8, ?_, ?_, ?_⟩
  · simp only [List.length_append, List.length_singleton]
    omega
  · intro w hw
    rcases List.mem_append.1 hw with hw | hw
    · exact h7 w hw
    · rw [List.mem_singleton.1 hw]
      simp [logWords, datum64]
  · simp [hc]
  · intro _
    simp only [List.length_append, List.length_singleton]
    rw [h10 hc]
    omega
  · intro i hi
    simp only [List.length_append, List.length_singleton] at hi
    by_cases hlt : i < s.hlog.entries.length
    · have := h11 i hlt
      rw [List.getD_eq_getElem _ _ hlt] at this
      rw [List.getD_eq_getElem _ _ (by simp; omega), List.getElem_append_left hlt]
      exact this
    · obtain rfl : i = s.hlog.entries.length := by omega
      rw [List.getD_eq_getElem _ _ (by simp)]
      simp [logWords, h10 hc, BitVec.ofNat_eq_ofNat]
      apply BitVec.eq_of_toNat_eq
      simp

theorem spGet_lt (l : Sparse Nat) (k : Nat) (h : ∀ e ∈ l, e.2 < 16) : spGet l k 16 ≤ 16 := by
  induction l with
  | nil => simp [spGet]
  | cons a t ih =>
    obtain ⟨j, v⟩ := a
    have := h (j, v) (by simp)
    have := ih (fun e he => h e (by simp [he]))
    unfold spGet
    split <;> omega

theorem spIns_mem (l : Sparse α) (k : Nat) (v : α) : ∀ e ∈ spIns l k v, e = (k, v) ∨ e ∈ l := by
  induction l with
  | nil => simp [spIns]
  | cons a t ih =>
    obtain ⟨j, w⟩ := a
    intro e he
    unfold spIns at he
    split at he
    · rcases List.mem_cons.1 he with rfl | he
      · exact .inl rfl
      · exact .inr he
    · rcases List.mem_cons.1 he with rfl | he
      · exact .inr (by simp)
      · rcases ih e he with h | h
        · exact .inl h
        · exact .inr (by simp [h])

theorem spPut_mem [DecidableEq α] (l : Sparse α) (k : Nat) (v d : α) : ∀ e ∈ spPut l k v d, e = (k, v) ∨ e ∈ l := by
  intro e he
  unfold spPut at he
  split at he
  · exact .inr (List.mem_filter.1 he).1
  · rcases spIns_mem _ _ _ e he with h | h
    · exact .inl h
    · exact .inr (List.mem_filter.1 h).1

theorem hlogPresent_kept (s : State) (e : LogEvent) (h : Kept κ ζ s) (hc : s.hlog.clearing = none) :
    Kept κ ζ (hlogPresent s e) := by
  unfold hlogPresent
  dsimp only
  split
  · exact cntAdd_kept _ _ _ h
  · rename_i hl
    split
    · exact cntAdd_kept _ _ _ (satAdd_kept _ _ _ h)
    · rename_i n hn
      refine hlogWrite_kept _ _ ?_ (by simpa using hl) hc
      obtain ⟨h1, h2, h3, h4, h0, h5, h6, h7, h8, h9⟩ := h
      refine ⟨h1, h2, h3, h4, h0, h5, h6, h7, ?_, h9⟩
      intro e' he'
      rcases spPut_mem _ _ _ _ e' he' with rfl | h'
      · have := spGet_lt s.hlog.tokens e.code h8
        rw [hn] at this
        simp
        omega
      · exact h8 e' h'

theorem hlogPut_kept (s : State) (e : LogEvent) (h : Kept κ ζ s) : Kept κ ζ (hlogPut s e) := by
  unfold hlogPut
  split
  · split
    · rename_i hl
      obtain ⟨h1, h2, h3, h4, h0, h5, h6, h7⟩ := h
      refine ⟨h1, h2, h3, h4, h0, h5, ?_, h7⟩
      simp only [List.length_append, List.length_singleton]
      omega
    · exact cntAdd_kept _ _ _ h
  · rename_i hc
    exact hlogPresent_kept _ _ h hc

theorem logUnit_kept (s : State) (code unit : Nat) (data : List Nat) (hκ : Kept κ ζ s) : Kept κ ζ (logUnit s code unit data) := by
  unfold logUnit
  repeat' (first | with_reducible assumption | with_reducible apply hlogPut_kept | with_reducible intro _ | dsimp only | with_reducible apply ite_kept | with_reducible apply iteO_kept | split)

theorem logCtx_kept (s : State) (code unit ctx step : Nat) (data : List Nat) (hκ : Kept κ ζ s) : Kept κ ζ (logCtx s code unit ctx step data) := by
  unfold logCtx
  repeat' (first | with_reducible assumption | with_reducible apply hlogPut_kept | with_reducible intro _ | dsimp only | with_reducible apply ite_kept | with_reducible apply iteO_kept | split)

theorem logCup_kept (s : State) (code : Nat) (data : List Nat) (hκ : Kept κ ζ s) : Kept κ ζ (logCup s code data) := by
  unfold logCup
  repeat' (first | with_reducible assumption | with_reducible apply hlogPut_kept | with_reducible intro _ | dsimp only | with_reducible apply ite_kept | with_reducible apply iteO_kept | split)

theorem logSrc_kept (s : State) (code : Nat) (src : Src) (data : List Nat) (hκ : Kept κ ζ s) : Kept κ ζ (logSrc s code src data) := by
  unfold logSrc
  repeat' (first | with_reducible assumption | with_reducible apply hlogPut_kept | with_reducible intro _ | dsimp only | with_reducible apply ite_kept | with_reducible apply iteO_kept | split)

theorem logDiscard_kept (s : State) (src : Src) (addr width reason : Nat) (h : Kept κ ζ s) :
    Kept κ ζ (logDiscard s src addr width reason) :=
  logSrc_kept _ _ _ _ h

theorem logAccepted_kept (s : State) (src : Src) (space addr value : Nat) (hκ : Kept κ ζ s) : Kept κ ζ (logAccepted s src space addr value) := by
  unfold logAccepted
  repeat' (first | with_reducible assumption | with_reducible apply logSrc_kept | with_reducible intro _ | dsimp only | with_reducible apply ite_kept | with_reducible apply iteO_kept | split)

theorem logAccIf_kept (note : Bool) (s : State) (src : Src) (addr value : Nat) (hκ : Kept κ ζ s) : Kept κ ζ (logAccIf note s src addr value) := by
  unfold logAccIf
  repeat' (first | with_reducible assumption | with_reducible apply logAccepted_kept | with_reducible intro _ | dsimp only | with_reducible apply ite_kept | with_reducible apply iteO_kept | split)

theorem execHlogTokenRefill_kept (s : State) (h : Kept κ ζ s) : KeptO κ ζ (execHlogTokenRefill s) := by
  unfold execHlogTokenRefill
  dsimp only
  split
  · refine next_kept ?_
    obtain ⟨h1, h2, h3, h4, h0, h5, h6, h7, h8, h9⟩ := h
    refine ⟨h1, h2, h3, h4, h0, h5, h6, h7, ?_, h9⟩
    intro e he
    obtain ⟨h10, h11⟩ := List.mem_filter.1 he
    obtain ⟨a, ha, rfl⟩ := List.mem_map.1 h10
    have := h8 a ha
    simp at h11 ⊢
    omega
  · exact next_kept h

theorem clearLog_kept (s : State) (src : Src) (h : Kept κ ζ s) : Kept κ ζ (clearLog s src) := by
  obtain ⟨h1, h2, h3, h4, h0, h5, h6, h7, h8, h9⟩ := h
  exact ⟨h1, h2, h3, h4, h0, by simp [clearLog], by simp [clearLog], by simp [clearLog], h8, by simp [clearLog],
    by simp [clearLog], by simp [clearLog]⟩

theorem execHlgClear_kept (src : Src) (s : State) (hκ : Kept κ ζ s) : KeptO κ ζ (execHlgClear src s) := by
  unfold execHlgClear
  repeat' (first | with_reducible assumption | with_reducible apply next_kept | with_reducible apply fault_kept | with_reducible apply done_kept | with_reducible apply clearLog_kept | with_reducible apply logAccepted_kept | with_reducible apply logDiscard_kept | with_reducible apply emit_kept | with_reducible intro _ | dsimp only | with_reducible apply ite_kept | with_reducible apply iteO_kept | split)

/-- A list of events presented to a recorder that clears nothing. -/
theorem foldl_hlogPresent_kept (l : List LogEvent) (s : State) (h : Kept κ ζ s) (hc : s.hlog.clearing = none) :
    Kept κ ζ (l.foldl hlogPresent s) := by
  induction l generalizing s with
  | nil => exact h
  | cons e t ih => exact ih _ (hlogPresent_kept _ _ h hc) (by rw [hlogPresent_clearing, hc])

theorem execHlogClearEnd_kept (s : State) (h : Kept κ ζ s) : KeptO κ ζ (execHlogClearEnd s) := by
  unfold execHlogClearEnd
  split
  · exact next_kept h
  · rename_i c hc
    refine next_kept (foldl_hlogPresent_kept _ _ (hlogWrite_kept _ _ ?_ ?_ rfl) (hlogWrite_clearing _ _))
    · obtain ⟨h1, h2, h3, h4, h0, h5, h6, h7, h8, h9, h10, h11⟩ := h
      have h12 := h9 (by simp [hc])
      refine ⟨h1, h2, h3, h4, h0, h5, by simp, h7, h8, by simp, ?_, ?_⟩
      · intro _
        simp only [h12, List.length_nil, Nat.add_zero]
        omega
      · simp [h12]
    · have h0 := h.2.2.2.2.2.2.2.2.2.1 (by simp [hc])
      simp [h0, hlogSize]

end Sys2Proof.Machine
end

