-- ==== Sys2Proof/Laws/Kept/Link.lean ====
section
/-! SUPPORT. What the operations of Machine/Link.lean keep. -/
set_option linter.all false
set_option simprocs false
namespace Sys2Proof.Machine
variable {κ : List Instr} {ζ : Bool × List Byte × Bool}

theorem withSprues_kept (s : State) (p : Sprues) (hκ : Kept κ ζ s) : Kept κ ζ (State.withSprues s p) := by
  unfold State.withSprues
  repeat' (first | with_reducible assumption | with_reducible intro _ | dsimp only | with_reducible apply ite_kept | with_reducible apply iteO_kept | split)

theorem setLink_kept (s : State) (h : Nat) (f : SprLink → SprLink) (hκ : Kept κ ζ s) : Kept κ ζ (setLink s h f) := by
  unfold setLink
  repeat' (first | with_reducible assumption | with_reducible apply withSprues_kept | with_reducible intro _ | dsimp only | with_reducible apply ite_kept | with_reducible apply iteO_kept | split)

theorem setLinkState_kept (s : State) (h n : Nat) (hκ : Kept κ ζ s) : Kept κ ζ (setLinkState s h n) := by
  unfold setLinkState
  repeat' (first | with_reducible assumption | with_reducible apply setReg_kept | with_reducible intro _ | dsimp only | with_reducible apply ite_kept | with_reducible apply iteO_kept | split)

theorem wakeLink_kept (s : State) (h : Nat) (hκ : Kept κ ζ s) : Kept κ ζ (wakeLink s h) := by
  unfold wakeLink
  repeat' (first | with_reducible assumption | with_reducible apply cntAdd_kept | with_reducible apply logUnit_kept | with_reducible apply setLinkState_kept | with_reducible apply emit_kept | with_reducible apply setLink_kept | with_reducible intro _ | dsimp only | with_reducible apply ite_kept | with_reducible apply iteO_kept | split)

theorem sendFlit_kept (s : State) (h : Nat) (p : PktHdr) (first last : Bool) (data : List Byte) (hκ : Kept κ ζ s) : Kept κ ζ (sendFlit s h p first last data) := by
  unfold sendFlit
  repeat' (first | with_reducible assumption | with_reducible apply cntAdd_kept | with_reducible apply emit_kept | with_reducible apply setLink_kept | with_reducible intro _ | dsimp only | with_reducible apply ite_kept | with_reducible apply iteO_kept | split)

theorem returnCredit_kept (s : State) (input key n : Nat) (hκ : Kept κ ζ s) : Kept κ ζ (returnCredit s input key n) := by
  unfold returnCredit
  repeat' (first | with_reducible assumption | with_reducible apply emit_kept | with_reducible intro _ | dsimp only | with_reducible apply ite_kept | with_reducible apply iteO_kept | split)

theorem startPacket_kept (s : State) (h : Nat) (w : LinkWait) (hκ : Kept κ ζ s) : Kept κ ζ (startPacket s h w) := by
  unfold startPacket
  repeat' (first | with_reducible assumption | with_reducible apply returnCredit_kept | with_reducible apply cntAdd_kept | with_reducible apply sendFlit_kept | with_reducible apply setLink_kept | with_reducible apply wakeLink_kept | with_reducible apply foldl_kept | with_reducible apply foldl_kept1 | with_reducible apply foldl_kept11 | with_reducible intro _ | dsimp only | with_reducible apply ite_kept | with_reducible apply iteO_kept | split)

theorem drainOut_kept (n : Nat) (s : State) (h : Nat) (hk : Kept κ ζ s) : Kept κ ζ (drainOut n s h) := by
  induction n generalizing s with
  | zero => exact hk
  | succ n ih =>
    unfold drainOut
    split
    · exact hk
    · exact ih _ (startPacket_kept _ _ _ (setLink_kept _ _ _ hk))

theorem drainLink_kept (s : State) (h : Nat) (hκ : Kept κ ζ s) : Kept κ ζ (drainLink s h) := by
  unfold drainLink
  repeat' (first | with_reducible assumption | with_reducible apply drainOut_kept | with_reducible intro _ | dsimp only | with_reducible apply ite_kept | with_reducible apply iteO_kept | split)

theorem queueAt_kept (s : State) (h : Nat) (w : LinkWait) (hκ : Kept κ ζ s) : Kept κ ζ (queueAt s h w) := by
  unfold queueAt
  repeat' (first | with_reducible assumption | with_reducible apply setLink_kept | with_reducible apply drainLink_kept | with_reducible intro _ | dsimp only | with_reducible apply ite_kept | with_reducible apply iteO_kept | split)

theorem dropPacket_kept (s : State) (w : LinkWait) (counter : Nat) (hκ : Kept κ ζ s) : Kept κ ζ (dropPacket s w counter) := by
  unfold dropPacket
  repeat' (first | with_reducible assumption | with_reducible apply returnCredit_kept | with_reducible apply cntAdd_kept | with_reducible intro _ | dsimp only | with_reducible apply ite_kept | with_reducible apply iteO_kept | split)

theorem maskedPacket_kept (s : State) (h : Nat) (w : LinkWait) (bySlice : Bool) (hκ : Kept κ ζ s) : Kept κ ζ (maskedPacket s h w bySlice) := by
  unfold maskedPacket
  repeat' (first | with_reducible assumption | with_reducible apply logUnit_kept | with_reducible apply dropPacket_kept | with_reducible intro _ | dsimp only | with_reducible apply ite_kept | with_reducible apply iteO_kept | split)

theorem putOn_kept (s : State) (h : Nat) (w : LinkWait) (hκ : Kept κ ζ s) : Kept κ ζ (putOn s h w) := by
  unfold putOn
  repeat' (first | with_reducible assumption | with_reducible apply maskedPacket_kept | with_reducible apply queueAt_kept | with_reducible intro _ | dsimp only | with_reducible apply ite_kept | with_reducible apply iteO_kept | split)

theorem routePacket_kept (s : State) (w : LinkWait) (hκ : Kept κ ζ s) : Kept κ ζ (routePacket s w).1 := by
  unfold routePacket
  repeat' (first | with_reducible assumption | with_reducible apply dropPacket_kept | with_reducible apply putOn_kept | with_reducible apply setLink_kept | with_reducible intro _ | dsimp only | with_reducible apply ite_kept | with_reducible apply iteO_kept | split)

theorem sendMsg_kept (s : State) (name : String) (dest : Nat) (words : List Nat) (cls slice bank group bytes : Nat) (ctx : Nat) (hκ : Kept κ ζ s) : Kept κ ζ (sendMsg s name dest words cls slice bank group bytes ctx) := by
  unfold sendMsg
  repeat' (first | with_reducible assumption | with_reducible apply routePacket_kept | with_reducible apply emit_kept | with_reducible apply foldl_kept | with_reducible apply foldl_kept1 | with_reducible apply foldl_kept11 | with_reducible intro _ | dsimp only | with_reducible apply ite_kept | with_reducible apply iteO_kept | split)

end Sys2Proof.Machine
end

