-- ==== Sys2Proof/Laws/Kept/Mem.lean ====
section
/-! SUPPORT. What the operations of Machine/Mem.lean keep. -/
set_option linter.all false
set_option simprocs false
namespace Sys2Proof.Machine
variable {κ : List Instr} {ζ : Bool × List Byte × Bool}

theorem riskAdd_kept (s : State) (u w : Nat) (hκ : Kept κ ζ s) : Kept κ ζ (riskAdd s u w) := by
  unfold riskAdd
  repeat' (first | with_reducible assumption | with_reducible apply satAdd_kept | with_reducible intro _ | dsimp only | with_reducible apply ite_kept | with_reducible apply iteO_kept | split)

theorem tierUe_kept (s : State) (r : Reader) (a : Nat) (hκ : Kept κ ζ s) : Kept κ ζ (tierUe s r a) := by
  unfold tierUe
  repeat' (first | with_reducible assumption | with_reducible apply logUnit_kept | with_reducible apply cntAdd_kept | with_reducible apply setReg64_kept | with_reducible apply riskAdd_kept | with_reducible intro _ | dsimp only | with_reducible apply ite_kept | with_reducible apply iteO_kept | split)

theorem tierCe_kept (s : State) (a symbols : Nat) (hκ : Kept κ ζ s) : Kept κ ζ (tierCe s a symbols) := by
  unfold tierCe
  repeat' (first | with_reducible assumption | with_reducible apply logUnit_kept | with_reducible apply cntAdd_kept | with_reducible apply riskAdd_kept | with_reducible intro _ | dsimp only | with_reducible apply ite_kept | with_reducible apply iteO_kept | split)

theorem setPoison_kept (s : State) (a : Nat) (p : Bool) (hκ : Kept κ ζ s) : Kept κ ζ (setPoison s a p) := by
  unfold setPoison
  repeat' (first | with_reducible assumption | with_reducible intro _ | dsimp only | with_reducible apply ite_kept | with_reducible apply iteO_kept | split)

theorem withMem_kept (s : State) (m : List Host.Cell)
    (hk : Keeps κ ζ s.pending (s.cup.fused, s.cup.fuseHash, s.cup.require) m s.spad s.hlog) : Kept κ ζ (s.withMem m) := hk

theorem withMem_kept_wf (s : State) (m : List Host.Cell) (hk : Kept κ ζ s) (hm : Memory.wf m = true) :
    Kept κ ζ (s.withMem m) := ⟨hk.1, hk.2.1, hm, hk.2.2.2⟩

theorem tierRead_kept (s : State) (r : Reader) (a n : Nat) (hκ : Kept κ ζ s) : Kept κ ζ (tierRead s r a n).1 := by
  unfold tierRead
  repeat' (first | with_reducible assumption | with_reducible apply tierUe_kept | with_reducible apply cntAdd_kept | with_reducible intro _ | dsimp only | with_reducible apply ite_kept | with_reducible apply iteO_kept | split)

theorem tierWrite_kept (s : State) (r : Reader) (a : Nat) (bs : List Byte) (hk : Kept κ ζ s) :
    Kept κ ζ (tierWrite s r a bs).1 := by
  unfold tierWrite
  dsimp only
  split
  · exact setPoison_kept _ _ _ (withMem_kept_wf _ _ (cntAdd_kept _ _ _ hk) (putBytes_wf _ _ _ hk.2.2.1))
  · split
    · exact tierUe_kept _ _ _ (cntAdd_kept _ _ _ (cntAdd_kept _ _ _ hk))
    · exact withMem_kept_wf _ _ (cntAdd_kept _ _ _ (cntAdd_kept _ _ _ hk)) (putBytes_wf _ _ _ hk.2.2.1)

theorem setCru_kept (s : State) (p : Nat) (c : Crucible) (hκ : Kept κ ζ s) : Kept κ ζ (setCru s p c) := by
  unfold setCru
  repeat' (first | with_reducible assumption | with_reducible intro _ | dsimp only | with_reducible apply ite_kept | with_reducible apply iteO_kept | split)

theorem withSpad_kept (s : State) (m : List Host.Cell)
    (hk : Keeps κ ζ s.pending (s.cup.fused, s.cup.fuseHash, s.cup.require) s.mem m s.hlog) : Kept κ ζ (s.withSpad m) := hk

theorem spadReadLine_kept (s : State) (q p x off n : Nat) (hκ : Kept κ ζ s) : Kept κ ζ (spadReadLine s q p x off n).1 := by
  unfold spadReadLine
  repeat' (first | with_reducible assumption | with_reducible apply cntAdd_kept | with_reducible intro _ | dsimp only | with_reducible apply ite_kept | with_reducible apply iteO_kept | split)

theorem spadWriteLine_kept (s : State) (p x off : Nat) (bs : List Byte) (hκ : Kept κ ζ s) : Kept κ ζ (spadWriteLine s p x off bs) := by
  unfold spadWriteLine
  repeat' (first | with_reducible assumption | with_reducible apply withSpad_kept | with_reducible apply putBytes_keeps | with_reducible apply putBytes_spad_keeps | with_reducible intro _ | dsimp only | with_reducible apply ite_kept | with_reducible apply iteO_kept | split)

theorem spadRead_kept (s : State) (q p x off n : Nat) (hκ : Kept κ ζ s) : Kept κ ζ (spadRead s q p x off n).1 := by
  unfold spadRead
  repeat' (first | with_reducible assumption | with_reducible apply spadReadLine_kept | with_reducible apply foldl_kept | with_reducible apply foldl_kept1 | with_reducible apply foldl_kept11 | with_reducible intro _ | dsimp only | with_reducible apply ite_kept | with_reducible apply iteO_kept | split)

theorem spadWrite_kept (s : State) (p x off : Nat) (bs : List Byte) (hκ : Kept κ ζ s) : Kept κ ζ (spadWrite s p x off bs) := by
  unfold spadWrite
  repeat' (first | with_reducible assumption | with_reducible apply spadWriteLine_kept | with_reducible apply foldl_kept | with_reducible apply foldl_kept1 | with_reducible apply foldl_kept11 | with_reducible intro _ | dsimp only | with_reducible apply ite_kept | with_reducible apply iteO_kept | split)

theorem raInvalidate_kept (s : State) (a : Nat) (hκ : Kept κ ζ s) : Kept κ ζ (raInvalidate s a) := by
  unfold raInvalidate
  repeat' (first | with_reducible assumption | with_reducible apply cntAdd_kept | with_reducible apply filter_keeps | with_reducible apply filter_spad_keeps | with_reducible intro _ | dsimp only | with_reducible apply ite_kept | with_reducible apply iteO_kept | split)

end Sys2Proof.Machine
end

