-- ==== Sys2Proof/Laws/Kept/Access.lean ====
section
/-! SUPPORT. What the operations of Machine/Access.lean keep. -/
set_option linter.all false
set_option simprocs false
namespace Sys2Proof.Machine
variable {κ : List Instr} {ζ : Bool × List Byte × Bool}

theorem setMapHalf_kept (s : State) (page half v : Nat) (hκ : Kept κ ζ s) : Kept κ ζ (setMapHalf s page half v) := by
  unfold setMapHalf
  repeat' (first | with_reducible assumption | with_reducible apply withMem_kept | with_reducible apply putBytes_keeps | with_reducible apply putBytes_spad_keeps | with_reducible intro _ | dsimp only | with_reducible apply ite_kept | with_reducible apply iteO_kept | split)

theorem copyPage_kept (s : State) (a b : Nat) (hκ : Kept κ ζ s) : Kept κ ζ (copyPage s a b) := by
  unfold copyPage
  repeat' (first | with_reducible assumption | with_reducible apply withMem_kept | with_reducible apply setPoison_kept | with_reducible apply cntAdd_kept | with_reducible apply foldl_kept | with_reducible apply foldl_kept1 | with_reducible apply foldl_kept11 | with_reducible apply putBytes_keeps | with_reducible apply putBytes_spad_keeps | with_reducible intro _ | dsimp only | with_reducible apply ite_kept | with_reducible apply iteO_kept | split)

theorem withIngot_kept (s : State) (i : Ingot) (hκ : Kept κ ζ s) : Kept κ ζ (State.withIngot s i) := by
  unfold State.withIngot
  repeat' (first | with_reducible assumption | with_reducible intro _ | dsimp only | with_reducible apply ite_kept | with_reducible apply iteO_kept | split)

theorem copyOnWrite_kept (s : State) (a : Nat) (hκ : Kept κ ζ s) : Kept κ ζ (copyOnWrite s a) := by
  unfold copyOnWrite
  repeat' (first | with_reducible assumption | with_reducible apply cntAdd_kept | with_reducible apply setMapHalf_kept | with_reducible apply drawNat_kept | with_reducible apply copyPage_kept | with_reducible apply withIngot_kept | with_reducible intro _ | dsimp only | with_reducible apply ite_kept | with_reducible apply iteO_kept | split)

theorem setDirEntry_kept (s : State) (line st vec ver : Nat) (hκ : Kept κ ζ s) : Kept κ ζ (setDirEntry s line st vec ver) := by
  unfold setDirEntry
  repeat' (first | with_reducible assumption | with_reducible apply withMem_kept | with_reducible apply copyOnWrite_kept | with_reducible apply putBytes_keeps | with_reducible apply putBytes_spad_keeps | with_reducible intro _ | dsimp only | with_reducible apply ite_kept | with_reducible apply iteO_kept | split)

theorem homePass_kept (s : State) (a : Nat) (write : Bool) (x : Nat) (hκ : Kept κ ζ s) : Kept κ ζ (homePass s a write x) := by
  unfold homePass
  repeat' (first | with_reducible assumption | with_reducible apply setDirEntry_kept | with_reducible intro _ | dsimp only | with_reducible apply ite_kept | with_reducible apply iteO_kept | split)

theorem readPiece_kept (s : State) (g : Agent) (a n : Nat) (hκ : Kept κ ζ s) : Kept κ ζ (readPiece s g a n).1 := by
  unfold readPiece
  repeat' (first | with_reducible assumption | with_reducible apply spadReadLine_kept | with_reducible apply tierRead_kept | with_reducible apply homePass_kept | with_reducible apply foldl_kept | with_reducible apply foldl_kept1 | with_reducible apply foldl_kept11 | with_reducible intro _ | dsimp only | with_reducible apply ite_kept | with_reducible apply iteO_kept | split)

theorem devRead_kept (s : State) (g : Agent) (a n : Nat) (hκ : Kept κ ζ s) : Kept κ ζ (devRead s g a n).1 := by
  unfold devRead
  repeat' (first | with_reducible assumption | with_reducible apply readPiece_kept | with_reducible apply foldl_kept | with_reducible apply foldl_kept1 | with_reducible apply foldl_kept11 | with_reducible intro _ | dsimp only | with_reducible apply ite_kept | with_reducible apply iteO_kept | split)

theorem writePiece_kept (s : State) (g : Agent) (a : Nat) (bs : List Byte) (hκ : Kept κ ζ s) : Kept κ ζ (writePiece s g a bs).1 := by
  unfold writePiece
  repeat' (first | with_reducible assumption | with_reducible apply withSpad_kept | with_reducible apply spadWriteLine_kept | with_reducible apply withMem_kept | with_reducible apply tierWrite_kept | with_reducible apply copyOnWrite_kept | with_reducible apply homePass_kept | with_reducible apply raInvalidate_kept | with_reducible apply foldl_kept | with_reducible apply foldl_kept1 | with_reducible apply foldl_kept11 | with_reducible apply putBytes_keeps | with_reducible apply putBytes_spad_keeps | with_reducible intro _ | dsimp only | with_reducible apply ite_kept | with_reducible apply iteO_kept | split)

theorem devWrite_kept (s : State) (g : Agent) (a : Nat) (bs : List Byte) (hκ : Kept κ ζ s) : Kept κ ζ (devWrite s g a bs).1 := by
  unfold devWrite
  repeat' (first | with_reducible assumption | with_reducible apply writePiece_kept | with_reducible apply foldl_kept | with_reducible apply foldl_kept1 | with_reducible apply foldl_kept11 | with_reducible intro _ | dsimp only | with_reducible apply ite_kept | with_reducible apply iteO_kept | split)

theorem devWords_kept (s : State) (g : Agent) (a : Nat) (ws : List Nat) (hκ : Kept κ ζ s) : Kept κ ζ (devWords s g a ws) := by
  unfold devWords
  repeat' (first | with_reducible assumption | with_reducible apply devWrite_kept | with_reducible intro _ | dsimp only | with_reducible apply ite_kept | with_reducible apply iteO_kept | split)

theorem openSnoop_kept (s : State) (l : Nat) (k : WinReq) (x : Nat) (hκ : Kept κ ζ s) : Kept κ ζ (openSnoop s l k x) := by
  unfold openSnoop
  repeat' (first | with_reducible assumption | with_reducible apply cntAdd_kept | with_reducible apply sendMsg_kept | with_reducible apply foldl_kept | with_reducible apply foldl_kept1 | with_reducible apply foldl_kept11 | with_reducible apply filter_keeps | with_reducible apply filter_spad_keeps | with_reducible intro _ | dsimp only | with_reducible apply ite_kept | with_reducible apply iteO_kept | split)

theorem orWait_kept (s t : State) (hκ : Kept κ ζ s) (hκ1 : Kept κ ζ t) : Kept κ ζ (orWait s t) := by
  unfold orWait
  repeat' (first | with_reducible assumption | with_reducible apply openSnoop_kept | with_reducible apply withIngot_kept | with_reducible apply foldl_kept | with_reducible apply foldl_kept1 | with_reducible apply foldl_kept11 | with_reducible intro _ | dsimp only | with_reducible apply ite_kept | with_reducible apply iteO_kept | split)

end Sys2Proof.Machine
end

