-- ==== Sys2Proof/Laws/Kept/Queue.lean ====
section
/-! SUPPORT. What the operations of Machine/Queue.lean keep. -/
set_option linter.all false
set_option simprocs false
namespace Sys2Proof.Machine
variable {κ : List Instr} {ζ : Bool × List Byte × Bool}

theorem setQ_kept (s : State) (k : Nat) (q : QState) (hκ : Kept κ ζ s) : Kept κ ζ (setQ s k q) := by
  unfold setQ
  repeat' (first | with_reducible assumption | with_reducible intro _ | dsimp only | with_reducible apply ite_kept | with_reducible apply iteO_kept | split)

theorem countChoice_kept (s : State) (kind ctx step unit : Nat) (hκ : Kept κ ζ s) : Kept κ ζ (countChoice s kind ctx step unit) := by
  unfold countChoice
  repeat' (first | with_reducible assumption | with_reducible apply setReg_kept | with_reducible apply logCtx_kept | with_reducible apply cntAdd_kept | with_reducible apply satAdd_kept | with_reducible intro _ | dsimp only | with_reducible apply ite_kept | with_reducible apply iteO_kept | split)

theorem taint_kept (s : State) (cause step source : Nat) (hκ : Kept κ ζ s) : Kept κ ζ (taint s cause step source) := by
  unfold taint
  repeat' (first | with_reducible assumption | with_reducible apply logUnit_kept | with_reducible apply setReg_kept | with_reducible intro _ | dsimp only | with_reducible apply ite_kept | with_reducible apply iteO_kept | split)

theorem dropArrival_kept (s : State) (hκ : Kept κ ζ s) : Kept κ ζ (dropArrival s) := by
  unfold dropArrival
  repeat' (first | with_reducible assumption | with_reducible apply cntAdd_kept | with_reducible intro _ | dsimp only | with_reducible apply ite_kept | with_reducible apply iteO_kept | split)

theorem parityFound_kept (s : State) (code unit line index : Nat) (hκ : Kept κ ζ s) : Kept κ ζ (parityFound s code unit line index) := by
  unfold parityFound
  repeat' (first | with_reducible assumption | with_reducible apply riskAdd_kept | with_reducible apply logUnit_kept | with_reducible apply cntAdd_kept | with_reducible intro _ | dsimp only | with_reducible apply ite_kept | with_reducible apply iteO_kept | split)

theorem requestCut_kept (s : State) (kind step : Nat) (hκ : Kept κ ζ s) : Kept κ ζ (requestCut s kind step) := by
  unfold requestCut
  repeat' (first | with_reducible assumption | with_reducible apply emit_kept | with_reducible apply withIngot_kept | with_reducible apply logCup_kept | with_reducible apply foldl_kept | with_reducible apply foldl_kept1 | with_reducible apply foldl_kept11 | with_reducible apply filter_keeps | with_reducible apply filter_spad_keeps | with_reducible intro _ | dsimp only | with_reducible apply ite_kept | with_reducible apply iteO_kept | split)

theorem stepCut_kept (s : State) (k : Nat) (i : Item) (hκ : Kept κ ζ s) : Kept κ ζ (stepCut s k i) := by
  unfold stepCut
  repeat' (first | with_reducible assumption | with_reducible apply requestCut_kept | with_reducible intro _ | dsimp only | with_reducible apply ite_kept | with_reducible apply iteO_kept | split)

theorem semAdd_kept (s : State) (c x sem n phys item : Nat) (hκ : Kept κ ζ s) : Kept κ ζ (semAdd s c x sem n phys item) := by
  unfold semAdd
  repeat' (first | with_reducible assumption | with_reducible apply setReg_kept | with_reducible apply cntAdd_kept | with_reducible apply logCtx_kept | with_reducible intro _ | dsimp only | with_reducible apply ite_kept | with_reducible apply iteO_kept | split)

theorem ssemAdd_kept (s : State) (x sem n item : Nat) (hκ : Kept κ ζ s) : Kept κ ζ (ssemAdd s x sem n item) := by
  unfold ssemAdd
  repeat' (first | with_reducible assumption | with_reducible apply setReg_kept | with_reducible apply cntAdd_kept | with_reducible apply logCtx_kept | with_reducible intro _ | dsimp only | with_reducible apply ite_kept | with_reducible apply iteO_kept | split)

theorem applySignal_kept (s : State) (c x phys w : Nat) (hκ : Kept κ ζ s) : Kept κ ζ (applySignal s c x phys w) := by
  unfold applySignal
  repeat' (first | with_reducible assumption | with_reducible apply semAdd_kept | with_reducible apply ssemAdd_kept | with_reducible intro _ | dsimp only | with_reducible apply ite_kept | with_reducible apply iteO_kept | split)

theorem writeRecord_kept (s : State) (k : Nat) (r : Record) (hκ : Kept κ ζ s) : Kept κ ζ (writeRecord s k r) := by
  unfold writeRecord
  repeat' (first | with_reducible assumption | with_reducible apply raiseMsix_kept | with_reducible apply setReg_kept | with_reducible apply devWords_kept | with_reducible apply toHost_kept | with_reducible intro _ | dsimp only | with_reducible apply ite_kept | with_reducible apply iteO_kept | split)

theorem putRecord_kept (s : State) (k : Nat) (r : Record) (hκ : Kept κ ζ s) : Kept κ ζ (putRecord s k r) := by
  unfold putRecord
  repeat' (first | with_reducible assumption | with_reducible apply writeRecord_kept | with_reducible apply setQ_kept | with_reducible intro _ | dsimp only | with_reducible apply ite_kept | with_reducible apply iteO_kept | split)

theorem releaseHeld_kept (n : Nat) (s : State) (k : Nat) (hk : Kept κ ζ s) : Kept κ ζ (releaseHeld n s k) := by
  induction n generalizing s with
  | zero => exact hk
  | succ n ih =>
    unfold releaseHeld
    dsimp only
    split
    · exact hk
    · split
      · exact hk
      · exact ih _ (writeRecord_kept _ _ _ (setQ_kept _ _ _ hk))

theorem setItem_kept (s : State) (k idx : Nat) (f : Item → Item) (hκ : Kept κ ζ s) : Kept κ ζ (setItem s k idx f) := by
  unfold setItem
  repeat' (first | with_reducible assumption | with_reducible apply setQ_kept | with_reducible intro _ | dsimp only | with_reducible apply ite_kept | with_reducible apply iteO_kept | split)

theorem itemDone_kept (s : State) (k idx status detail : Nat) (hκ : Kept κ ζ s) : Kept κ ζ (itemDone s k idx status detail) := by
  unfold itemDone
  repeat' (first | with_reducible assumption | with_reducible apply done_kept | with_reducible apply setItem_kept | with_reducible intro _ | dsimp only | with_reducible apply ite_kept | with_reducible apply iteO_kept | split)

end Sys2Proof.Machine
end

