-- ==== Sys2Proof/Laws/Kept/Gate.lean ====
section
/-! SUPPORT. What the operations of Machine/Gate.lean keep. -/
set_option linter.all false
set_option simprocs false
namespace Sys2Proof.Machine
variable {κ : List Instr} {ζ : Bool × List Byte × Bool}

theorem discardWalk_kept (n : Nat) (s : State) (k : Nat) (hk : Kept κ ζ s) : Kept κ ζ (discardWalk n s k) := by
  induction n generalizing s with
  | zero => exact hk
  | succ n ih =>
    unfold discardWalk
    dsimp only
    repeat' split
    all_goals first
      | exact hk
      | exact ih _ (setQ_kept _ _ _ (setReg_kept _ _ _ hk))
      | exact logCtx_kept _ _ _ _ _ _ (putRecord_kept _ _ _ (setReg_kept _ _ _ (setQ_kept _ _ _ (setReg_kept _ _ _ hk))))

theorem runWalk_kept (s : State) (k : Nat) (hκ : Kept κ ζ s) : Kept κ ζ (runWalk s k) := by
  unfold runWalk
  repeat' (first | with_reducible assumption | with_reducible apply discardWalk_kept | with_reducible intro _ | dsimp only | with_reducible apply ite_kept | with_reducible apply iteO_kept | split)

theorem discardDoorbell_kept (s : State) (src : Src) (k count off : Nat) (hκ : Kept κ ζ s) : Kept κ ζ (discardDoorbell s src k count off) := by
  unfold discardDoorbell
  repeat' (first | with_reducible assumption | with_reducible apply logDiscard_kept | with_reducible apply logSrc_kept | with_reducible intro _ | dsimp only | with_reducible apply ite_kept | with_reducible apply iteO_kept | split)

theorem doorbell_kept (s : State) (src : Src) (k count off : Nat) (hκ : Kept κ ζ s) : Kept κ ζ (doorbell s src k count off) := by
  unfold doorbell
  repeat' (first | with_reducible assumption | with_reducible apply setReg_kept | with_reducible apply runWalk_kept | with_reducible apply discardDoorbell_kept | with_reducible intro _ | dsimp only | with_reducible apply ite_kept | with_reducible apply iteO_kept | split)

theorem doorbellWrite_kept (s : State) (src : Src) (off width value : Nat) (hκ : Kept κ ζ s) : Kept κ ζ (doorbellWrite s src off width value) := by
  unfold doorbellWrite
  repeat' (first | with_reducible assumption | with_reducible apply doorbell_kept | with_reducible apply logDiscard_kept | with_reducible intro _ | dsimp only | with_reducible apply ite_kept | with_reducible apply iteO_kept | split)

theorem execDoorbell_kept (src : Src) (off width value : Nat) (s : State) (hκ : Kept κ ζ s) : KeptO κ ζ (execDoorbell src off width value s) := by
  unfold execDoorbell
  repeat' (first | with_reducible assumption | with_reducible apply next_kept | with_reducible apply fault_kept | with_reducible apply done_kept | with_reducible apply doorbellWrite_kept | with_reducible apply logDiscard_kept | with_reducible apply emit_kept | with_reducible intro _ | dsimp only | with_reducible apply ite_kept | with_reducible apply iteO_kept | split)

theorem countProgress_kept (s : State) (hκ : Kept κ ζ s) : Kept κ ζ (countProgress s) := by
  unfold countProgress
  repeat' (first | with_reducible assumption | with_reducible apply cntAdd_kept | with_reducible intro _ | dsimp only | with_reducible apply ite_kept | with_reducible apply iteO_kept | split)

theorem slagCount_kept (s : State) (x step op : Nat) (e : SlagOwed) (absurd : Nat) (hκ : Kept κ ζ s) : Kept κ ζ (slagCount s x step op e absurd) := by
  unfold slagCount
  repeat' (first | with_reducible assumption | with_reducible apply devWrite_kept | with_reducible apply logCtx_kept | with_reducible apply setReg_kept | with_reducible apply cntAdd_kept | with_reducible intro _ | dsimp only | with_reducible apply ite_kept | with_reducible apply iteO_kept | split)

theorem resetQueue_kept (s : State) (k : Nat) (hκ : Kept κ ζ s) : Kept κ ζ (resetQueue s k) := by
  unfold resetQueue
  repeat' (first | with_reducible assumption | with_reducible apply cntAdd_kept | with_reducible apply setQ_kept | with_reducible apply setReg_kept | with_reducible apply filter_keeps | with_reducible apply filter_spad_keeps | with_reducible intro _ | dsimp only | with_reducible apply ite_kept | with_reducible apply iteO_kept | split)

theorem dropItem_kept (s : State) (k idx : Nat) (hκ : Kept κ ζ s) : Kept κ ζ (dropItem s k idx) := by
  unfold dropItem
  repeat' (first | with_reducible assumption | with_reducible apply putRecord_kept | with_reducible apply setQ_kept | with_reducible apply filter_keeps | with_reducible apply filter_spad_keeps | with_reducible intro _ | dsimp only | with_reducible apply ite_kept | with_reducible apply iteO_kept | split)

theorem recordItem_kept (s : State) (k : Nat) (i : Item) (r : Record) (hκ : Kept κ ζ s) : Kept κ ζ (recordItem s k i r) := by
  unfold recordItem
  repeat' (first | with_reducible assumption | with_reducible apply putRecord_kept | with_reducible apply setQ_kept | with_reducible intro _ | dsimp only | with_reducible apply ite_kept | with_reducible apply iteO_kept | split)

theorem completeItem_kept (s : State) (k : Nat) (i : Item) (status detail : Nat) (hκ : Kept κ ζ s) : Kept κ ζ (completeItem s k i status detail) := by
  unfold completeItem
  repeat' (first | with_reducible assumption | with_reducible apply countProgress_kept | with_reducible apply dropItem_kept | with_reducible apply stepCut_kept | with_reducible apply logCtx_kept | with_reducible apply taint_kept | with_reducible apply recordItem_kept | with_reducible apply slagCount_kept | with_reducible apply applySignal_kept | with_reducible apply foldl_kept | with_reducible apply foldl_kept1 | with_reducible apply foldl_kept11 | with_reducible intro _ | dsimp only | with_reducible apply ite_kept | with_reducible apply iteO_kept | split)

theorem execItemComplete_kept (c x q idx : Nat) (s : State) (hκ : Kept κ ζ s) : KeptO κ ζ (execItemComplete c x q idx s) := by
  unfold execItemComplete
  repeat' (first | with_reducible assumption | with_reducible apply next_kept | with_reducible apply fault_kept | with_reducible apply done_kept | with_reducible apply completeItem_kept | with_reducible apply orWait_kept | with_reducible apply done_kept | with_reducible intro _ | dsimp only | with_reducible apply ite_kept | with_reducible apply iteO_kept | split)

theorem issueItem_kept (s : State) (k idx : Nat) (hκ : Kept κ ζ s) : Kept κ ζ (issueItem s k idx) := by
  unfold issueItem
  repeat' (first | with_reducible assumption | with_reducible apply setItem_kept | with_reducible intro _ | dsimp only | with_reducible apply ite_kept | with_reducible apply iteO_kept | split)

theorem execNop_kept (c x q : Nat) (s : State) (hκ : Kept κ ζ s) : KeptO κ ζ (execNop c x q s) := by
  unfold execNop
  repeat' (first | with_reducible assumption | with_reducible apply next_kept | with_reducible apply fault_kept | with_reducible apply done_kept | with_reducible apply completeItem_kept | with_reducible intro _ | dsimp only | with_reducible apply ite_kept | with_reducible apply iteO_kept | split)

theorem execStep_kept (c x q : Nat) (s : State) (hκ : Kept κ ζ s) : KeptO κ ζ (execStep c x q s) := by
  unfold execStep
  repeat' (first | with_reducible assumption | with_reducible apply next_kept | with_reducible apply fault_kept | with_reducible apply done_kept | with_reducible apply completeItem_kept | with_reducible intro _ | dsimp only | with_reducible apply ite_kept | with_reducible apply iteO_kept | split)

theorem execSemSignal_kept (c x q : Nat) (s : State) (hκ : Kept κ ζ s) : KeptO κ ζ (execSemSignal c x q s) := by
  unfold execSemSignal
  repeat' (first | with_reducible assumption | with_reducible apply next_kept | with_reducible apply fault_kept | with_reducible apply done_kept | with_reducible apply applySignal_kept | with_reducible apply completeItem_kept | with_reducible intro _ | dsimp only | with_reducible apply ite_kept | with_reducible apply iteO_kept | split)

theorem execSemSet_kept (c x q : Nat) (s : State) (hκ : Kept κ ζ s) : KeptO κ ζ (execSemSet c x q s) := by
  unfold execSemSet
  repeat' (first | with_reducible assumption | with_reducible apply next_kept | with_reducible apply fault_kept | with_reducible apply done_kept | with_reducible apply setReg_kept | with_reducible apply completeItem_kept | with_reducible intro _ | dsimp only | with_reducible apply ite_kept | with_reducible apply iteO_kept | split)

theorem evalWait_kept (s : State) (k : Nat) (i : Item) (hκ : Kept κ ζ s) : Kept κ ζ (evalWait s k i) := by
  unfold evalWait
  repeat' (first | with_reducible assumption | with_reducible apply completeItem_kept | with_reducible apply countChoice_kept | with_reducible apply setReg_kept | with_reducible intro _ | dsimp only | with_reducible apply ite_kept | with_reducible apply iteO_kept | split)

theorem execSemWait_kept (c x q : Nat) (s : State) (hκ : Kept κ ζ s) : KeptO κ ζ (execSemWait c x q s) := by
  unfold execSemWait
  repeat' (first | with_reducible assumption | with_reducible apply next_kept | with_reducible apply fault_kept | with_reducible apply done_kept | with_reducible apply evalWait_kept | with_reducible apply setItem_kept | with_reducible intro _ | dsimp only | with_reducible apply ite_kept | with_reducible apply iteO_kept | split)

theorem execSemWaitSatisfied_kept (c x q : Nat) (s : State) (hκ : Kept κ ζ s) : KeptO κ ζ (execSemWaitSatisfied c x q s) := by
  unfold execSemWaitSatisfied
  repeat' (first | with_reducible assumption | with_reducible apply next_kept | with_reducible apply fault_kept | with_reducible apply done_kept | with_reducible apply evalWait_kept | with_reducible intro _ | dsimp only | with_reducible apply ite_kept | with_reducible apply iteO_kept | split)

theorem semWrite_kept (s : State) (src : Src) (c x sem value : Nat) (hκ : Kept κ ζ s) : Kept κ ζ (semWrite s src c x sem value) := by
  unfold semWrite
  repeat' (first | with_reducible assumption | with_reducible apply logAccepted_kept | with_reducible apply setReg_kept | with_reducible intro _ | dsimp only | with_reducible apply ite_kept | with_reducible apply iteO_kept | split)

theorem execCruSemWrite_kept (src : Src) (c x sem : Nat) (value : Word) (s : State) (hκ : Kept κ ζ s) : KeptO κ ζ (execCruSemWrite src c x sem value s) := by
  unfold execCruSemWrite
  repeat' (first | with_reducible assumption | with_reducible apply next_kept | with_reducible apply fault_kept | with_reducible apply done_kept | with_reducible apply semWrite_kept | with_reducible apply emit_kept | with_reducible intro _ | dsimp only | with_reducible apply ite_kept | with_reducible apply iteO_kept | split)

theorem flush_kept (s : State) (src : Src) (k wr : Nat) (hκ : Kept κ ζ s) : Kept κ ζ (flush s src k wr) := by
  unfold flush
  repeat' (first | with_reducible assumption | with_reducible apply putRecord_kept | with_reducible apply logCtx_kept | with_reducible apply setReg_kept | with_reducible apply logAccepted_kept | with_reducible apply logDiscard_kept | with_reducible intro _ | dsimp only | with_reducible apply ite_kept | with_reducible apply iteO_kept | split)

theorem execCruQFlush_kept (src : Src) (c x q : Nat) (wr : Word) (s : State) (hκ : Kept κ ζ s) : KeptO κ ζ (execCruQFlush src c x q wr s) := by
  unfold execCruQFlush
  repeat' (first | with_reducible assumption | with_reducible apply next_kept | with_reducible apply fault_kept | with_reducible apply done_kept | with_reducible apply flush_kept | with_reducible apply orWait_kept | with_reducible apply emit_kept | with_reducible intro _ | dsimp only | with_reducible apply ite_kept | with_reducible apply iteO_kept | split)

theorem queueEnable_kept (s : State) (src : Src) (k size : Nat) (note : Bool) (hκ : Kept κ ζ s) : Kept κ ζ (queueEnable s src k size note) := by
  unfold queueEnable
  repeat' (first | with_reducible assumption | with_reducible apply setReg_kept | with_reducible apply logAccIf_kept | with_reducible apply runWalk_kept | with_reducible apply logDiscard_kept | with_reducible intro _ | dsimp only | with_reducible apply ite_kept | with_reducible apply iteO_kept | split)

theorem execCruQEnable_kept (src : Src) (c x q size : Nat) (s : State) (hκ : Kept κ ζ s) : KeptO κ ζ (execCruQEnable src c x q size s) := by
  unfold execCruQEnable
  repeat' (first | with_reducible assumption | with_reducible apply next_kept | with_reducible apply fault_kept | with_reducible apply done_kept | with_reducible apply queueEnable_kept | with_reducible apply orWait_kept | with_reducible apply emit_kept | with_reducible intro _ | dsimp only | with_reducible apply ite_kept | with_reducible apply iteO_kept | split)

theorem queueDisable_kept (s : State) (src : Src) (k : Nat) (note : Bool) (hκ : Kept κ ζ s) : Kept κ ζ (queueDisable s src k note) := by
  unfold queueDisable
  repeat' (first | with_reducible assumption | with_reducible apply setReg_kept | with_reducible apply logAccIf_kept | with_reducible intro _ | dsimp only | with_reducible apply ite_kept | with_reducible apply iteO_kept | split)

theorem execCruQDisable_kept (src : Src) (c x q : Nat) (s : State) (hκ : Kept κ ζ s) : KeptO κ ζ (execCruQDisable src c x q s) := by
  unfold execCruQDisable
  repeat' (first | with_reducible assumption | with_reducible apply next_kept | with_reducible apply fault_kept | with_reducible apply done_kept | with_reducible apply queueDisable_kept | with_reducible apply emit_kept | with_reducible intro _ | dsimp only | with_reducible apply ite_kept | with_reducible apply iteO_kept | split)

theorem orderReset_kept (s : State) (src : Src) (k : Nat) (note : Bool) (hκ : Kept κ ζ s) : Kept κ ζ (orderReset s src k note) := by
  unfold orderReset
  repeat' (first | with_reducible assumption | with_reducible apply resetQueue_kept | with_reducible apply setQ_kept | with_reducible apply logAccIf_kept | with_reducible apply filter_keeps | with_reducible apply filter_spad_keeps | with_reducible intro _ | dsimp only | with_reducible apply ite_kept | with_reducible apply iteO_kept | split)

theorem execCruQReset_kept (src : Src) (c x q : Nat) (s : State) (hκ : Kept κ ζ s) : KeptO κ ζ (execCruQReset src c x q s) := by
  unfold execCruQReset
  repeat' (first | with_reducible assumption | with_reducible apply next_kept | with_reducible apply fault_kept | with_reducible apply done_kept | with_reducible apply orderReset_kept | with_reducible apply emit_kept | with_reducible intro _ | dsimp only | with_reducible apply ite_kept | with_reducible apply iteO_kept | split)

theorem execCruQResetAct_kept (c x q : Nat) (s : State) (hκ : Kept κ ζ s) : KeptO κ ζ (execCruQResetAct c x q s) := by
  unfold execCruQResetAct
  repeat' (first | with_reducible assumption | with_reducible apply next_kept | with_reducible apply fault_kept | with_reducible apply done_kept | with_reducible apply resetQueue_kept | with_reducible intro _ | dsimp only | with_reducible apply ite_kept | with_reducible apply iteO_kept | split)

theorem resume_kept (s : State) (src : Src) (k : Nat) (note : Bool) (hκ : Kept κ ζ s) : Kept κ ζ (resume s src k note) := by
  unfold resume
  repeat' (first | with_reducible assumption | with_reducible apply runWalk_kept | with_reducible apply logCtx_kept | with_reducible apply putRecord_kept | with_reducible apply setReg_kept | with_reducible apply setQ_kept | with_reducible apply logAccIf_kept | with_reducible apply logDiscard_kept | with_reducible intro _ | dsimp only | with_reducible apply ite_kept | with_reducible apply iteO_kept | split)

theorem execCruQResume_kept (src : Src) (c x q : Nat) (s : State) (hκ : Kept κ ζ s) : KeptO κ ζ (execCruQResume src c x q s) := by
  unfold execCruQResume
  repeat' (first | with_reducible assumption | with_reducible apply next_kept | with_reducible apply fault_kept | with_reducible apply done_kept | with_reducible apply resume_kept | with_reducible apply orWait_kept | with_reducible apply emit_kept | with_reducible intro _ | dsimp only | with_reducible apply ite_kept | with_reducible apply iteO_kept | split)

theorem cqHeadWrite_kept (s : State) (src : Src) (k v : Nat) (hκ : Kept κ ζ s) : Kept κ ζ (cqHeadWrite s src k v) := by
  unfold cqHeadWrite
  repeat' (first | with_reducible assumption | with_reducible apply releaseHeld_kept | with_reducible apply logAccepted_kept | with_reducible apply setReg_kept | with_reducible intro _ | dsimp only | with_reducible apply ite_kept | with_reducible apply iteO_kept | split)

theorem execCruQCqHeadWrite_kept (src : Src) (c x q : Nat) (v : Word) (s : State) (hκ : Kept κ ζ s) : KeptO κ ζ (execCruQCqHeadWrite src c x q v s) := by
  unfold execCruQCqHeadWrite
  repeat' (first | with_reducible assumption | with_reducible apply next_kept | with_reducible apply fault_kept | with_reducible apply done_kept | with_reducible apply cqHeadWrite_kept | with_reducible apply orWait_kept | with_reducible apply emit_kept | with_reducible intro _ | dsimp only | with_reducible apply ite_kept | with_reducible apply iteO_kept | split)

end Sys2Proof.Machine
end

