-- ==== Sys2Proof/Laws/Kept/Tundish.lean ====
section
/-! SUPPORT. What the operations of Machine/Tundish.lean keep. -/
set_option linter.all false
set_option simprocs false
namespace Sys2Proof.Machine
variable {κ : List Instr} {ζ : Bool × List Byte × Bool}

theorem withTnd_kept (s : State) (t : Tundish) (hκ : Kept κ ζ s) : Kept κ ζ (State.withTnd s t) := by
  unfold State.withTnd
  repeat' (first | with_reducible assumption | with_reducible intro _ | dsimp only | with_reducible apply ite_kept | with_reducible apply iteO_kept | split)

theorem setCtxState_kept (s : State) (x n : Nat) (hκ : Kept κ ζ s) : Kept κ ζ (setCtxState s x n) := by
  unfold setCtxState
  repeat' (first | with_reducible assumption | with_reducible apply withTnd_kept | with_reducible intro _ | dsimp only | with_reducible apply ite_kept | with_reducible apply iteO_kept | split)

theorem saveQueues_kept (s : State) (c x : Nat) (hκ : Kept κ ζ s) : Kept κ ζ (saveQueues s c x) := by
  unfold saveQueues
  repeat' (first | with_reducible assumption | with_reducible apply setReg_kept | with_reducible apply setQ_kept | with_reducible apply withTnd_kept | with_reducible apply forEach_kept | with_reducible apply foldl_kept | with_reducible apply foldl_kept1 | with_reducible apply foldl_kept11 | with_reducible intro _ | dsimp only | with_reducible apply ite_kept | with_reducible apply iteO_kept | split)

theorem beginSwitch_kept (s : State) (c : Nat) (nxt : Option Nat) (extra : Nat) (hκ : Kept κ ζ s) : Kept κ ζ (beginSwitch s c nxt extra) := by
  unfold beginSwitch
  repeat' (first | with_reducible assumption | with_reducible apply setCru_kept | with_reducible apply saveQueues_kept | with_reducible intro _ | dsimp only | with_reducible apply ite_kept | with_reducible apply iteO_kept | split)

theorem beginMove_kept (s : State) (c : Nat) (hκ : Kept κ ζ s) : Kept κ ζ (beginMove s c) := by
  unfold beginMove
  repeat' (first | with_reducible assumption | with_reducible apply withTnd_kept | with_reducible apply drawNat_kept | with_reducible apply beginSwitch_kept | with_reducible apply cntAdd_kept | with_reducible intro _ | dsimp only | with_reducible apply ite_kept | with_reducible apply iteO_kept | split)

theorem arbitrate_kept (s : State) (c : Nat) (hκ : Kept κ ζ s) : Kept κ ζ (arbitrate s c) := by
  unfold arbitrate
  repeat' (first | with_reducible assumption | with_reducible apply beginSwitch_kept | with_reducible apply beginMove_kept | with_reducible intro _ | dsimp only | with_reducible apply ite_kept | with_reducible apply iteO_kept | split)

theorem execArbitration_kept (c : Nat) (s : State) (hκ : Kept κ ζ s) : KeptO κ ζ (execArbitration c s) := by
  unfold execArbitration
  repeat' (first | with_reducible assumption | with_reducible apply next_kept | with_reducible apply fault_kept | with_reducible apply done_kept | with_reducible apply arbitrate_kept | with_reducible intro _ | dsimp only | with_reducible apply ite_kept | with_reducible apply iteO_kept | split)

theorem execQuantumExpiry_kept (c : Nat) (s : State) (hκ : Kept κ ζ s) : KeptO κ ζ (execQuantumExpiry c s) := by
  unfold execQuantumExpiry
  repeat' (first | with_reducible assumption | with_reducible apply next_kept | with_reducible apply fault_kept | with_reducible apply done_kept | with_reducible apply arbitrate_kept | with_reducible intro _ | dsimp only | with_reducible apply ite_kept | with_reducible apply iteO_kept | split)

theorem settleStop_kept (s : State) (x : Nat) (hκ : Kept κ ζ s) : Kept κ ζ (settleStop s x) := by
  unfold settleStop
  repeat' (first | with_reducible assumption | with_reducible apply setCtxState_kept | with_reducible intro _ | dsimp only | with_reducible apply ite_kept | with_reducible apply iteO_kept | split)

theorem settleLate_kept (s : State) (c x cost : Nat) (hκ : Kept κ ζ s) : Kept κ ζ (settleLate s c x cost) := by
  unfold settleLate
  repeat' (first | with_reducible assumption | with_reducible apply cntAdd_kept | with_reducible apply logCtx_kept | with_reducible apply withTnd_kept | with_reducible apply filter_keeps | with_reducible apply filter_spad_keeps | with_reducible intro _ | dsimp only | with_reducible apply ite_kept | with_reducible apply iteO_kept | split)

theorem execContextSwitchEnd_kept (c : Nat) (s : State) (hκ : Kept κ ζ s) : KeptO κ ζ (execContextSwitchEnd c s) := by
  unfold execContextSwitchEnd
  repeat' (first | with_reducible assumption | with_reducible apply next_kept | with_reducible apply fault_kept | with_reducible apply done_kept | with_reducible apply settleStop_kept | with_reducible apply settleLate_kept | with_reducible apply withTnd_kept | with_reducible apply cntAdd_kept | with_reducible apply setCru_kept | with_reducible apply foldl_kept | with_reducible apply foldl_kept1 | with_reducible apply foldl_kept11 | with_reducible apply filter_keeps | with_reducible apply filter_spad_keeps | with_reducible intro _ | dsimp only | with_reducible apply ite_kept | with_reducible apply iteO_kept | split)

theorem execMoveEnd_kept (c : Nat) (s : State) (hκ : Kept κ ζ s) : KeptO κ ζ (execMoveEnd c s) := by
  unfold execMoveEnd
  repeat' (first | with_reducible assumption | with_reducible apply next_kept | with_reducible apply fault_kept | with_reducible apply done_kept | with_reducible apply cntAdd_kept | with_reducible apply logUnit_kept | with_reducible apply settleStop_kept | with_reducible apply settleLate_kept | with_reducible apply setQ_kept | with_reducible apply forEach_kept | with_reducible apply withTnd_kept | with_reducible apply setCru_kept | with_reducible apply foldl_kept | with_reducible apply foldl_kept1 | with_reducible apply foldl_kept11 | with_reducible apply filter_keeps | with_reducible apply filter_spad_keeps | with_reducible intro _ | dsimp only | with_reducible apply ite_kept | with_reducible apply iteO_kept | split)

theorem orderMove_kept (s : State) (c : Nat) (fettle : Bool) (hκ : Kept κ ζ s) : Kept κ ζ (orderMove s c fettle) := by
  unfold orderMove
  repeat' (first | with_reducible assumption | with_reducible apply withTnd_kept | with_reducible apply arbitrate_kept | with_reducible intro _ | dsimp only | with_reducible apply ite_kept | with_reducible apply iteO_kept | split)

theorem execTndMoveReq_kept (src : Src) (c : Nat) (s : State) (hκ : Kept κ ζ s) : KeptO κ ζ (execTndMoveReq src c s) := by
  unfold execTndMoveReq
  repeat' (first | with_reducible assumption | with_reducible apply next_kept | with_reducible apply fault_kept | with_reducible apply done_kept | with_reducible apply orderMove_kept | with_reducible apply setReg_kept | with_reducible apply logAccepted_kept | with_reducible apply emit_kept | with_reducible intro _ | dsimp only | with_reducible apply ite_kept | with_reducible apply iteO_kept | split)

theorem ctxStop_kept (s : State) (src : Src) (x : Nat) (note : Bool) (hκ : Kept κ ζ s) : Kept κ ζ (ctxStop s src x note) := by
  unfold ctxStop
  repeat' (first | with_reducible assumption | with_reducible apply arbitrate_kept | with_reducible apply settleStop_kept | with_reducible apply setCtxState_kept | with_reducible apply setReg_kept | with_reducible apply logAccIf_kept | with_reducible apply foldl_kept | with_reducible apply foldl_kept1 | with_reducible apply foldl_kept11 | with_reducible intro _ | dsimp only | with_reducible apply ite_kept | with_reducible apply iteO_kept | split)

theorem execTndCtxStop_kept (src : Src) (x : Nat) (s : State) (hκ : Kept κ ζ s) : KeptO κ ζ (execTndCtxStop src x s) := by
  unfold execTndCtxStop
  repeat' (first | with_reducible assumption | with_reducible apply next_kept | with_reducible apply fault_kept | with_reducible apply done_kept | with_reducible apply ctxStop_kept | with_reducible apply emit_kept | with_reducible intro _ | dsimp only | with_reducible apply ite_kept | with_reducible apply iteO_kept | split)

theorem ctxUnstop_kept (s : State) (src : Src) (x : Nat) (note : Bool) (hκ : Kept κ ζ s) : Kept κ ζ (ctxUnstop s src x note) := by
  unfold ctxUnstop
  repeat' (first | with_reducible assumption | with_reducible apply setCtxState_kept | with_reducible apply setReg_kept | with_reducible apply logAccIf_kept | with_reducible intro _ | dsimp only | with_reducible apply ite_kept | with_reducible apply iteO_kept | split)

theorem execTndCtxUnstop_kept (src : Src) (x : Nat) (s : State) (hκ : Kept κ ζ s) : KeptO κ ζ (execTndCtxUnstop src x s) := by
  unfold execTndCtxUnstop
  repeat' (first | with_reducible assumption | with_reducible apply next_kept | with_reducible apply fault_kept | with_reducible apply done_kept | with_reducible apply ctxUnstop_kept | with_reducible apply emit_kept | with_reducible intro _ | dsimp only | with_reducible apply ite_kept | with_reducible apply iteO_kept | split)

theorem applyCset_kept (s : State) (src : Src) (x : Nat) (note : Bool) (hκ : Kept κ ζ s) : Kept κ ζ (applyCset s src x note) := by
  unfold applyCset
  repeat' (first | with_reducible assumption | with_reducible apply arbitrate_kept | with_reducible apply setReg_kept | with_reducible apply forEach_kept | with_reducible apply logCtx_kept | with_reducible apply logAccIf_kept | with_reducible apply foldl_kept | with_reducible apply foldl_kept1 | with_reducible apply foldl_kept11 | with_reducible intro _ | dsimp only | with_reducible apply ite_kept | with_reducible apply iteO_kept | split)

theorem execApplyCset_kept (src : Src) (x : Nat) (s : State) (hκ : Kept κ ζ s) : KeptO κ ζ (execApplyCset src x s) := by
  unfold execApplyCset
  repeat' (first | with_reducible assumption | with_reducible apply next_kept | with_reducible apply fault_kept | with_reducible apply done_kept | with_reducible apply applyCset_kept | with_reducible apply emit_kept | with_reducible intro _ | dsimp only | with_reducible apply ite_kept | with_reducible apply iteO_kept | split)

theorem execSlotGuardOpen_kept (slot : Nat) (s : State) (hκ : Kept κ ζ s) : KeptO κ ζ (execSlotGuardOpen slot s) := by
  unfold execSlotGuardOpen
  repeat' (first | with_reducible assumption | with_reducible apply next_kept | with_reducible apply fault_kept | with_reducible apply done_kept | with_reducible apply withTnd_kept | with_reducible intro _ | dsimp only | with_reducible apply ite_kept | with_reducible apply iteO_kept | split)

theorem tableError_kept (s : State) (table entry errors : Nat) (hκ : Kept κ ζ s) : Kept κ ζ (tableError s table entry errors) := by
  unfold tableError
  repeat' (first | with_reducible assumption | with_reducible apply logUnit_kept | with_reducible intro _ | dsimp only | with_reducible apply ite_kept | with_reducible apply iteO_kept | split)

theorem execSlotStart_kept (slot ecc : Nat) (s0 : State) (hκ : Kept κ ζ s0) : KeptO κ ζ (execSlotStart slot ecc s0) := by
  unfold execSlotStart
  repeat' (first | with_reducible assumption | with_reducible apply next_kept | with_reducible apply fault_kept | with_reducible apply done_kept | with_reducible apply arbitrate_kept | with_reducible apply withTnd_kept | with_reducible apply tableError_kept | with_reducible apply foldl_kept | with_reducible apply foldl_kept1 | with_reducible apply foldl_kept11 | with_reducible apply filter_keeps | with_reducible apply filter_spad_keeps | with_reducible intro _ | dsimp only | with_reducible apply ite_kept | with_reducible apply iteO_kept | split)

theorem execSlotEnd_kept (slot : Nat) (s : State) (hκ : Kept κ ζ s) : KeptO κ ζ (execSlotEnd slot s) := by
  unfold execSlotEnd
  repeat' (first | with_reducible assumption | with_reducible apply next_kept | with_reducible apply fault_kept | with_reducible apply done_kept | with_reducible apply withTnd_kept | with_reducible apply cntAdd_kept | with_reducible apply logCtx_kept | with_reducible apply foldl_kept | with_reducible apply foldl_kept1 | with_reducible apply foldl_kept11 | with_reducible apply filter_keeps | with_reducible apply filter_spad_keeps | with_reducible intro _ | dsimp only | with_reducible apply ite_kept | with_reducible apply iteO_kept | split)

theorem execTndSchedSwap_kept (src : Src) (s : State) (hκ : Kept κ ζ s) : KeptO κ ζ (execTndSchedSwap src s) := by
  unfold execTndSchedSwap
  repeat' (first | with_reducible assumption | with_reducible apply next_kept | with_reducible apply fault_kept | with_reducible apply done_kept | with_reducible apply setReg_kept | with_reducible apply logAccepted_kept | with_reducible apply emit_kept | with_reducible intro _ | dsimp only | with_reducible apply ite_kept | with_reducible apply iteO_kept | split)

theorem execSchedSwapApply_kept (s : State) (hκ : Kept κ ζ s) : KeptO κ ζ (execSchedSwapApply s) := by
  unfold execSchedSwapApply
  repeat' (first | with_reducible assumption | with_reducible apply next_kept | with_reducible apply fault_kept | with_reducible apply done_kept | with_reducible apply withTnd_kept | with_reducible apply setReg64_kept | with_reducible apply setReg_kept | with_reducible apply logUnit_kept | with_reducible intro _ | dsimp only | with_reducible apply ite_kept | with_reducible apply iteO_kept | split)

theorem ssemWrite_kept (s : State) (src : Src) (sem v : Nat) (hκ : Kept κ ζ s) : Kept κ ζ (ssemWrite s src sem v) := by
  unfold ssemWrite
  repeat' (first | with_reducible assumption | with_reducible apply logAccepted_kept | with_reducible apply setReg_kept | with_reducible intro _ | dsimp only | with_reducible apply ite_kept | with_reducible apply iteO_kept | split)

theorem execTndSsemValWrite_kept (src : Src) (sem : Nat) (v : Word) (s : State) (hκ : Kept κ ζ s) : KeptO κ ζ (execTndSsemValWrite src sem v s) := by
  unfold execTndSsemValWrite
  repeat' (first | with_reducible assumption | with_reducible apply next_kept | with_reducible apply fault_kept | with_reducible apply done_kept | with_reducible apply ssemWrite_kept | with_reducible apply emit_kept | with_reducible intro _ | dsimp only | with_reducible apply ite_kept | with_reducible apply iteO_kept | split)

theorem inherit__kept (s : State) (x sem : Nat) (hκ : Kept κ ζ s) : Kept κ ζ (inherit_ s x sem) := by
  unfold inherit_
  repeat' (first | with_reducible assumption | with_reducible apply arbitrate_kept | with_reducible apply cntAdd_kept | with_reducible apply withTnd_kept | with_reducible apply logCtx_kept | with_reducible apply filter_keeps | with_reducible apply filter_spad_keeps | with_reducible intro _ | dsimp only | with_reducible apply ite_kept | with_reducible apply iteO_kept | split)

theorem evalShared_kept (s : State) (k : Nat) (i : Item) (hκ : Kept κ ζ s) : Kept κ ζ (evalShared s k i) := by
  unfold evalShared
  repeat' (first | with_reducible assumption | with_reducible apply completeItem_kept | with_reducible apply withTnd_kept | with_reducible apply countChoice_kept | with_reducible apply setReg_kept | with_reducible apply inherit__kept | with_reducible apply filter_keeps | with_reducible apply filter_spad_keeps | with_reducible intro _ | dsimp only | with_reducible apply ite_kept | with_reducible apply iteO_kept | split)

theorem execSemWaitShared_kept (c x q : Nat) (s : State) (hκ : Kept κ ζ s) : KeptO κ ζ (execSemWaitShared c x q s) := by
  unfold execSemWaitShared
  repeat' (first | with_reducible assumption | with_reducible apply next_kept | with_reducible apply fault_kept | with_reducible apply done_kept | with_reducible apply evalShared_kept | with_reducible apply withTnd_kept | with_reducible apply setItem_kept | with_reducible intro _ | dsimp only | with_reducible apply ite_kept | with_reducible apply iteO_kept | split)

theorem execSsemWaitSatisfied_kept (c x q : Nat) (s : State) (hκ : Kept κ ζ s) : KeptO κ ζ (execSsemWaitSatisfied c x q s) := by
  unfold execSsemWaitSatisfied
  repeat' (first | with_reducible assumption | with_reducible apply next_kept | with_reducible apply fault_kept | with_reducible apply done_kept | with_reducible apply evalShared_kept | with_reducible apply arbitrate_kept | with_reducible apply inherit__kept | with_reducible intro _ | dsimp only | with_reducible apply ite_kept | with_reducible apply iteO_kept | split)

theorem execLendReturn_kept (c : Nat) (s : State) (hκ : Kept κ ζ s) : KeptO κ ζ (execLendReturn c s) := by
  unfold execLendReturn
  repeat' (first | with_reducible assumption | with_reducible apply next_kept | with_reducible apply fault_kept | with_reducible apply done_kept | with_reducible apply arbitrate_kept | with_reducible apply beginSwitch_kept | with_reducible apply withTnd_kept | with_reducible apply filter_keeps | with_reducible apply filter_spad_keeps | with_reducible intro _ | dsimp only | with_reducible apply ite_kept | with_reducible apply iteO_kept | split)

theorem setBatch_kept (s : State) (x : Nat) (b : BatchState) (hκ : Kept κ ζ s) : Kept κ ζ (setBatch s x b) := by
  unfold setBatch
  repeat' (first | with_reducible assumption | with_reducible apply withTnd_kept | with_reducible intro _ | dsimp only | with_reducible apply ite_kept | with_reducible apply iteO_kept | split)

theorem applyFlip_kept (s : State) (x : Nat) (hκ : Kept κ ζ s) : Kept κ ζ (applyFlip s x) := by
  unfold applyFlip
  repeat' (first | with_reducible assumption | with_reducible apply logCtx_kept | with_reducible apply cntAdd_kept | with_reducible apply setBatch_kept | with_reducible apply setReg_kept | with_reducible apply devWords_kept | with_reducible intro _ | dsimp only | with_reducible apply ite_kept | with_reducible apply iteO_kept | split)

theorem btFlip_kept (s : State) (src : Src) (x b : Nat) (hκ : Kept κ ζ s) : Kept κ ζ (btFlip s src x b) := by
  unfold btFlip
  repeat' (first | with_reducible assumption | with_reducible apply countChoice_kept | with_reducible apply applyFlip_kept | with_reducible apply setBatch_kept | with_reducible apply setReg_kept | with_reducible apply logAccepted_kept | with_reducible apply foldl_kept | with_reducible apply foldl_kept1 | with_reducible apply foldl_kept11 | with_reducible intro _ | dsimp only | with_reducible apply ite_kept | with_reducible apply iteO_kept | split)

theorem execTndCtxBtFlip_kept (src : Src) (x b : Nat) (s : State) (hκ : Kept κ ζ s) : KeptO κ ζ (execTndCtxBtFlip src x b s) := by
  unfold execTndCtxBtFlip
  repeat' (first | with_reducible assumption | with_reducible apply next_kept | with_reducible apply fault_kept | with_reducible apply done_kept | with_reducible apply btFlip_kept | with_reducible apply orWait_kept | with_reducible apply emit_kept | with_reducible intro _ | dsimp only | with_reducible apply ite_kept | with_reducible apply iteO_kept | split)

theorem execBtFlipApply_kept (x : Nat) (s : State) (hκ : Kept κ ζ s) : KeptO κ ζ (execBtFlipApply x s) := by
  unfold execBtFlipApply
  repeat' (first | with_reducible assumption | with_reducible apply next_kept | with_reducible apply fault_kept | with_reducible apply done_kept | with_reducible apply applyFlip_kept | with_reducible apply orWait_kept | with_reducible intro _ | dsimp only | with_reducible apply ite_kept | with_reducible apply iteO_kept | split)

end Sys2Proof.Machine
end

