-- ==== Sys2Proof/Laws/Kept/Accept.lean ====
section
/-! SUPPORT. What the operations of Machine/Accept.lean keep. -/
set_option linter.all false
set_option simprocs false
namespace Sys2Proof.Machine
variable {κ : List Instr} {ζ : Bool × List Byte × Bool}

theorem refuse_kept (s : State) (k : Nat) (i : Item) (len status detail : Nat) (hκ : Kept κ ζ s) : Kept κ ζ (refuse s k i len status detail) := by
  unfold refuse
  repeat' (first | with_reducible assumption | with_reducible apply logCtx_kept | with_reducible apply putRecord_kept | with_reducible apply setQ_kept | with_reducible apply setReg_kept | with_reducible intro _ | dsimp only | with_reducible apply ite_kept | with_reducible apply iteO_kept | split)

theorem refuseLost_kept (s : State) (k : Nat) (i : Item) (len : Nat) (parity : Bool) (hκ : Kept κ ζ s) : Kept κ ζ (refuseLost s k i len parity) := by
  unfold refuseLost
  repeat' (first | with_reducible assumption | with_reducible apply taint_kept | with_reducible apply parityFound_kept | with_reducible apply refuse_kept | with_reducible intro _ | dsimp only | with_reducible apply ite_kept | with_reducible apply iteO_kept | split)

theorem takeItem_kept (s : State) (k : Nat) (i : Item) (first : Bool) (hκ : Kept κ ζ s) : Kept κ ζ (takeItem s k i first) := by
  unfold takeItem
  repeat' (first | with_reducible assumption | with_reducible apply setQ_kept | with_reducible apply setReg_kept | with_reducible intro _ | dsimp only | with_reducible apply ite_kept | with_reducible apply iteO_kept | split)

theorem checkItem_kept (s : State) (k : Nat) (i : Item) (first : Bool) (hκ : Kept κ ζ s) : Kept κ ζ (checkItem s k i first) := by
  unfold checkItem
  repeat' (first | with_reducible assumption | with_reducible apply logCtx_kept | with_reducible apply takeItem_kept | with_reducible apply refuse_kept | with_reducible intro _ | dsimp only | with_reducible apply ite_kept | with_reducible apply iteO_kept | split)

theorem itemWords_kept (s : State) (k idx len : Nat) (hκ : Kept κ ζ s) : Kept κ ζ (itemWords s k idx len).1 :=
  devRead_kept _ _ _ _ (devRead_kept _ _ _ _ hκ)

theorem execItemAccept_kept (c x q : Nat) (itemParity : Bool) (s : State) (hκ : Kept κ ζ s) : KeptO κ ζ (execItemAccept c x q itemParity s) := by
  unfold execItemAccept
  repeat' (first | with_reducible assumption | with_reducible apply next_kept | with_reducible apply fault_kept | with_reducible apply done_kept | with_reducible apply checkItem_kept | with_reducible apply itemWords_kept | with_reducible apply refuseLost_kept | with_reducible apply orWait_kept | with_reducible apply devRead_kept | with_reducible intro _ | dsimp only | with_reducible apply ite_kept | with_reducible apply iteO_kept | split)

end Sys2Proof.Machine
end

