-- ==== Sys2Proof/Laws/Kept/Vector.lean ====
section
/-! SUPPORT. What the operations of Machine/Vector.lean keep. -/
set_option linter.all false
set_option simprocs false
namespace Sys2Proof.Machine
variable {κ : List Instr} {ζ : Bool × List Byte × Bool}

theorem vecStream_kept (s : State) (k : Nat) (line n : Nat) (hκ : Kept κ ζ s) : Kept κ ζ (vecStream s k line n).1 := by
  unfold vecStream
  repeat' (first | with_reducible assumption | with_reducible apply spadRead_kept | with_reducible intro _ | dsimp only | with_reducible apply ite_kept | with_reducible apply iteO_kept | split)

theorem runVec_kept (s : State) (k : Nat) (i : Item) (err : Option DataErr) (hκ : Kept κ ζ s) : Kept κ ζ (runVec s k i err) := by
  unfold runVec
  repeat' (first | with_reducible assumption | with_reducible apply parityFound_kept | with_reducible apply itemDone_kept | with_reducible apply issueItem_kept | with_reducible apply setItem_kept | with_reducible apply spadWrite_kept | with_reducible apply vecStream_kept | with_reducible intro _ | dsimp only | with_reducible apply ite_kept | with_reducible apply iteO_kept | split)

theorem vecCommand_kept (s : State) (c x q vop : Nat) (err : Option DataErr) (hκ : Kept κ ζ s) : Kept κ ζ (vecCommand s c x q vop err) := by
  unfold vecCommand
  repeat' (first | with_reducible assumption | with_reducible apply runVec_kept | with_reducible intro _ | dsimp only | with_reducible apply ite_kept | with_reducible apply iteO_kept | split)

theorem execAdd_kept (c x q : Nat) (err : Option DataErr) (s : State) (hκ : Kept κ ζ s) : KeptO κ ζ (execAdd c x q err s) := by
  unfold execAdd
  repeat' (first | with_reducible assumption | with_reducible apply next_kept | with_reducible apply fault_kept | with_reducible apply done_kept | with_reducible apply vecCommand_kept | with_reducible intro _ | dsimp only | with_reducible apply ite_kept | with_reducible apply iteO_kept | split)

theorem execMul_kept (c x q : Nat) (err : Option DataErr) (s : State) (hκ : Kept κ ζ s) : KeptO κ ζ (execMul c x q err s) := by
  unfold execMul
  repeat' (first | with_reducible assumption | with_reducible apply next_kept | with_reducible apply fault_kept | with_reducible apply done_kept | with_reducible apply vecCommand_kept | with_reducible intro _ | dsimp only | with_reducible apply ite_kept | with_reducible apply iteO_kept | split)

theorem execFma_kept (c x q : Nat) (err : Option DataErr) (s : State) (hκ : Kept κ ζ s) : KeptO κ ζ (execFma c x q err s) := by
  unfold execFma
  repeat' (first | with_reducible assumption | with_reducible apply next_kept | with_reducible apply fault_kept | with_reducible apply done_kept | with_reducible apply vecCommand_kept | with_reducible intro _ | dsimp only | with_reducible apply ite_kept | with_reducible apply iteO_kept | split)

theorem execAxpb_kept (c x q : Nat) (err : Option DataErr) (s : State) (hκ : Kept κ ζ s) : KeptO κ ζ (execAxpb c x q err s) := by
  unfold execAxpb
  repeat' (first | with_reducible assumption | with_reducible apply next_kept | with_reducible apply fault_kept | with_reducible apply done_kept | with_reducible apply vecCommand_kept | with_reducible intro _ | dsimp only | with_reducible apply ite_kept | with_reducible apply iteO_kept | split)

theorem execAxpby_kept (c x q : Nat) (err : Option DataErr) (s : State) (hκ : Kept κ ζ s) : KeptO κ ζ (execAxpby c x q err s) := by
  unfold execAxpby
  repeat' (first | with_reducible assumption | with_reducible apply next_kept | with_reducible apply fault_kept | with_reducible apply done_kept | with_reducible apply vecCommand_kept | with_reducible intro _ | dsimp only | with_reducible apply ite_kept | with_reducible apply iteO_kept | split)

theorem execMax_kept (c x q : Nat) (err : Option DataErr) (s : State) (hκ : Kept κ ζ s) : KeptO κ ζ (execMax c x q err s) := by
  unfold execMax
  repeat' (first | with_reducible assumption | with_reducible apply next_kept | with_reducible apply fault_kept | with_reducible apply done_kept | with_reducible apply vecCommand_kept | with_reducible intro _ | dsimp only | with_reducible apply ite_kept | with_reducible apply iteO_kept | split)

theorem execMin_kept (c x q : Nat) (err : Option DataErr) (s : State) (hκ : Kept κ ζ s) : KeptO κ ζ (execMin c x q err s) := by
  unfold execMin
  repeat' (first | with_reducible assumption | with_reducible apply next_kept | with_reducible apply fault_kept | with_reducible apply done_kept | with_reducible apply vecCommand_kept | with_reducible intro _ | dsimp only | with_reducible apply ite_kept | with_reducible apply iteO_kept | split)

theorem execExp_kept (c x q : Nat) (err : Option DataErr) (s : State) (hκ : Kept κ ζ s) : KeptO κ ζ (execExp c x q err s) := by
  unfold execExp
  repeat' (first | with_reducible assumption | with_reducible apply next_kept | with_reducible apply fault_kept | with_reducible apply done_kept | with_reducible apply vecCommand_kept | with_reducible intro _ | dsimp only | with_reducible apply ite_kept | with_reducible apply iteO_kept | split)

theorem execLog_kept (c x q : Nat) (err : Option DataErr) (s : State) (hκ : Kept κ ζ s) : KeptO κ ζ (execLog c x q err s) := by
  unfold execLog
  repeat' (first | with_reducible assumption | with_reducible apply next_kept | with_reducible apply fault_kept | with_reducible apply done_kept | with_reducible apply vecCommand_kept | with_reducible intro _ | dsimp only | with_reducible apply ite_kept | with_reducible apply iteO_kept | split)

theorem execRecip_kept (c x q : Nat) (err : Option DataErr) (s : State) (hκ : Kept κ ζ s) : KeptO κ ζ (execRecip c x q err s) := by
  unfold execRecip
  repeat' (first | with_reducible assumption | with_reducible apply next_kept | with_reducible apply fault_kept | with_reducible apply done_kept | with_reducible apply vecCommand_kept | with_reducible intro _ | dsimp only | with_reducible apply ite_kept | with_reducible apply iteO_kept | split)

theorem execRsqrt_kept (c x q : Nat) (err : Option DataErr) (s : State) (hκ : Kept κ ζ s) : KeptO κ ζ (execRsqrt c x q err s) := by
  unfold execRsqrt
  repeat' (first | with_reducible assumption | with_reducible apply next_kept | with_reducible apply fault_kept | with_reducible apply done_kept | with_reducible apply vecCommand_kept | with_reducible intro _ | dsimp only | with_reducible apply ite_kept | with_reducible apply iteO_kept | split)

theorem execSum_kept (c x q : Nat) (err : Option DataErr) (s : State) (hκ : Kept κ ζ s) : KeptO κ ζ (execSum c x q err s) := by
  unfold execSum
  repeat' (first | with_reducible assumption | with_reducible apply next_kept | with_reducible apply fault_kept | with_reducible apply done_kept | with_reducible apply vecCommand_kept | with_reducible intro _ | dsimp only | with_reducible apply ite_kept | with_reducible apply iteO_kept | split)

theorem execSumsq_kept (c x q : Nat) (err : Option DataErr) (s : State) (hκ : Kept κ ζ s) : KeptO κ ζ (execSumsq c x q err s) := by
  unfold execSumsq
  repeat' (first | with_reducible assumption | with_reducible apply next_kept | with_reducible apply fault_kept | with_reducible apply done_kept | with_reducible apply vecCommand_kept | with_reducible intro _ | dsimp only | with_reducible apply ite_kept | with_reducible apply iteO_kept | split)

theorem execAmax_kept (c x q : Nat) (err : Option DataErr) (s : State) (hκ : Kept κ ζ s) : KeptO κ ζ (execAmax c x q err s) := by
  unfold execAmax
  repeat' (first | with_reducible assumption | with_reducible apply next_kept | with_reducible apply fault_kept | with_reducible apply done_kept | with_reducible apply vecCommand_kept | with_reducible intro _ | dsimp only | with_reducible apply ite_kept | with_reducible apply iteO_kept | split)

theorem execCvt_kept (c x q : Nat) (err : Option DataErr) (s : State) (hκ : Kept κ ζ s) : KeptO κ ζ (execCvt c x q err s) := by
  unfold execCvt
  repeat' (first | with_reducible assumption | with_reducible apply next_kept | with_reducible apply fault_kept | with_reducible apply done_kept | with_reducible apply vecCommand_kept | with_reducible intro _ | dsimp only | with_reducible apply ite_kept | with_reducible apply iteO_kept | split)

end Sys2Proof.Machine
end

