-- ==== Sys2Proof/Laws/Kept/Array.lean ====
section
/-! SUPPORT. What the operations of Machine/Array.lean keep. -/
set_option linter.all false
set_option simprocs false
namespace Sys2Proof.Machine
variable {κ : List Instr} {ζ : Bool × List Byte × Bool}

theorem setArr_kept (s : State) (p a : Nat) (r : ArrayState) (hκ : Kept κ ζ s) : Kept κ ζ (setArr s p a r) := by
  unfold setArr
  repeat' (first | with_reducible assumption | with_reducible intro _ | dsimp only | with_reducible apply ite_kept | with_reducible apply iteO_kept | split)

theorem execMma_kept (c x q : Nat) (s : State) (hκ : Kept κ ζ s) : KeptO κ ζ (execMma c x q s) := by
  unfold execMma
  repeat' (first | with_reducible assumption | with_reducible apply next_kept | with_reducible apply fault_kept | with_reducible apply done_kept | with_reducible apply issueItem_kept | with_reducible apply setArr_kept | with_reducible intro _ | dsimp only | with_reducible apply ite_kept | with_reducible apply iteO_kept | split)

theorem addSlag_kept (s : State) (k idx t nonfin sat inval : Nat) (hκ : Kept κ ζ s) : Kept κ ζ (addSlag s k idx t nonfin sat inval) := by
  unfold addSlag
  repeat' (first | with_reducible assumption | with_reducible apply setItem_kept | with_reducible intro _ | dsimp only | with_reducible apply ite_kept | with_reducible apply iteO_kept | split)

theorem endMma_kept (s : State) (p a k idx status detail : Nat) (hκ : Kept κ ζ s) : Kept κ ζ (endMma s p a k idx status detail) := by
  unfold endMma
  repeat' (first | with_reducible assumption | with_reducible apply itemDone_kept | with_reducible apply setArr_kept | with_reducible intro _ | dsimp only | with_reducible apply ite_kept | with_reducible apply iteO_kept | split)

theorem settleMma_kept (s : State) (p a : Nat) (hκ : Kept κ ζ s) : Kept κ ζ (settleMma s p a) := by
  unfold settleMma
  repeat' (first | with_reducible assumption | with_reducible apply endMma_kept | with_reducible intro _ | dsimp only | with_reducible apply ite_kept | with_reducible apply iteO_kept | split)

theorem execPlaneFill_kept (p a : Nat) (err : Option DataErr) (s : State) (hκ : Kept κ ζ s) : KeptO κ ζ (execPlaneFill p a err s) := by
  unfold execPlaneFill
  repeat' (first | with_reducible assumption | with_reducible apply next_kept | with_reducible apply fault_kept | with_reducible apply done_kept | with_reducible apply setArr_kept | with_reducible apply settleMma_kept | with_reducible apply logCtx_kept | with_reducible apply parityFound_kept | with_reducible apply addSlag_kept | with_reducible apply spadRead_kept | with_reducible intro _ | dsimp only | with_reducible apply ite_kept | with_reducible apply iteO_kept | split)

theorem execRunnerRefillRequest_kept (p a n : Nat) (s : State) (hκ : Kept κ ζ s) : KeptO κ ζ (execRunnerRefillRequest p a n s) := by
  unfold execRunnerRefillRequest
  repeat' (first | with_reducible assumption | with_reducible apply next_kept | with_reducible apply fault_kept | with_reducible apply done_kept | with_reducible apply setArr_kept | with_reducible intro _ | dsimp only | with_reducible apply ite_kept | with_reducible apply iteO_kept | split)

theorem execRunnerRefillReturn_kept (p a n : Nat) (s : State) (hκ : Kept κ ζ s) : KeptO κ ζ (execRunnerRefillReturn p a n s) := by
  unfold execRunnerRefillReturn
  repeat' (first | with_reducible assumption | with_reducible apply next_kept | with_reducible apply fault_kept | with_reducible apply done_kept | with_reducible apply setArr_kept | with_reducible intro _ | dsimp only | with_reducible apply ite_kept | with_reducible apply iteO_kept | split)

theorem readStreams_kept (s : State) (p x : Nat) (b : MmaBody) (t ps : Nat) (hκ : Kept κ ζ s) : Kept κ ζ (readStreams s p x b t ps).1 := by
  unfold readStreams
  repeat' (first | with_reducible assumption | with_reducible apply spadRead_kept | with_reducible apply foldl_kept | with_reducible apply foldl_kept1 | with_reducible apply foldl_kept11 | with_reducible intro _ | dsimp only | with_reducible apply ite_kept | with_reducible apply iteO_kept | split)

theorem bankStart_kept (s : State) (p x : Nat) (b : MmaBody) (t : Nat) (hκ : Kept κ ζ s) : Kept κ ζ (bankStart s p x b t).1 := by
  unfold bankStart
  repeat' (first | with_reducible assumption | with_reducible apply spadRead_kept | with_reducible intro _ | dsimp only | with_reducible apply ite_kept | with_reducible apply iteO_kept | split)

theorem execPassStart_kept (p a : Nat) (stalls : List (Nat × Nat)) (waits : Nat) (err : Option DataErr) (s : State) (hκ : Kept κ ζ s) : KeptO κ ζ (execPassStart p a stalls waits err s) := by
  unfold execPassStart
  repeat' (first | with_reducible assumption | with_reducible apply next_kept | with_reducible apply fault_kept | with_reducible apply done_kept | with_reducible apply setArr_kept | with_reducible apply parityFound_kept | with_reducible apply setReg_kept | with_reducible apply cntAdd_kept | with_reducible apply logCtx_kept | with_reducible apply addSlag_kept | with_reducible apply bankStart_kept | with_reducible apply readStreams_kept | with_reducible apply foldl_kept | with_reducible apply foldl_kept1 | with_reducible apply foldl_kept11 | with_reducible intro _ | dsimp only | with_reducible apply ite_kept | with_reducible apply iteO_kept | split)

theorem withInteg_kept (s : State) (i : Integ) (hκ : Kept κ ζ s) : Kept κ ζ (State.withInteg s i) := by
  unfold State.withInteg
  repeat' (first | with_reducible assumption | with_reducible intro _ | dsimp only | with_reducible apply ite_kept | with_reducible apply iteO_kept | split)

theorem matchDigest_kept (s : State) (key : Nat) (hκ : Kept κ ζ s) : Kept κ ζ (matchDigest s key) := by
  unfold matchDigest
  repeat' (first | with_reducible assumption | with_reducible apply logUnit_kept | with_reducible apply setReg64_kept | with_reducible apply cntAdd_kept | with_reducible apply withInteg_kept | with_reducible apply filter_keeps | with_reducible apply filter_spad_keeps | with_reducible intro _ | dsimp only | with_reducible apply ite_kept | with_reducible apply iteO_kept | split)

theorem copeTile_kept (s : State) (key digest : Nat) (hκ : Kept κ ζ s) : Kept κ ζ (copeTile s key digest) := by
  unfold copeTile
  repeat' (first | with_reducible assumption | with_reducible apply withInteg_kept | with_reducible apply matchDigest_kept | with_reducible apply emit_kept | with_reducible intro _ | dsimp only | with_reducible apply ite_kept | with_reducible apply iteO_kept | split)

theorem execTileDrain_kept (p a : Nat) (err : Option DataErr) (s : State) (hκ : Kept κ ζ s) : KeptO κ ζ (execTileDrain p a err s) := by
  unfold execTileDrain
  repeat' (first | with_reducible assumption | with_reducible apply next_kept | with_reducible apply fault_kept | with_reducible apply done_kept | with_reducible apply setArr_kept | with_reducible apply settleMma_kept | with_reducible apply cntAdd_kept | with_reducible apply copeTile_kept | with_reducible apply addSlag_kept | with_reducible apply spadWrite_kept | with_reducible apply parityFound_kept | with_reducible apply foldl_kept | with_reducible apply foldl_kept1 | with_reducible apply foldl_kept11 | with_reducible intro _ | dsimp only | with_reducible apply ite_kept | with_reducible apply iteO_kept | split)

theorem execTurn_kept (c x q : Nat) (err : Option DataErr) (s : State) (hκ : Kept κ ζ s) : KeptO κ ζ (execTurn c x q err s) := by
  unfold execTurn
  repeat' (first | with_reducible assumption | with_reducible apply next_kept | with_reducible apply fault_kept | with_reducible apply done_kept | with_reducible apply parityFound_kept | with_reducible apply itemDone_kept | with_reducible apply issueItem_kept | with_reducible apply spadWrite_kept | with_reducible apply spadRead_kept | with_reducible apply foldl_kept | with_reducible apply foldl_kept1 | with_reducible apply foldl_kept11 | with_reducible apply filter_keeps | with_reducible apply filter_spad_keeps | with_reducible intro _ | dsimp only | with_reducible apply ite_kept | with_reducible apply iteO_kept | split)

end Sys2Proof.Machine
end

