-- ==== Sys2Proof/Laws/Kept/LadleIo.lean ====
section
/-! SUPPORT. What the operations of Machine/LadleIo.lean keep. -/
set_option linter.all false
set_option simprocs false
namespace Sys2Proof.Machine
variable {κ : List Instr} {ζ : Bool × List Byte × Bool}

theorem withLadle_kept (s : State) (l : Ladle) (hκ : Kept κ ζ s) : Kept κ ζ (State.withLadle s l) := by
  unfold State.withLadle
  repeat' (first | with_reducible assumption | with_reducible intro _ | dsimp only | with_reducible apply ite_kept | with_reducible apply iteO_kept | split)

theorem withFlask_kept (s : State) (f : Flask) (hκ : Kept κ ζ s) : Kept κ ζ (State.withFlask s f) := by
  unfold State.withFlask
  repeat' (first | with_reducible assumption | with_reducible intro _ | dsimp only | with_reducible apply ite_kept | with_reducible apply iteO_kept | split)

theorem setStream_kept (s : State) (n : Nat) (r : RaStream) (hκ : Kept κ ζ s) : Kept κ ζ (setStream s n r) := by
  unfold setStream
  repeat' (first | with_reducible assumption | with_reducible apply withLadle_kept | with_reducible intro _ | dsimp only | with_reducible apply ite_kept | with_reducible apply iteO_kept | split)

theorem endStream_kept (s : State) (n : Nat) (hκ : Kept κ ζ s) : Kept κ ζ (endStream s n) := by
  unfold endStream
  repeat' (first | with_reducible assumption | with_reducible apply setStream_kept | with_reducible apply cntAdd_kept | with_reducible apply filter_keeps | with_reducible apply filter_spad_keeps | with_reducible intro _ | dsimp only | with_reducible apply ite_kept | with_reducible apply iteO_kept | split)

theorem touchChunk_kept (s : State) (n chunk : Nat) (last : Bool) (hκ : Kept κ ζ s) : Kept κ ζ (touchChunk s n chunk last) := by
  unfold touchChunk
  repeat' (first | with_reducible assumption | with_reducible apply endStream_kept | with_reducible apply setStream_kept | with_reducible apply cntAdd_kept | with_reducible apply filter_keeps | with_reducible apply filter_spad_keeps | with_reducible intro _ | dsimp only | with_reducible apply ite_kept | with_reducible apply iteO_kept | split)

theorem raServe_kept (s : State) (x a : Nat) (recomp : Bool) (hκ : Kept κ ζ s) : Kept κ ζ (raServe s x a recomp).1 := by
  unfold raServe
  repeat' (first | with_reducible assumption | with_reducible apply touchChunk_kept | with_reducible apply setStream_kept | with_reducible apply cntAdd_kept | with_reducible intro _ | dsimp only | with_reducible apply ite_kept | with_reducible apply iteO_kept | split)

theorem readLine_kept (s : State) (k : Nat) (i : Item) (a n : Nat) (hκ : Kept κ ζ s) : Kept κ ζ (readLine s k i a n).1 := by
  unfold readLine
  repeat' (first | with_reducible assumption | with_reducible apply devRead_kept | with_reducible apply raServe_kept | with_reducible apply foldl_kept | with_reducible apply foldl_kept1 | with_reducible apply foldl_kept11 | with_reducible intro _ | dsimp only | with_reducible apply ite_kept | with_reducible apply iteO_kept | split)

theorem ladleRead_kept (s : State) (k : Nat) (i : Item) (a n : Nat) (hκ : Kept κ ζ s) : Kept κ ζ (ladleRead s k i a n).1 := by
  unfold ladleRead
  repeat' (first | with_reducible assumption | with_reducible apply readLine_kept | with_reducible apply foldl_kept | with_reducible apply foldl_kept1 | with_reducible apply foldl_kept11 | with_reducible intro _ | dsimp only | with_reducible apply ite_kept | with_reducible apply iteO_kept | split)

theorem addReq_kept (s : State) (k : Nat) (i : Item) (kind a n : Nat) (data : List Byte) (hκ : Kept κ ζ s) : Kept κ ζ (addReq s k i kind a n data) := by
  unfold addReq
  repeat' (first | with_reducible assumption | with_reducible apply withLadle_kept | with_reducible intro _ | dsimp only | with_reducible apply ite_kept | with_reducible apply iteO_kept | split)

theorem writeLine_kept (s : State) (k : Nat) (i : Item) (a : Nat) (bs : List OByte) (hκ : Kept κ ζ s) : Kept κ ζ (writeLine s k i a bs).1 := by
  unfold writeLine
  repeat' (first | with_reducible assumption | with_reducible apply withFlask_kept | with_reducible apply devWrite_kept | with_reducible apply addReq_kept | with_reducible apply cntAdd_kept | with_reducible intro _ | dsimp only | with_reducible apply ite_kept | with_reducible apply iteO_kept | split)

theorem ladleWrite_kept (s : State) (k : Nat) (i : Item) (a : Nat) (bs : List OByte) (hκ : Kept κ ζ s) : Kept κ ζ (ladleWrite s k i a bs).1 := by
  unfold ladleWrite
  repeat' (first | with_reducible assumption | with_reducible apply writeLine_kept | with_reducible apply foldl_kept | with_reducible apply foldl_kept1 | with_reducible apply foldl_kept11 | with_reducible intro _ | dsimp only | with_reducible apply ite_kept | with_reducible apply iteO_kept | split)

theorem fetchExtent_kept (s : State) (k : Nat) (i : Item) (a n : Nat) (write : Bool) (hκ : Kept κ ζ s) : Kept κ ζ (fetchExtent s k i a n write) := by
  unfold fetchExtent
  repeat' (first | with_reducible assumption | with_reducible apply addReq_kept | with_reducible apply foldl_kept | with_reducible apply foldl_kept1 | with_reducible apply foldl_kept11 | with_reducible intro _ | dsimp only | with_reducible apply ite_kept | with_reducible apply iteO_kept | split)

end Sys2Proof.Machine
end

