-- ==== Sys2Proof/Laws/Kept/Convert.lean ====
section
/-! SUPPORT. What the operations of Machine/Convert.lean keep. -/
set_option linter.all false
set_option simprocs false
namespace Sys2Proof.Machine
variable {κ : List Instr} {ζ : Bool × List Byte × Bool}

theorem writeRuns_kept (s : State) (k : Nat) (i : Item) (l : List (Nat × List OByte)) (hκ : Kept κ ζ s) : Kept κ ζ (writeRuns s k i l).1 := by
  unfold writeRuns
  repeat' (first | with_reducible assumption | with_reducible apply ladleWrite_kept | with_reducible apply foldl_kept | with_reducible apply foldl_kept1 | with_reducible apply foldl_kept11 | with_reducible apply filter_keeps | with_reducible apply filter_spad_keeps | with_reducible intro _ | dsimp only | with_reducible apply ite_kept | with_reducible apply iteO_kept | split)

theorem convSource_kept (s : State) (k : Nat) (i : Item) (b : ConvBody) (hκ : Kept κ ζ s) : Kept κ ζ (convSource s k i b).1 := by
  unfold convSource
  repeat' (first | with_reducible assumption | with_reducible apply cntAdd_kept | with_reducible apply ladleRead_kept | with_reducible intro _ | dsimp only | with_reducible apply ite_kept | with_reducible apply iteO_kept | split)

theorem convWrite_kept (s : State) (k : Nat) (i : Item) (b : ConvBody) (data : List OByte) (fail : Option (KzdFail × Nat)) (ue : Nat) (hκ : Kept κ ζ s) : Kept κ ζ (convWrite s k i b data fail ue).st := by
  unfold convWrite
  repeat' (first | with_reducible assumption | with_reducible apply addSlag_kept | with_reducible apply writeRuns_kept | with_reducible apply ladleRead_kept | with_reducible intro _ | dsimp only | with_reducible apply ite_kept | with_reducible apply iteO_kept | split)

theorem convTurn_kept (s : State) (k : Nat) (i : Item) (b : ConvBody) (data : List OByte) (fail : Option (KzdFail × Nat)) (ue : Nat) (hκ : Kept κ ζ s) : Kept κ ζ (convTurn s k i b data fail ue).st := by
  unfold convTurn
  repeat' (first | with_reducible assumption | with_reducible apply writeRuns_kept | with_reducible intro _ | dsimp only | with_reducible apply ite_kept | with_reducible apply iteO_kept | split)

theorem actConvert_kept (s : State) (k : Nat) (i : Item) (hκ : Kept κ ζ s) : Kept κ ζ (actConvert s k i).st := by
  unfold actConvert
  repeat' (first | with_reducible assumption | with_reducible apply convWrite_kept | with_reducible apply convTurn_kept | with_reducible apply convSource_kept | with_reducible apply writeRuns_kept | with_reducible apply ladleRead_kept | with_reducible intro _ | dsimp only | with_reducible apply ite_kept | with_reducible apply iteO_kept | split)

end Sys2Proof.Machine
end

