-- ==== Sys2Proof/Laws/Kept/Kv.lean ====
section
/-! SUPPORT. What the operations of Machine/Kv.lean keep. -/
set_option linter.all false
set_option simprocs false
namespace Sys2Proof.Machine
variable {κ : List Instr} {ζ : Bool × List Byte × Bool}

theorem setSlot_kept (s : State) (x base n : Nat) (used : Bool) (hκ : Kept κ ζ s) : Kept κ ζ (setSlot s x base n used) := by
  unfold setSlot
  repeat' (first | with_reducible assumption | with_reducible apply devWrite_kept | with_reducible intro _ | dsimp only | with_reducible apply ite_kept | with_reducible apply iteO_kept | split)

theorem setNear_kept (s : State) (x n : Nat) (used : Bool) (hκ : Kept κ ζ s) : Kept κ ζ (setNear s x n used) := by
  unfold setNear
  repeat' (first | with_reducible assumption | with_reducible apply setSlot_kept | with_reducible intro _ | dsimp only | with_reducible apply ite_kept | with_reducible apply iteO_kept | split)

theorem setFar_kept (s : State) (x n : Nat) (used : Bool) (hκ : Kept κ ζ s) : Kept κ ζ (setFar s x n used) := by
  unfold setFar
  repeat' (first | with_reducible assumption | with_reducible apply setSlot_kept | with_reducible intro _ | dsimp only | with_reducible apply ite_kept | with_reducible apply iteO_kept | split)

theorem setEntry_kept (s : State) (x pg e : Nat) (hκ : Kept κ ζ s) : Kept κ ζ (setEntry s x pg e) := by
  unfold setEntry
  repeat' (first | with_reducible assumption | with_reducible apply devWrite_kept | with_reducible intro _ | dsimp only | with_reducible apply ite_kept | with_reducible apply iteO_kept | split)

theorem takeNear_kept (s : State) (x : Nat) {n : Nat} {t : State} (h : takeNear s x = some (n, t)) (hκ : Kept κ ζ s) :
    Kept κ ζ t := by
  unfold takeNear at h
  obtain ⟨m, _, h⟩ := Option.map_eq_some_iff.1 h
  dsimp only at h
  split at h
  · obtain ⟨rfl, rfl⟩ := Prod.mk.inj h
    exact withLadle_kept _ _ (setNear_kept _ _ _ _ (drawNat_kept _ hκ))
  · obtain ⟨rfl, rfl⟩ := Prod.mk.inj h
    exact setNear_kept _ _ _ _ (drawNat_kept _ hκ)

theorem takeFar_kept (s : State) (x : Nat) {n : Nat} {t : State} (h : takeFar s x = some (n, t)) (hκ : Kept κ ζ s) :
    Kept κ ζ t := by
  unfold takeFar at h
  obtain ⟨m, _, h⟩ := Option.map_eq_some_iff.1 h
  obtain ⟨rfl, rfl⟩ := Prod.mk.inj h
  exact setFar_kept _ _ _ _ (drawNat_kept _ hκ)

theorem dropMove_kept (s : State) (x pg : Nat) (hκ : Kept κ ζ s) : Kept κ ζ (dropMove s x pg) := by
  unfold dropMove
  repeat' (first | with_reducible assumption | with_reducible apply withLadle_kept | with_reducible apply filter_keeps | with_reducible apply filter_spad_keeps | with_reducible intro _ | dsimp only | with_reducible apply ite_kept | with_reducible apply iteO_kept | split)

theorem addMove_kept (s : State) (m : PageMove) (e : Nat) (hκ : Kept κ ζ s) : Kept κ ζ (addMove s m e) := by
  unfold addMove
  repeat' (first | with_reducible assumption | with_reducible apply withLadle_kept | with_reducible apply setEntry_kept | with_reducible intro _ | dsimp only | with_reducible apply ite_kept | with_reducible apply iteO_kept | split)

theorem noPage_kept (s : State) (k : Nat) (i : Item) (pool : Nat) (hκ : Kept κ ζ s) : Kept κ ζ (noPage s k i pool) := by
  unfold noPage
  repeat' (first | with_reducible assumption | with_reducible apply countChoice_kept | with_reducible apply logCtx_kept | with_reducible intro _ | dsimp only | with_reducible apply ite_kept | with_reducible apply iteO_kept | split)

theorem setRef_kept (s : State) (x pg : Nat) (hκ : Kept κ ζ s) : Kept κ ζ (setRef s x pg) := by
  unfold setRef
  repeat' (first | with_reducible assumption | with_reducible apply setEntry_kept | with_reducible intro _ | dsimp only | with_reducible apply ite_kept | with_reducible apply iteO_kept | split)

theorem abandon_kept (s : State) (x pg : Nat) (m : PageMove) (hκ : Kept κ ζ s) : Kept κ ζ (abandon s x pg m) := by
  unfold abandon
  repeat' (first | with_reducible assumption | with_reducible apply dropMove_kept | with_reducible apply setFar_kept | with_reducible intro _ | dsimp only | with_reducible apply ite_kept | with_reducible apply iteO_kept | split)

theorem needSlot_kept (s : State) (k : Nat) (i : Item) (hκ : Kept κ ζ s) : Kept κ ζ (needSlot s k i).1 := by
  unfold needSlot
  repeat' (first | with_reducible assumption | with_reducible apply noPage_kept | with_reducible apply withLadle_kept | with_reducible intro _ | dsimp only | with_reducible apply ite_kept | with_reducible apply iteO_kept | split)

theorem kvGather_kept (s : State) (k : Nat) (i : Item) (n pg : Nat) (hκ : Kept κ ζ s) : Kept κ ζ (kvGather s k i n pg).1 := by
  unfold kvGather
  repeat' (first | with_reducible assumption | with_reducible apply setRef_kept | with_reducible apply ladleRead_kept | with_reducible apply ladleWrite_kept | with_reducible intro _ | dsimp only | with_reducible apply ite_kept | with_reducible apply iteO_kept | split)

theorem kvStore_kept (s : State) (k : Nat) (i : Item) (n pg slot : Nat) (hκ : Kept κ ζ s) : Kept κ ζ (kvStore s k i n pg slot).1 := by
  unfold kvStore
  repeat' (first | with_reducible assumption | with_reducible apply setRef_kept | with_reducible apply ladleWrite_kept | with_reducible apply ladleRead_kept | with_reducible intro _ | dsimp only | with_reducible apply ite_kept | with_reducible apply iteO_kept | split)

theorem kvScatter_kept (s : State) (k : Nat) (i : Item) (n pg : Nat) (hκ : Kept κ ζ s) : Kept κ ζ (kvScatter s k i n pg).1 := by
  unfold kvScatter
  repeat' (first | with_reducible assumption | with_reducible apply abandon_kept | with_reducible apply cntAdd_kept | with_reducible apply setEntry_kept | with_reducible apply kvStore_kept | with_reducible apply ladleWrite_kept | with_reducible apply needSlot_kept | with_reducible refine takeNear_kept _ _ (by with_reducible assumption) ?_ | with_reducible intro _ | dsimp only | with_reducible apply ite_kept | with_reducible apply iteO_kept | split)

theorem kvSpill_kept (s : State) (k : Nat) (i : Item) (pg : Nat) (hκ : Kept κ ζ s) : Kept κ ζ (kvSpill s k i pg).1 := by
  unfold kvSpill
  repeat' (first | with_reducible assumption | with_reducible apply addMove_kept | with_reducible apply noPage_kept | with_reducible refine takeFar_kept _ _ (by with_reducible assumption) ?_ | with_reducible intro _ | dsimp only | with_reducible apply ite_kept | with_reducible apply iteO_kept | split)

theorem kvFetch_kept (s : State) (k : Nat) (i : Item) (pg : Nat) (hκ : Kept κ ζ s) : Kept κ ζ (kvFetch s k i pg).1 := by
  unfold kvFetch
  repeat' (first | with_reducible assumption | with_reducible apply addMove_kept | with_reducible apply needSlot_kept | with_reducible refine takeNear_kept _ _ (by with_reducible assumption) ?_ | with_reducible intro _ | dsimp only | with_reducible apply ite_kept | with_reducible apply iteO_kept | split)

theorem kvFree_kept (s : State) (k pg : Nat) (hκ : Kept κ ζ s) : Kept κ ζ (kvFree s k pg).1 := by
  unfold kvFree
  repeat' (first | with_reducible assumption | with_reducible apply abandon_kept | with_reducible apply cntAdd_kept | with_reducible apply setFar_kept | with_reducible apply setEntry_kept | with_reducible apply setNear_kept | with_reducible intro _ | dsimp only | with_reducible apply ite_kept | with_reducible apply iteO_kept | split)

theorem kvPin_kept (s : State) (k pg : Nat) (pin : Bool) (hκ : Kept κ ζ s) : Kept κ ζ (kvPin s k pg pin).1 := by
  unfold kvPin
  repeat' (first | with_reducible assumption | with_reducible apply setEntry_kept | with_reducible intro _ | dsimp only | with_reducible apply ite_kept | with_reducible apply iteO_kept | split)

theorem kvPage_kept (s : State) (k : Nat) (i : Item) (n pg : Nat) (hκ : Kept κ ζ s) : Kept κ ζ (kvPage s k i n pg).1 := by
  unfold kvPage
  repeat' (first | with_reducible assumption | with_reducible apply kvPin_kept | with_reducible apply kvFree_kept | with_reducible apply kvFetch_kept | with_reducible apply kvSpill_kept | with_reducible apply kvScatter_kept | with_reducible apply kvGather_kept | with_reducible intro _ | dsimp only | with_reducible apply ite_kept | with_reducible apply iteO_kept | split)

theorem kvNote_kept (s : State) (k idx prog : Nat) (new : Nat × Nat) (hκ : Kept κ ζ s) : Kept κ ζ (kvNote s k idx prog new) := by
  unfold kvNote
  repeat' (first | with_reducible assumption | with_reducible apply setItem_kept | with_reducible intro _ | dsimp only | with_reducible apply ite_kept | with_reducible apply iteO_kept | split)

theorem kvRun_kept (k : Nat) (i : Item) (l : List (Option Nat)) (n : Nat) (s : State) (hκ : Kept κ ζ s) :
    Kept κ ζ (kvRun k i l n s).1 := by
  induction l generalizing n s with
  | nil => exact hκ
  | cons p t ih =>
    unfold kvRun
    repeat' (first | with_reducible assumption | with_reducible apply ih | with_reducible apply kvNote_kept | with_reducible apply kvPage_kept | dsimp only | split)

theorem actKv_kept (s : State) (k : Nat) (i : Item) (hκ : Kept κ ζ s) : Kept κ ζ (actKv s k i).st := by
  unfold actKv
  repeat' (first | with_reducible assumption | with_reducible apply kvRun_kept | with_reducible apply ladleRead_kept | with_reducible intro _ | dsimp only | with_reducible apply ite_kept | with_reducible apply iteO_kept | split)

theorem sweepWalk_kept (x n : Nat) (s : State) (hκ : Kept κ ζ s) : Kept κ ζ (sweepWalk x n s).1 := by
  induction n generalizing s with
  | zero => exact hκ
  | succ n ih =>
    unfold sweepWalk
    repeat' (first | with_reducible assumption | with_reducible apply ih | with_reducible apply setEntry_kept | with_reducible apply withLadle_kept | dsimp only | split)

theorem endMove_kept (s : State) (m : PageMove) (hκ : Kept κ ζ s) : Kept κ ζ (endMove s m).1 := by
  unfold endMove
  repeat' (first | with_reducible assumption | with_reducible apply setNear_kept | with_reducible apply setEntry_kept | with_reducible apply setFar_kept | with_reducible apply dropMove_kept | with_reducible apply cntAdd_kept | with_reducible apply devWrite_kept | with_reducible apply devRead_kept | with_reducible intro _ | dsimp only | with_reducible apply ite_kept | with_reducible apply iteO_kept | split)

end Sys2Proof.Machine
end

