-- ==== Sys2Proof/Laws/Kept/Ladle.lean ====
section
/-! SUPPORT. What the operations of Machine/Ladle.lean keep. -/
set_option linter.all false
set_option simprocs false
namespace Sys2Proof.Machine
variable {κ : List Instr} {ζ : Bool × List Byte × Bool}

theorem ladlePrepare_kept (s : State) (k : Nat) (i : Item) (hκ : Kept κ ζ s) : Kept κ ζ (ladlePrepare s k i) := by
  unfold ladlePrepare
  repeat' (first | with_reducible assumption | with_reducible apply addReq_kept | with_reducible apply fetchExtent_kept | with_reducible apply foldl_kept | with_reducible apply foldl_kept1 | with_reducible apply foldl_kept11 | with_reducible intro _ | dsimp only | with_reducible apply ite_kept | with_reducible apply iteO_kept | split)

theorem atomicResult_kept (s : State) (k : Nat) (i : Item) (old : Option Nat) (hκ : Kept κ ζ s) : Kept κ ζ (atomicResult s k i old).1 := by
  unfold atomicResult
  repeat' (first | with_reducible assumption | with_reducible apply ladleWrite_kept | with_reducible intro _ | dsimp only | with_reducible apply ite_kept | with_reducible apply iteO_kept | split)

theorem actAtomic_kept (s : State) (k : Nat) (i : Item) (hκ : Kept κ ζ s) : Kept κ ζ (actAtomic s k i).st := by
  unfold actAtomic
  repeat' (first | with_reducible assumption | with_reducible apply devRead_kept | with_reducible apply ladleWrite_kept | with_reducible apply atomicResult_kept | with_reducible apply countChoice_kept | with_reducible intro _ | dsimp only | with_reducible apply ite_kept | with_reducible apply iteO_kept | split)

theorem actProv_kept (s : State) (k : Nat) (i : Item) (hκ : Kept κ ζ s) : Kept κ ζ (actProv s k i).st := by
  unfold actProv
  repeat' (first | with_reducible assumption | with_reducible apply ladleWrite_kept | with_reducible apply ladleRead_kept | with_reducible apply foldl_kept | with_reducible apply foldl_kept1 | with_reducible apply foldl_kept11 | with_reducible intro _ | dsimp only | with_reducible apply ite_kept | with_reducible apply iteO_kept | split)

theorem actRunahead_kept (s : State) (k : Nat) (i : Item) (hκ : Kept κ ζ s) : Kept κ ζ (actRunahead s k i).st := by
  unfold actRunahead
  repeat' (first | with_reducible assumption | with_reducible apply setStream_kept | with_reducible apply endStream_kept | with_reducible apply filter_keeps | with_reducible apply filter_spad_keeps | with_reducible intro _ | dsimp only | with_reducible apply ite_kept | with_reducible apply iteO_kept | split)

theorem actAssay_kept (s : State) (k : Nat) (i : Item) (hκ : Kept κ ζ s) : Kept κ ζ (actAssay s k i).st := by
  unfold actAssay
  repeat' (first | with_reducible assumption | with_reducible apply cntAdd_kept | with_reducible apply logUnit_kept | with_reducible apply setReg_kept | with_reducible apply ladleWrite_kept | with_reducible apply ladleRead_kept | with_reducible intro _ | dsimp only | with_reducible apply ite_kept | with_reducible apply iteO_kept | split)

theorem actRows_kept (s : State) (k : Nat) (i : Item) (rows : List (Nat × Nat)) (n : Nat) (hκ : Kept κ ζ s) : Kept κ ζ (actRows s k i rows n).st := by
  unfold actRows
  repeat' (first | with_reducible assumption | with_reducible apply ladleWrite_kept | with_reducible apply ladleRead_kept | with_reducible apply foldl_kept | with_reducible apply foldl_kept1 | with_reducible apply foldl_kept11 | with_reducible intro _ | dsimp only | with_reducible apply ite_kept | with_reducible apply iteO_kept | split)

theorem ladleAct_kept (s : State) (k : Nat) (i : Item) (hκ : Kept κ ζ s) : Kept κ ζ (ladleAct s k i).st := by
  unfold ladleAct
  repeat' (first | with_reducible assumption | with_reducible apply actProv_kept | with_reducible apply actAssay_kept | with_reducible apply actAtomic_kept | with_reducible apply actRunahead_kept | with_reducible apply actKv_kept | with_reducible apply actConvert_kept | with_reducible apply ladleWrite_kept | with_reducible apply actRows_kept | with_reducible intro _ | dsimp only | with_reducible apply ite_kept | with_reducible apply iteO_kept | split)

theorem dropReqs_kept (s : State) (k idx : Nat) (hκ : Kept κ ζ s) : Kept κ ζ (dropReqs s k idx) := by
  unfold dropReqs
  repeat' (first | with_reducible assumption | with_reducible apply withLadle_kept | with_reducible apply filter_keeps | with_reducible apply filter_spad_keeps | with_reducible intro _ | dsimp only | with_reducible apply ite_kept | with_reducible apply iteO_kept | split)

theorem settleLadle_kept (s : State) (k idx : Nat) (hκ : Kept κ ζ s) : Kept κ ζ (settleLadle s k idx) := by
  unfold settleLadle
  repeat' (first | with_reducible assumption | with_reducible apply dropReqs_kept | with_reducible apply itemDone_kept | with_reducible intro _ | dsimp only | with_reducible apply ite_kept | with_reducible apply iteO_kept | split)

theorem ladleAdvance_kept (s : State) (k idx : Nat) (hκ : Kept κ ζ s) : Kept κ ζ (ladleAdvance s k idx) := by
  unfold ladleAdvance
  repeat' (first | with_reducible assumption | with_reducible apply orWait_kept | with_reducible apply parityFound_kept | with_reducible apply setItem_kept | with_reducible apply ladleAct_kept | with_reducible apply ladlePrepare_kept | with_reducible apply settleLadle_kept | with_reducible intro _ | dsimp only | with_reducible apply ite_kept | with_reducible apply iteO_kept | split)

theorem ladleStart_kept (s : State) (k idx : Nat) (e : Option DataErr) (hκ : Kept κ ζ s) : Kept κ ζ (ladleStart s k idx e) := by
  unfold ladleStart
  repeat' (first | with_reducible assumption | with_reducible apply issueItem_kept | with_reducible apply setItem_kept | with_reducible apply ladleAdvance_kept | with_reducible intro _ | dsimp only | with_reducible apply ite_kept | with_reducible apply iteO_kept | split)

theorem ladleCommand_kept (s : State) (c x q : Nat) (isOp : Item → Bool) (codes : List Nat) (err : Option DataErr) (hκ : Kept κ ζ s) : Kept κ ζ (ladleCommand s c x q isOp codes err) := by
  unfold ladleCommand
  repeat' (first | with_reducible assumption | with_reducible apply ladleAdvance_kept | with_reducible apply ladleStart_kept | with_reducible apply filter_keeps | with_reducible apply filter_spad_keeps | with_reducible intro _ | dsimp only | with_reducible apply ite_kept | with_reducible apply iteO_kept | split)

theorem execCopy_kept (c x q : Nat) (err : Option DataErr) (s : State) (hκ : Kept κ ζ s) : KeptO κ ζ (execCopy c x q err s) := by
  unfold execCopy
  repeat' (first | with_reducible assumption | with_reducible apply next_kept | with_reducible apply fault_kept | with_reducible apply done_kept | with_reducible apply ladleCommand_kept | with_reducible intro _ | dsimp only | with_reducible apply ite_kept | with_reducible apply iteO_kept | split)

theorem execCopy2d_kept (c x q : Nat) (err : Option DataErr) (s : State) (hκ : Kept κ ζ s) : KeptO κ ζ (execCopy2d c x q err s) := by
  unfold execCopy2d
  repeat' (first | with_reducible assumption | with_reducible apply next_kept | with_reducible apply fault_kept | with_reducible apply done_kept | with_reducible apply ladleCommand_kept | with_reducible intro _ | dsimp only | with_reducible apply ite_kept | with_reducible apply iteO_kept | split)

theorem execFill_kept (c x q : Nat) (err : Option DataErr) (s : State) (hκ : Kept κ ζ s) : KeptO κ ζ (execFill c x q err s) := by
  unfold execFill
  repeat' (first | with_reducible assumption | with_reducible apply next_kept | with_reducible apply fault_kept | with_reducible apply done_kept | with_reducible apply ladleCommand_kept | with_reducible intro _ | dsimp only | with_reducible apply ite_kept | with_reducible apply iteO_kept | split)

theorem execConvert_kept (c x q : Nat) (err : Option DataErr) (s : State) (hκ : Kept κ ζ s) : KeptO κ ζ (execConvert c x q err s) := by
  unfold execConvert
  repeat' (first | with_reducible assumption | with_reducible apply next_kept | with_reducible apply fault_kept | with_reducible apply done_kept | with_reducible apply ladleCommand_kept | with_reducible intro _ | dsimp only | with_reducible apply ite_kept | with_reducible apply iteO_kept | split)

theorem resumeKv_kept (s : State) (x : Nat) (hκ : Kept κ ζ s) : Kept κ ζ (resumeKv s x) := by
  unfold resumeKv
  repeat' (first | with_reducible assumption | with_reducible apply ladleAdvance_kept | with_reducible apply foldl_kept | with_reducible apply foldl_kept1 | with_reducible apply foldl_kept11 | with_reducible intro _ | dsimp only | with_reducible apply ite_kept | with_reducible apply iteO_kept | split)

theorem kvCommand_kept (s : State) (c x q sub : Nat) (err : Option DataErr) (hκ : Kept κ ζ s) : Kept κ ζ (kvCommand s c x q sub err) := by
  unfold kvCommand
  repeat' (first | with_reducible assumption | with_reducible apply resumeKv_kept | with_reducible apply ladleCommand_kept | with_reducible intro _ | dsimp only | with_reducible apply ite_kept | with_reducible apply iteO_kept | split)

theorem execGather_kept (c x q : Nat) (err : Option DataErr) (s : State) (hκ : Kept κ ζ s) : KeptO κ ζ (execGather c x q err s) := by
  unfold execGather
  repeat' (first | with_reducible assumption | with_reducible apply next_kept | with_reducible apply fault_kept | with_reducible apply done_kept | with_reducible apply kvCommand_kept | with_reducible intro _ | dsimp only | with_reducible apply ite_kept | with_reducible apply iteO_kept | split)

theorem execScatter_kept (c x q : Nat) (err : Option DataErr) (s : State) (hκ : Kept κ ζ s) : KeptO κ ζ (execScatter c x q err s) := by
  unfold execScatter
  repeat' (first | with_reducible assumption | with_reducible apply next_kept | with_reducible apply fault_kept | with_reducible apply done_kept | with_reducible apply kvCommand_kept | with_reducible intro _ | dsimp only | with_reducible apply ite_kept | with_reducible apply iteO_kept | split)

theorem execSpill_kept (c x q : Nat) (err : Option DataErr) (s : State) (hκ : Kept κ ζ s) : KeptO κ ζ (execSpill c x q err s) := by
  unfold execSpill
  repeat' (first | with_reducible assumption | with_reducible apply next_kept | with_reducible apply fault_kept | with_reducible apply done_kept | with_reducible apply kvCommand_kept | with_reducible intro _ | dsimp only | with_reducible apply ite_kept | with_reducible apply iteO_kept | split)

theorem execFetch_kept (c x q : Nat) (err : Option DataErr) (s : State) (hκ : Kept κ ζ s) : KeptO κ ζ (execFetch c x q err s) := by
  unfold execFetch
  repeat' (first | with_reducible assumption | with_reducible apply next_kept | with_reducible apply fault_kept | with_reducible apply done_kept | with_reducible apply kvCommand_kept | with_reducible intro _ | dsimp only | with_reducible apply ite_kept | with_reducible apply iteO_kept | split)

theorem execFree_kept (c x q : Nat) (err : Option DataErr) (s : State) (hκ : Kept κ ζ s) : KeptO κ ζ (execFree c x q err s) := by
  unfold execFree
  repeat' (first | with_reducible assumption | with_reducible apply next_kept | with_reducible apply fault_kept | with_reducible apply done_kept | with_reducible apply kvCommand_kept | with_reducible intro _ | dsimp only | with_reducible apply ite_kept | with_reducible apply iteO_kept | split)

theorem execPin_kept (c x q : Nat) (err : Option DataErr) (s : State) (hκ : Kept κ ζ s) : KeptO κ ζ (execPin c x q err s) := by
  unfold execPin
  repeat' (first | with_reducible assumption | with_reducible apply next_kept | with_reducible apply fault_kept | with_reducible apply done_kept | with_reducible apply kvCommand_kept | with_reducible intro _ | dsimp only | with_reducible apply ite_kept | with_reducible apply iteO_kept | split)

theorem execUnpin_kept (c x q : Nat) (err : Option DataErr) (s : State) (hκ : Kept κ ζ s) : KeptO κ ζ (execUnpin c x q err s) := by
  unfold execUnpin
  repeat' (first | with_reducible assumption | with_reducible apply next_kept | with_reducible apply fault_kept | with_reducible apply done_kept | with_reducible apply kvCommand_kept | with_reducible intro _ | dsimp only | with_reducible apply ite_kept | with_reducible apply iteO_kept | split)

theorem stopSweep_kept (s : State) (x : Nat) (hκ : Kept κ ζ s) : Kept κ ζ (stopSweep s x) := by
  unfold stopSweep
  repeat' (first | with_reducible assumption | with_reducible apply withLadle_kept | with_reducible apply filter_keeps | with_reducible apply filter_spad_keeps | with_reducible intro _ | dsimp only | with_reducible apply ite_kept | with_reducible apply iteO_kept | split)

theorem endWaiters_kept (s : State) (x pool : Nat) (hκ : Kept κ ζ s) : Kept κ ζ (endWaiters s x pool) := by
  unfold endWaiters
  repeat' (first | with_reducible assumption | with_reducible apply settleLadle_kept | with_reducible apply noPage_kept | with_reducible apply setItem_kept | with_reducible apply foldl_kept | with_reducible apply foldl_kept1 | with_reducible apply foldl_kept11 | with_reducible intro _ | dsimp only | with_reducible apply ite_kept | with_reducible apply iteO_kept | split)

theorem spillSweep_kept (s : State) (x : Nat) (hκ : Kept κ ζ s) : Kept κ ζ (spillSweep s x) := by
  unfold spillSweep
  repeat' (first | with_reducible assumption | with_reducible apply addMove_kept | with_reducible refine takeFar_kept _ _ (by with_reducible assumption) ?_ | with_reducible apply endWaiters_kept | with_reducible apply sweepWalk_kept | with_reducible apply stopSweep_kept | with_reducible intro _ | dsimp only | with_reducible apply ite_kept | with_reducible apply iteO_kept | split)

theorem execKvSpillSweep_kept (x : Nat) (s : State) (hκ : Kept κ ζ s) : KeptO κ ζ (execKvSpillSweep x s) := by
  unfold execKvSpillSweep
  repeat' (first | with_reducible assumption | with_reducible apply next_kept | with_reducible apply fault_kept | with_reducible apply done_kept | with_reducible apply spillSweep_kept | with_reducible apply orWait_kept | with_reducible intro _ | dsimp only | with_reducible apply ite_kept | with_reducible apply iteO_kept | split)

theorem execPageMoveEnd_kept (x pg : Nat) (s : State) (hκ : Kept κ ζ s) : KeptO κ ζ (execPageMoveEnd x pg s) := by
  unfold execPageMoveEnd
  repeat' (first | with_reducible assumption | with_reducible apply next_kept | with_reducible apply fault_kept | with_reducible apply done_kept | with_reducible apply resumeKv_kept | with_reducible apply orWait_kept | with_reducible apply setItem_kept | with_reducible apply endMove_kept | with_reducible intro _ | dsimp only | with_reducible apply ite_kept | with_reducible apply iteO_kept | split)

theorem execArm_kept (c x q : Nat) (s : State) (hκ : Kept κ ζ s) : KeptO κ ζ (execArm c x q s) := by
  unfold execArm
  repeat' (first | with_reducible assumption | with_reducible apply next_kept | with_reducible apply fault_kept | with_reducible apply done_kept | with_reducible apply ladleCommand_kept | with_reducible intro _ | dsimp only | with_reducible apply ite_kept | with_reducible apply iteO_kept | split)

theorem execRunaheadCancel_kept (c x q : Nat) (s : State) (hκ : Kept κ ζ s) : KeptO κ ζ (execRunaheadCancel c x q s) := by
  unfold execRunaheadCancel
  repeat' (first | with_reducible assumption | with_reducible apply next_kept | with_reducible apply fault_kept | with_reducible apply done_kept | with_reducible apply ladleCommand_kept | with_reducible intro _ | dsimp only | with_reducible apply ite_kept | with_reducible apply iteO_kept | split)

theorem raFetch_kept (s : State) (n : Nat) (hκ : Kept κ ζ s) : Kept κ ζ (raFetch s n) := by
  unfold raFetch
  repeat' (first | with_reducible assumption | with_reducible apply withLadle_kept | with_reducible apply setStream_kept | with_reducible apply cntAdd_kept | with_reducible apply foldl_kept | with_reducible apply foldl_kept1 | with_reducible apply foldl_kept11 | with_reducible apply filter_keeps | with_reducible apply filter_spad_keeps | with_reducible intro _ | dsimp only | with_reducible apply ite_kept | with_reducible apply iteO_kept | split)

theorem execRunaheadFetch_kept (n : Nat) (s : State) (hκ : Kept κ ζ s) : KeptO κ ζ (execRunaheadFetch n s) := by
  unfold execRunaheadFetch
  repeat' (first | with_reducible assumption | with_reducible apply next_kept | with_reducible apply fault_kept | with_reducible apply done_kept | with_reducible apply raFetch_kept | with_reducible intro _ | dsimp only | with_reducible apply ite_kept | with_reducible apply iteO_kept | split)

theorem setLine_kept (s : State) (n addr : Nat) (f : RaLine → Option RaLine) (hκ : Kept κ ζ s) : Kept κ ζ (setLine s n addr f) := by
  unfold setLine
  repeat' (first | with_reducible assumption | with_reducible apply setStream_kept | with_reducible apply filter_keeps | with_reducible apply filter_spad_keeps | with_reducible intro _ | dsimp only | with_reducible apply ite_kept | with_reducible apply iteO_kept | split)

theorem raArrive_kept (s : State) (n addr : Nat) (hκ : Kept κ ζ s) : Kept κ ζ (raArrive s n addr) := by
  unfold raArrive
  repeat' (first | with_reducible assumption | with_reducible apply logUnit_kept | with_reducible apply setLine_kept | with_reducible apply cntAdd_kept | with_reducible apply tierRead_kept | with_reducible intro _ | dsimp only | with_reducible apply ite_kept | with_reducible apply iteO_kept | split)

theorem execRunaheadLineArrive_kept (n addr : Nat) (s : State) (hκ : Kept κ ζ s) : KeptO κ ζ (execRunaheadLineArrive n addr s) := by
  unfold execRunaheadLineArrive
  repeat' (first | with_reducible assumption | with_reducible apply next_kept | with_reducible apply fault_kept | with_reducible apply done_kept | with_reducible apply raArrive_kept | with_reducible intro _ | dsimp only | with_reducible apply ite_kept | with_reducible apply iteO_kept | split)

theorem execPeekAgeLimit_kept (n addr : Nat) (s : State) (hκ : Kept κ ζ s) : KeptO κ ζ (execPeekAgeLimit n addr s) := by
  unfold execPeekAgeLimit
  repeat' (first | with_reducible assumption | with_reducible apply next_kept | with_reducible apply fault_kept | with_reducible apply done_kept | with_reducible apply setStream_kept | with_reducible apply cntAdd_kept | with_reducible apply filter_keeps | with_reducible apply filter_spad_keeps | with_reducible intro _ | dsimp only | with_reducible apply ite_kept | with_reducible apply iteO_kept | split)

theorem execAssaychk_kept (c x q : Nat) (err : Option DataErr) (s : State) (hκ : Kept κ ζ s) : KeptO κ ζ (execAssaychk c x q err s) := by
  unfold execAssaychk
  repeat' (first | with_reducible assumption | with_reducible apply next_kept | with_reducible apply fault_kept | with_reducible apply done_kept | with_reducible apply ladleCommand_kept | with_reducible intro _ | dsimp only | with_reducible apply ite_kept | with_reducible apply iteO_kept | split)

theorem execAtomic_kept (c x q : Nat) (err : Option DataErr) (s : State) (hκ : Kept κ ζ s) : KeptO κ ζ (execAtomic c x q err s) := by
  unfold execAtomic
  repeat' (first | with_reducible assumption | with_reducible apply next_kept | with_reducible apply fault_kept | with_reducible apply done_kept | with_reducible apply ladleCommand_kept | with_reducible intro _ | dsimp only | with_reducible apply ite_kept | with_reducible apply iteO_kept | split)

theorem execTrigger_kept (c x q : Nat) (s : State) (hκ : Kept κ ζ s) : KeptO κ ζ (execTrigger c x q s) := by
  unfold execTrigger
  repeat' (first | with_reducible assumption | with_reducible apply next_kept | with_reducible apply fault_kept | with_reducible apply done_kept | with_reducible apply ladleCommand_kept | with_reducible intro _ | dsimp only | with_reducible apply ite_kept | with_reducible apply iteO_kept | split)

theorem execProv_kept (c x q : Nat) (err : Option DataErr) (s : State) (hκ : Kept κ ζ s) : KeptO κ ζ (execProv c x q err s) := by
  unfold execProv
  repeat' (first | with_reducible assumption | with_reducible apply next_kept | with_reducible apply fault_kept | with_reducible apply done_kept | with_reducible apply ladleCommand_kept | with_reducible intro _ | dsimp only | with_reducible apply ite_kept | with_reducible apply iteO_kept | split)

theorem setReq_kept (s : State) (id : Nat) (f : LReq → LReq) (hκ : Kept κ ζ s) : Kept κ ζ (setReq s id f) := by
  unfold setReq
  repeat' (first | with_reducible assumption | with_reducible apply withLadle_kept | with_reducible intro _ | dsimp only | with_reducible apply ite_kept | with_reducible apply iteO_kept | split)

theorem sendReq_kept (s : State) (id : Nat) (hκ : Kept κ ζ s) : Kept κ ζ (sendReq s id) := by
  unfold sendReq
  repeat' (first | with_reducible assumption | with_reducible apply sendMsg_kept | with_reducible apply withLadle_kept | with_reducible apply setReq_kept | with_reducible intro _ | dsimp only | with_reducible apply ite_kept | with_reducible apply iteO_kept | split)

theorem execLadleRequestIssue_kept (id : Nat) (s : State) (hκ : Kept κ ζ s) : KeptO κ ζ (execLadleRequestIssue id s) := by
  unfold execLadleRequestIssue
  repeat' (first | with_reducible assumption | with_reducible apply next_kept | with_reducible apply fault_kept | with_reducible apply done_kept | with_reducible apply sendReq_kept | with_reducible intro _ | dsimp only | with_reducible apply ite_kept | with_reducible apply iteO_kept | split)

theorem answerHost_kept (s : State) (src : Src) (tag value width : Nat) (poisoned : Bool) (hκ : Kept κ ζ s) : Kept κ ζ (answerHost s src tag value width poisoned) := by
  unfold answerHost
  repeat' (first | with_reducible assumption | with_reducible apply emit_kept | with_reducible apply respond_kept | with_reducible intro _ | dsimp only | with_reducible apply ite_kept | with_reducible apply iteO_kept | split)

theorem hostAnswered_kept (s : State) (r : LReq) (code detail : Nat) (data : List Byte) (hκ : Kept κ ζ s) : Kept κ ζ (hostAnswered s r code detail data) := by
  unfold hostAnswered
  repeat' (first | with_reducible assumption | with_reducible apply answerHost_kept | with_reducible apply emit_kept | with_reducible apply respond_kept | with_reducible intro _ | dsimp only | with_reducible apply ite_kept | with_reducible apply iteO_kept | split)

theorem answerReq_kept (s : State) (r : LReq) (code detail : Nat) (data : List Byte) (hκ : Kept κ ζ s) : Kept κ ζ (answerReq s r code detail data) := by
  unfold answerReq
  repeat' (first | with_reducible assumption | with_reducible apply ladleAdvance_kept | with_reducible apply hostAnswered_kept | with_reducible apply withLadle_kept | with_reducible apply setReq_kept | with_reducible apply filter_keeps | with_reducible apply filter_spad_keeps | with_reducible intro _ | dsimp only | with_reducible apply ite_kept | with_reducible apply iteO_kept | split)

theorem unitRead_kept (s : State) (r : Reader) (a symbols : Nat) (hκ : Kept κ ζ s) : Kept κ ζ (unitRead s r a symbols) := by
  unfold unitRead
  repeat' (first | with_reducible assumption | with_reducible apply drawNat_kept | with_reducible apply setPoison_kept | with_reducible apply tierCe_kept | with_reducible apply tierUe_kept | with_reducible apply cntAdd_kept | with_reducible intro _ | dsimp only | with_reducible apply ite_kept | with_reducible apply iteO_kept | split)

theorem execMemoryRequest_kept (write : Bool) (addr symbols : Nat) (data : List Byte) (s : State) (hκ : Kept κ ζ s) : KeptO κ ζ (execMemoryRequest write addr symbols data s) := by
  unfold execMemoryRequest
  repeat' (first | with_reducible assumption | with_reducible apply next_kept | with_reducible apply fault_kept | with_reducible apply done_kept | with_reducible apply unitRead_kept | with_reducible apply copyOnWrite_kept | with_reducible apply homePass_kept | with_reducible apply raInvalidate_kept | with_reducible apply tierWrite_kept | with_reducible apply orWait_kept | with_reducible intro _ | dsimp only | with_reducible apply ite_kept | with_reducible apply iteO_kept | split)

theorem execScrubUnit_kept (addr symbols : Nat) (last : Bool) (s : State) (hκ : Kept κ ζ s) : KeptO κ ζ (execScrubUnit addr symbols last s) := by
  unfold execScrubUnit
  repeat' (first | with_reducible assumption | with_reducible apply next_kept | with_reducible apply fault_kept | with_reducible apply done_kept | with_reducible apply logUnit_kept | with_reducible apply withLadle_kept | with_reducible apply unitRead_kept | with_reducible apply cntAdd_kept | with_reducible intro _ | dsimp only | with_reducible apply ite_kept | with_reducible apply iteO_kept | split)

end Sys2Proof.Machine
end

