-- ==== Sys2Proof/Laws/Kept/Sweep.lean ====
section
/-! SUPPORT. What the operations of Machine/Sweep.lean keep. -/
set_option linter.all false
set_option simprocs false
namespace Sys2Proof.Machine
variable {κ : List Instr} {ζ : Bool × List Byte × Bool}

theorem swRead_kept (t : Sw) (k : Nat) (i : Item) (a n : Nat) (hκ : Kept κ ζ t.1) : Kept κ ζ (swRead t k i a n).1.1 := by
  unfold swRead
  repeat' (first | with_reducible assumption | with_reducible apply ladleRead_kept | with_reducible intro _ | dsimp only | with_reducible apply ite_kept | with_reducible apply iteO_kept | split)

theorem swWrite_kept (t : Sw) (k : Nat) (i : Item) (a : Nat) (bs : List Nat) (hκ : Kept κ ζ t.1) : Kept κ ζ (swWrite t k i a bs).1 := by
  unfold swWrite
  repeat' (first | with_reducible assumption | with_reducible apply ladleWrite_kept | with_reducible intro _ | dsimp only | with_reducible apply ite_kept | with_reducible apply iteO_kept | split)

theorem swEntries_kept (t : Sw) (k : Nat) (i : Item) (hκ : Kept κ ζ t.1) : Kept κ ζ (swEntries t k i).1.1 := by
  unfold swEntries
  repeat' (first | with_reducible assumption | with_reducible apply swRead_kept | with_reducible apply foldl_kept | with_reducible apply foldl_kept1 | with_reducible apply foldl_kept11 | with_reducible intro _ | dsimp only | with_reducible apply ite_kept | with_reducible apply iteO_kept | split)

theorem swHyp_kept (t : Sw) (k : Nat) (i : Item) (h : Nat) (hκ : Kept κ ζ t.1) : Kept κ ζ (swHyp t k i h).1.1 := by
  unfold swHyp
  repeat' (first | with_reducible assumption | with_reducible apply swRead_kept | with_reducible intro _ | dsimp only | with_reducible apply ite_kept | with_reducible apply iteO_kept | split)

theorem swNorms_kept (t : Sw) (k : Nat) (i : Item) (es : List SwEntry) (hκ : Kept κ ζ t.1) : Kept κ ζ (swNorms t k i es).1.1 := by
  unfold swNorms
  repeat' (first | with_reducible assumption | with_reducible apply swRead_kept | with_reducible apply swHyp_kept | with_reducible apply foldl_kept | with_reducible apply foldl_kept1 | with_reducible apply foldl_kept11 | with_reducible apply filter_keeps | with_reducible apply filter_spad_keeps | with_reducible intro _ | dsimp only | with_reducible apply ite_kept | with_reducible apply iteO_kept | split)

theorem swChunk_kept (t : Sw) (k : Nat) (i : Item) (n : SwNorm) (c : SetScalars) (kf : Word) (from_ dest off : Nat) (zero : Bool) (base chunk : Nat) (hκ : Kept κ ζ t.1) : Kept κ ζ (swChunk t k i n c kf from_ dest off zero base chunk).1.1 := by
  unfold swChunk
  repeat' (first | with_reducible assumption | with_reducible apply swWrite_kept | with_reducible apply swRead_kept | with_reducible intro _ | dsimp only | with_reducible apply ite_kept | with_reducible apply iteO_kept | split)

theorem swEntry_kept (t : Sw) (k : Nat) (i : Item) (n : SwNorm) (total : Word) (from_ dest off : Nat) (zero : Bool) (base : Nat) (hκ : Kept κ ζ t.1) : Kept κ ζ (swEntry t k i n total from_ dest off zero base).1.1 := by
  unfold swEntry
  repeat' (first | with_reducible assumption | with_reducible apply swChunk_kept | with_reducible apply foldl_kept | with_reducible apply foldl_kept1 | with_reducible apply foldl_kept11 | with_reducible intro _ | dsimp only | with_reducible apply ite_kept | with_reducible apply iteO_kept | split)

theorem swZero_kept (t : Sw) (k : Nat) (i : Item) (e : SwEntry) (hκ : Kept κ ζ t.1) : Kept κ ζ (swZero t k i e).1 := by
  unfold swZero
  repeat' (first | with_reducible assumption | with_reducible apply swWrite_kept | with_reducible intro _ | dsimp only | with_reducible apply ite_kept | with_reducible apply iteO_kept | split)

theorem swMark_kept (t : Sw) (k : Nat) (i : Item) (e : SwEntry) (side : Nat) (staged : Bool) (hκ : Kept κ ζ t.1) : Kept κ ζ (swMark t k i e side staged).1 := by
  unfold swMark
  repeat' (first | with_reducible assumption | with_reducible apply swWrite_kept | with_reducible intro _ | dsimp only | with_reducible apply ite_kept | with_reducible apply iteO_kept | split)

theorem swAdopt_kept (t : Sw) (k : Nat) (i : Item) (e : SwEntry) (hκ : Kept κ ζ t.1) : Kept κ ζ (swAdopt t k i e).1 := by
  unfold swAdopt
  repeat' (first | with_reducible assumption | with_reducible apply swWrite_kept | with_reducible apply swRead_kept | with_reducible apply foldl_kept | with_reducible apply foldl_kept1 | with_reducible apply foldl_kept11 | with_reducible intro _ | dsimp only | with_reducible apply ite_kept | with_reducible apply iteO_kept | split)

theorem swSlag_kept (t : Sw) (k : Nat) (i : Item) (tensor held : Nat) (sl : Slag) (hκ : Kept κ ζ t.1) : Kept κ ζ (swSlag t k i tensor held sl).1 := by
  unfold swSlag
  repeat' (first | with_reducible assumption | with_reducible apply addSlag_kept | with_reducible intro _ | dsimp only | with_reducible apply ite_kept | with_reducible apply iteO_kept | split)

theorem swBadEvents_kept (s : State) (i : Item) (ns : List SwNorm) (hκ : Kept κ ζ s) : Kept κ ζ (swBadEvents s i ns) := by
  unfold swBadEvents
  repeat' (first | with_reducible assumption | with_reducible apply logUnit_kept | with_reducible apply foldl_kept | with_reducible apply foldl_kept1 | with_reducible apply foldl_kept11 | with_reducible intro _ | dsimp only | with_reducible apply ite_kept | with_reducible apply iteO_kept | split)

theorem actSwcheck_kept (s : State) (k : Nat) (i : Item) (hκ : Kept κ ζ s) : Kept κ ζ (actSwcheck s k i).1 := by
  unfold actSwcheck
  repeat' (first | with_reducible assumption | with_reducible apply swWrite_kept | with_reducible apply logUnit_kept | with_reducible apply slagCount_kept | with_reducible apply swBadEvents_kept | with_reducible apply swNorms_kept | with_reducible apply swEntries_kept | with_reducible apply swRead_kept | with_reducible apply foldl_kept | with_reducible apply foldl_kept1 | with_reducible apply foldl_kept11 | with_reducible apply filter_keeps | with_reducible apply filter_spad_keeps | with_reducible intro _ | dsimp only | with_reducible apply ite_kept | with_reducible apply iteO_kept | split)

theorem actStage_kept (s : State) (k : Nat) (i : Item) (hκ : Kept κ ζ s) : Kept κ ζ (actStage s k i).1.1 := by
  unfold actStage
  repeat' (first | with_reducible assumption | with_reducible apply swMark_kept | with_reducible apply withLadle_kept | with_reducible apply satAdd_kept | with_reducible apply swSlag_kept | with_reducible apply swEntry_kept | with_reducible apply cntAdd_kept | with_reducible apply logUnit_kept | with_reducible apply swNorms_kept | with_reducible apply swEntries_kept | with_reducible apply foldl_kept | with_reducible apply foldl_kept1 | with_reducible apply foldl_kept11 | with_reducible apply filter_keeps | with_reducible apply filter_spad_keeps | with_reducible intro _ | dsimp only | with_reducible apply ite_kept | with_reducible apply iteO_kept | split)

theorem swSkip_kept (t : Sw) (k : Nat) (i : Item) (es : List SwEntry) (ns : List SwNorm) (hκ : Kept κ ζ t.1) : Kept κ ζ (swSkip t k i es ns).1 := by
  unfold swSkip
  repeat' (first | with_reducible assumption | with_reducible apply cntAdd_kept | with_reducible apply logUnit_kept | with_reducible apply swMark_kept | with_reducible apply swZero_kept | with_reducible apply foldl_kept | with_reducible apply foldl_kept1 | with_reducible apply foldl_kept11 | with_reducible apply filter_keeps | with_reducible apply filter_spad_keeps | with_reducible intro _ | dsimp only | with_reducible apply ite_kept | with_reducible apply iteO_kept | split)

theorem swCommit_kept (t : Sw) (k : Nat) (i : Item) (ns : List SwNorm) (total : Word) (entryLost : Bool) (hκ : Kept κ ζ t.1) : Kept κ ζ (swCommit t k i ns total entryLost).1.1 := by
  unfold swCommit
  repeat' (first | with_reducible assumption | with_reducible apply swWrite_kept | with_reducible apply logUnit_kept | with_reducible apply swSlag_kept | with_reducible apply swEntry_kept | with_reducible apply cntAdd_kept | with_reducible apply swAdopt_kept | with_reducible apply swMark_kept | with_reducible apply swZero_kept | with_reducible apply foldl_kept | with_reducible apply foldl_kept1 | with_reducible apply foldl_kept11 | with_reducible apply filter_keeps | with_reducible apply filter_spad_keeps | with_reducible intro _ | dsimp only | with_reducible apply ite_kept | with_reducible apply iteO_kept | split)

theorem swAssay_kept (t : Sw) (k : Nat) (i : Item) (digest entries : Nat) (hκ : Kept κ ζ t.1) : Kept κ ζ (swAssay t k i digest entries).1 := by
  unfold swAssay
  repeat' (first | with_reducible assumption | with_reducible apply setReg64_kept | with_reducible apply setReg_kept | with_reducible apply swWrite_kept | with_reducible apply logUnit_kept | with_reducible intro _ | dsimp only | with_reducible apply ite_kept | with_reducible apply iteO_kept | split)

theorem swSpike_kept (s : State) (i : Item) (loss : Word) (hκ : Kept κ ζ s) : Kept κ ζ (swSpike s i loss).1 := by
  unfold swSpike
  repeat' (first | with_reducible assumption | with_reducible apply cntAdd_kept | with_reducible apply logUnit_kept | with_reducible apply setReg_kept | with_reducible intro _ | dsimp only | with_reducible apply ite_kept | with_reducible apply iteO_kept | split)

theorem actSweep_kept (s : State) (k : Nat) (i : Item) (hκ : Kept κ ζ s) : Kept κ ζ (actSweep s k i).1.1 := by
  unfold actSweep
  repeat' (first | with_reducible assumption | with_reducible apply withLadle_kept | with_reducible apply cntAdd_kept | with_reducible apply setReg_kept | with_reducible apply setItem_kept | with_reducible apply swWrite_kept | with_reducible apply slagCount_kept | with_reducible apply swAssay_kept | with_reducible apply swCommit_kept | with_reducible apply swSkip_kept | with_reducible apply swBadEvents_kept | with_reducible apply swNorms_kept | with_reducible apply swEntries_kept | with_reducible apply swSpike_kept | with_reducible apply ladleRead_kept | with_reducible apply swRead_kept | with_reducible apply foldl_kept | with_reducible apply foldl_kept1 | with_reducible apply foldl_kept11 | with_reducible apply filter_keeps | with_reducible apply filter_spad_keeps | with_reducible intro _ | dsimp only | with_reducible apply ite_kept | with_reducible apply iteO_kept | split)

theorem lossLoop_kept (s : State) (o : SweepEnd) (step : Nat) (hκ : Kept κ ζ s) : Kept κ ζ (lossLoop s o step) := by
  unfold lossLoop
  repeat' (first | with_reducible assumption | with_reducible apply setReg_kept | with_reducible apply logCup_kept | with_reducible intro _ | dsimp only | with_reducible apply ite_kept | with_reducible apply iteO_kept | split)

theorem endSweep_kept (s : State) (o : SweepEnd) (i : Item) (hκ : Kept κ ζ s) : Kept κ ζ (endSweep s o i) := by
  unfold endSweep
  repeat' (first | with_reducible assumption | with_reducible apply settleLadle_kept | with_reducible apply withLadle_kept | with_reducible apply setReg_kept | with_reducible apply swWrite_kept | with_reducible intro _ | dsimp only | with_reducible apply ite_kept | with_reducible apply iteO_kept | split)

theorem holdSweep_kept (s : State) (i : Item) (hκ : Kept κ ζ s) : Kept κ ζ (holdSweep s i) := by
  unfold holdSweep
  repeat' (first | with_reducible assumption | with_reducible apply withIngot_kept | with_reducible apply logCup_kept | with_reducible intro _ | dsimp only | with_reducible apply ite_kept | with_reducible apply iteO_kept | split)

theorem sweepIssue_kept (s : State) (k : Nat) (i : Item) (err : Option DataErr) (hκ : Kept κ ζ s) : Kept κ ζ (sweepIssue s k i err).1 := by
  unfold sweepIssue
  repeat' (first | with_reducible assumption | with_reducible apply parityFound_kept | with_reducible apply issueItem_kept | with_reducible apply setItem_kept | with_reducible intro _ | dsimp only | with_reducible apply ite_kept | with_reducible apply iteO_kept | split)

theorem runSweep_kept (s : State) (k : Nat) (i : Item) (hκ : Kept κ ζ s) : Kept κ ζ (runSweep s k i) := by
  unfold runSweep
  repeat' (first | with_reducible assumption | with_reducible apply logCup_kept | with_reducible apply endSweep_kept | with_reducible apply actSweep_kept | with_reducible apply setItem_kept | with_reducible apply settleLadle_kept | with_reducible apply swRead_kept | with_reducible intro _ | dsimp only | with_reducible apply ite_kept | with_reducible apply iteO_kept | split)

theorem execSweep_kept (c x q : Nat) (err : Option DataErr) (s : State) (hκ : Kept κ ζ s) : KeptO κ ζ (execSweep c x q err s) := by
  unfold execSweep
  repeat' (first | with_reducible assumption | with_reducible apply next_kept | with_reducible apply fault_kept | with_reducible apply done_kept | with_reducible apply runSweep_kept | with_reducible apply orWait_kept | with_reducible apply withIngot_kept | with_reducible apply ladlePrepare_kept | with_reducible apply sweepIssue_kept | with_reducible apply holdSweep_kept | with_reducible intro _ | dsimp only | with_reducible apply ite_kept | with_reducible apply iteO_kept | split)

theorem execLossScaleLoop_kept (s : State) (hκ : Kept κ ζ s) : KeptO κ ζ (execLossScaleLoop s) := by
  unfold execLossScaleLoop
  repeat' (first | with_reducible assumption | with_reducible apply next_kept | with_reducible apply fault_kept | with_reducible apply done_kept | with_reducible apply lossLoop_kept | with_reducible apply endSweep_kept | with_reducible apply orWait_kept | with_reducible intro _ | dsimp only | with_reducible apply ite_kept | with_reducible apply iteO_kept | split)

theorem endSweepOp_kept (t : Sw) (k : Nat) (i : Item) (detail : Nat) (hκ : Kept κ ζ t.1) : Kept κ ζ (endSweepOp t k i detail) := by
  unfold endSweepOp
  repeat' (first | with_reducible assumption | with_reducible apply swEntries_kept | with_reducible apply itemDone_kept | with_reducible apply setItem_kept | with_reducible intro _ | dsimp only | with_reducible apply ite_kept | with_reducible apply iteO_kept | split)

theorem sweepTake_kept (s : State) (k lop : Nat) (err : Option DataErr) {t : State} {i : Item}
    (h : sweepTake s k lop err = some (t, i)) (hκ : Kept κ ζ s) : Kept κ ζ t := by
  unfold sweepTake at h
  split at h
  · have := Option.some.inj h
    have h1 := sweepIssue_kept s k (by assumption) err hκ
    rw [this] at h1
    exact h1
  · obtain ⟨m, _, h⟩ := Option.map_eq_some_iff.1 h
    obtain ⟨rfl, rfl⟩ := Prod.mk.inj h
    exact hκ

theorem execStage_kept (c x q : Nat) (err : Option DataErr) (s : State) (hκ : Kept κ ζ s) : KeptO κ ζ (execStage c x q err s) := by
  unfold execStage
  repeat' (first | with_reducible assumption | with_reducible apply next_kept | with_reducible apply fault_kept | with_reducible apply done_kept | with_reducible apply endSweepOp_kept | with_reducible apply orWait_kept | with_reducible apply actStage_kept | with_reducible apply itemDone_kept | with_reducible refine sweepTake_kept _ _ _ _ (by with_reducible assumption) ?_ | with_reducible intro _ | dsimp only | with_reducible apply ite_kept | with_reducible apply iteO_kept | split)

theorem execSwcheck_kept (c x q : Nat) (err : Option DataErr) (s : State) (hκ : Kept κ ζ s) : KeptO κ ζ (execSwcheck c x q err s) := by
  unfold execSwcheck
  repeat' (first | with_reducible assumption | with_reducible apply next_kept | with_reducible apply fault_kept | with_reducible apply done_kept | with_reducible apply actSwcheck_kept | with_reducible apply endSweepOp_kept | with_reducible apply orWait_kept | with_reducible refine sweepTake_kept _ _ _ _ (by with_reducible assumption) ?_ | with_reducible intro _ | dsimp only | with_reducible apply ite_kept | with_reducible apply iteO_kept | split)

theorem discardBusy_kept (s : State) (src : Src) (ctx off : Nat) (hκ : Kept κ ζ s) : Kept κ ζ (discardBusy s src ctx off) := by
  unfold discardBusy
  repeat' (first | with_reducible assumption | with_reducible apply logSrc_kept | with_reducible apply logDiscard_kept | with_reducible intro _ | dsimp only | with_reducible apply ite_kept | with_reducible apply iteO_kept | split)

theorem scaleMaxWrite_kept (s : State) (src : Src) (v : Nat) (hκ : Kept κ ζ s) : Kept κ ζ (scaleMaxWrite s src v) := by
  unfold scaleMaxWrite
  repeat' (first | with_reducible assumption | with_reducible apply logCup_kept | with_reducible apply logAccepted_kept | with_reducible apply setReg_kept | with_reducible apply logDiscard_kept | with_reducible apply discardBusy_kept | with_reducible intro _ | dsimp only | with_reducible apply ite_kept | with_reducible apply iteO_kept | split)

theorem execLdlSwpScaleMaxWrite_kept (src : Src) (v : Word) (s : State) (hκ : Kept κ ζ s) : KeptO κ ζ (execLdlSwpScaleMaxWrite src v s) := by
  unfold execLdlSwpScaleMaxWrite
  repeat' (first | with_reducible assumption | with_reducible apply next_kept | with_reducible apply fault_kept | with_reducible apply done_kept | with_reducible apply scaleMaxWrite_kept | with_reducible apply emit_kept | with_reducible intro _ | dsimp only | with_reducible apply ite_kept | with_reducible apply iteO_kept | split)

theorem slagNfClear_kept (s : State) (src : Src) (x : Nat) (hκ : Kept κ ζ s) : Kept κ ζ (slagNfClear s src x) := by
  unfold slagNfClear
  repeat' (first | with_reducible assumption | with_reducible apply setReg_kept | with_reducible apply logAccepted_kept | with_reducible intro _ | dsimp only | with_reducible apply ite_kept | with_reducible apply iteO_kept | split)

theorem execLdlSlagNfClear_kept (src : Src) (x : Nat) (s : State) (hκ : Kept κ ζ s) : KeptO κ ζ (execLdlSlagNfClear src x s) := by
  unfold execLdlSlagNfClear
  repeat' (first | with_reducible assumption | with_reducible apply next_kept | with_reducible apply fault_kept | with_reducible apply done_kept | with_reducible apply slagNfClear_kept | with_reducible apply emit_kept | with_reducible intro _ | dsimp only | with_reducible apply ite_kept | with_reducible apply iteO_kept | split)

end Sys2Proof.Machine
end

