-- ==== Sys2Proof/Laws/Kept/Alloy.lean ====
section
/-! SUPPORT. What the operations of Machine/Alloy.lean keep. -/
set_option linter.all false
set_option simprocs false
namespace Sys2Proof.Machine
variable {κ : List Instr} {ζ : Bool × List Byte × Bool}

theorem setGrp_kept (s : State) (g : Nat) (v : AlyGroup) (hκ : Kept κ ζ s) : Kept κ ζ (setGrp s g v) := by
  unfold setGrp
  repeat' (first | with_reducible assumption | with_reducible intro _ | dsimp only | with_reducible apply ite_kept | with_reducible apply iteO_kept | split)

theorem setColl_kept (s : State) (g : Nat) (f : AlyColl → AlyColl) (hκ : Kept κ ζ s) : Kept κ ζ (setColl s g f) := by
  unfold setColl
  repeat' (first | with_reducible assumption | with_reducible apply setGrp_kept | with_reducible intro _ | dsimp only | with_reducible apply ite_kept | with_reducible apply iteO_kept | split)

theorem sendAly_kept (s : State) (name : String) (g seq aop dest : Nat) (rest : List Nat) (hκ : Kept κ ζ s) : Kept κ ζ (sendAly s name g seq aop dest rest) := by
  unfold sendAly
  repeat' (first | with_reducible assumption | with_reducible apply sendMsg_kept | with_reducible intro _ | dsimp only | with_reducible apply ite_kept | with_reducible apply iteO_kept | split)

theorem sendVoids_kept (s : State) (g seq aop : Nat) (dests : List Nat) (not_ : Nat) (hκ : Kept κ ζ s) : Kept κ ζ (sendVoids s g seq aop dests not_) := by
  unfold sendVoids
  repeat' (first | with_reducible assumption | with_reducible apply sendAly_kept | with_reducible apply foldl_kept | with_reducible apply foldl_kept1 | with_reducible apply foldl_kept11 | with_reducible apply filter_keeps | with_reducible apply filter_spad_keeps | with_reducible intro _ | dsimp only | with_reducible apply ite_kept | with_reducible apply iteO_kept | split)

theorem collEvent_kept (s : State) (g : Nat) (c : AlyColl) (status detail : Nat) (hκ : Kept κ ζ s) : Kept κ ζ (collEvent s g c status detail) := by
  unfold collEvent
  repeat' (first | with_reducible assumption | with_reducible apply logUnit_kept | with_reducible intro _ | dsimp only | with_reducible apply ite_kept | with_reducible apply iteO_kept | split)

theorem arrivalTable_kept (s : State) (g : Nat) (k : Nat) (crit : Nat) (hκ : Kept κ ζ s) : Kept κ ζ (arrivalTable s g k crit) := by
  unfold arrivalTable
  repeat' (first | with_reducible assumption | with_reducible apply devWrite_kept | with_reducible intro _ | dsimp only | with_reducible apply ite_kept | with_reducible apply iteO_kept | split)

theorem collCount_kept (s : State) (g : Nat) (c : AlyColl) (status : Nat) (hκ : Kept κ ζ s) : Kept κ ζ (collCount s g c status) := by
  unfold collCount
  repeat' (first | with_reducible assumption | with_reducible apply satAdd_kept | with_reducible apply setReg_kept | with_reducible apply countChoice_kept | with_reducible apply cntAdd_kept | with_reducible intro _ | dsimp only | with_reducible apply ite_kept | with_reducible apply iteO_kept | split)

theorem collEnd_kept (s : State) (g status detail : Nat) (hκ : Kept κ ζ s) : Kept κ ζ (collEnd s g status detail) := by
  unfold collEnd
  repeat' (first | with_reducible assumption | with_reducible apply setGrp_kept | with_reducible apply withInteg_kept | with_reducible apply dropReqs_kept | with_reducible apply itemDone_kept | with_reducible apply arrivalTable_kept | with_reducible apply collEvent_kept | with_reducible apply collCount_kept | with_reducible intro _ | dsimp only | with_reducible apply ite_kept | with_reducible apply iteO_kept | split)

theorem collFinish_kept (s : State) (g : Nat) (c : AlyColl) (hκ : Kept κ ζ s) : Kept κ ζ (collFinish s g c) := by
  unfold collFinish
  repeat' (first | with_reducible assumption | with_reducible apply collEnd_kept | with_reducible intro _ | dsimp only | with_reducible apply ite_kept | with_reducible apply iteO_kept | split)

theorem noteResidue_kept (s : State) (g residue op : Nat) (hκ : Kept κ ζ s) : Kept κ ζ (noteResidue s g residue op) := by
  unfold noteResidue
  repeat' (first | with_reducible assumption | with_reducible apply setColl_kept | with_reducible apply logUnit_kept | with_reducible apply cntAdd_kept | with_reducible intro _ | dsimp only | with_reducible apply ite_kept | with_reducible apply iteO_kept | split)

theorem alyRead_kept (s : State) (c : AlyColl) (err : Option DataErr) (a first n : Nat) (hκ : Kept κ ζ s) : Kept κ ζ (alyRead s c err a first n).1 := by
  unfold alyRead
  repeat' (first | with_reducible assumption | with_reducible apply devRead_kept | with_reducible intro _ | dsimp only | with_reducible apply ite_kept | with_reducible apply iteO_kept | split)

theorem alyWrite_kept (s : State) (c : AlyColl) (a first : Nat) (ws : List Word) (hκ : Kept κ ζ s) : Kept κ ζ (alyWrite s c a first ws).1 := by
  unfold alyWrite
  repeat' (first | with_reducible assumption | with_reducible apply devWrite_kept | with_reducible intro _ | dsimp only | with_reducible apply ite_kept | with_reducible apply iteO_kept | split)

theorem scalarResult_kept (s : State) (g : Nat) (c : AlyColl) (i : Item) (vals : List (Int × Nat)) (hκ : Kept κ ζ s) : Kept κ ζ (scalarResult s g c i vals) := by
  unfold scalarResult
  repeat' (first | with_reducible assumption | with_reducible apply setColl_kept | with_reducible apply alyWrite_kept | with_reducible apply collEnd_kept | with_reducible apply setReg_kept | with_reducible apply collFinish_kept | with_reducible intro _ | dsimp only | with_reducible apply ite_kept | with_reducible apply iteO_kept | split)

theorem scalarStep_kept (s : State) (g : Nat) (c : AlyColl) (i : Item) (hκ : Kept κ ζ s) : Kept κ ζ (scalarStep s g c i) := by
  unfold scalarStep
  repeat' (first | with_reducible assumption | with_reducible apply scalarResult_kept | with_reducible apply sendAly_kept | with_reducible apply noteResidue_kept | with_reducible apply setColl_kept | with_reducible apply foldl_kept | with_reducible apply foldl_kept1 | with_reducible apply foldl_kept11 | with_reducible intro _ | dsimp only | with_reducible apply ite_kept | with_reducible apply iteO_kept | split)

theorem sendReady_kept (s : State) (g : Nat) (c : AlyColl) (i : Item) (p : AlyPour) (hκ : Kept κ ζ s) : Kept κ ζ (sendReady s g c i p) := by
  unfold sendReady
  repeat' (first | with_reducible assumption | with_reducible apply sendAly_kept | with_reducible intro _ | dsimp only | with_reducible apply ite_kept | with_reducible apply iteO_kept | split)

theorem feedback_kept (s : State) (g : Nat) (c : AlyColl) (i : Item) (first : Nat) (ps : List Word) (hκ : Kept κ ζ s) : Kept κ ζ (feedback s g c i first ps).1 := by
  unfold feedback
  repeat' (first | with_reducible assumption | with_reducible apply setColl_kept | with_reducible apply cntAdd_kept | with_reducible apply logUnit_kept | with_reducible apply alyWrite_kept | with_reducible apply alyRead_kept | with_reducible apply foldl_kept | with_reducible apply foldl_kept1 | with_reducible apply foldl_kept11 | with_reducible apply filter_keeps | with_reducible apply filter_spad_keeps | with_reducible intro _ | dsimp only | with_reducible apply ite_kept | with_reducible apply iteO_kept | split)

theorem sendStage_kept (s : State) (g : Nat) (c : AlyColl) (i : Item) (p : AlyPour) (dest addr : Nat) (hκ : Kept κ ζ s) : Kept κ ζ (sendStage s g c i p dest addr) := by
  unfold sendStage
  repeat' (first | with_reducible assumption | with_reducible apply addReq_kept | with_reducible apply feedback_kept | with_reducible apply setColl_kept | with_reducible apply alyRead_kept | with_reducible apply foldl_kept | with_reducible apply foldl_kept1 | with_reducible apply foldl_kept11 | with_reducible intro _ | dsimp only | with_reducible apply ite_kept | with_reducible apply iteO_kept | split)

theorem ownShard_kept (s : State) (g : Nat) (c : AlyColl) (i : Item) (r : Nat × Nat) (hκ : Kept κ ζ s) : Kept κ ζ (ownShard s g c i r) := by
  unfold ownShard
  repeat' (first | with_reducible assumption | with_reducible apply setColl_kept | with_reducible apply alyWrite_kept | with_reducible apply feedback_kept | with_reducible apply alyRead_kept | with_reducible apply filter_keeps | with_reducible apply filter_spad_keeps | with_reducible intro _ | dsimp only | with_reducible apply ite_kept | with_reducible apply iteO_kept | split)

theorem startPour_kept (s : State) (g : Nat) (c : AlyColl) (i : Item) (hκ : Kept κ ζ s) : Kept κ ζ (startPour s g c i) := by
  unfold startPour
  repeat' (first | with_reducible assumption | with_reducible apply sendReady_kept | with_reducible apply setColl_kept | with_reducible intro _ | dsimp only | with_reducible apply ite_kept | with_reducible apply iteO_kept | split)

theorem setPour_kept (s : State) (g pour : Nat) (f : AlyPour → AlyPour) (hκ : Kept κ ζ s) : Kept κ ζ (setPour s g pour f) := by
  unfold setPour
  repeat' (first | with_reducible assumption | with_reducible apply setColl_kept | with_reducible intro _ | dsimp only | with_reducible apply ite_kept | with_reducible apply iteO_kept | split)

theorem endStage_kept (s : State) (g : Nat) (c : AlyColl) (i : Item) (p : AlyPour) (pk : AlyPkt) (hκ : Kept κ ζ s) : Kept κ ζ (endStage s g c i p pk) := by
  unfold endStage
  repeat' (first | with_reducible assumption | with_reducible apply setPour_kept | with_reducible apply sendReady_kept | with_reducible apply ownShard_kept | with_reducible apply noteResidue_kept | with_reducible apply alyWrite_kept | with_reducible apply alyRead_kept | with_reducible apply setColl_kept | with_reducible apply filter_keeps | with_reducible apply filter_spad_keeps | with_reducible intro _ | dsimp only | with_reducible apply ite_kept | with_reducible apply iteO_kept | split)

theorem pourStep_kept (s : State) (g : Nat) (c : AlyColl) (i : Item) {t : State} (h : pourStep s g c i = some t)
    (hκ : Kept κ ζ s) : Kept κ ζ t := by
  unfold pourStep at h
  obtain ⟨p, _, h⟩ := List.exists_of_findSome?_eq_some h
  dsimp only at h
  split at h
  · obtain ⟨q, _, rfl⟩ := Option.map_eq_some_iff.1 h
    exact setPour_kept _ _ _ _ (sendStage_kept _ _ _ _ _ _ _ (setColl_kept _ _ _ hκ))
  · split at h
    · split at h
      · cases h
      · obtain rfl := Option.some.inj h
        exact setPour_kept _ _ _ _ (sendAly_kept _ _ _ _ _ _ _ (withLadle_kept _ _ hκ))
    · obtain ⟨q, _, rfl⟩ := Option.map_eq_some_iff.1 h
      exact endStage_kept _ _ _ _ _ _ hκ

theorem laneResults_kept (s : State) (g : Nat) (c : AlyColl) (i : Item) (hκ : Kept κ ζ s) : Kept κ ζ (laneResults s g c i) := by
  unfold laneResults
  repeat' (first | with_reducible assumption | with_reducible apply alyWrite_kept | with_reducible apply setColl_kept | with_reducible apply collFinish_kept | with_reducible apply devRead_kept | with_reducible apply foldl_kept | with_reducible apply foldl_kept1 | with_reducible apply foldl_kept11 | with_reducible intro _ | dsimp only | with_reducible apply ite_kept | with_reducible apply iteO_kept | split)

theorem laneStep_kept (s : State) (g : Nat) (c : AlyColl) (i : Item) (hκ : Kept κ ζ s) : Kept κ ζ (laneStep s g c i) := by
  unfold laneStep
  repeat' (first | with_reducible assumption | with_reducible apply noteResidue_kept | with_reducible apply sendAly_kept | with_reducible apply setColl_kept | with_reducible apply laneResults_kept | with_reducible intro _ | dsimp only | with_reducible apply ite_kept | with_reducible apply iteO_kept | split)

theorem reduceStep_kept (s : State) (g : Nat) (c : AlyColl) (i : Item) (hκ : Kept κ ζ s) : Kept κ ζ (reduceStep s g c i) := by
  unfold reduceStep
  repeat' (first | with_reducible assumption | with_reducible apply laneStep_kept | with_reducible refine pourStep_kept _ _ _ _ (by with_reducible assumption) ?_ | with_reducible apply startPour_kept | with_reducible apply ownShard_kept | with_reducible apply setColl_kept | with_reducible apply collFinish_kept | with_reducible apply laneResults_kept | with_reducible intro _ | dsimp only | with_reducible apply ite_kept | with_reducible apply iteO_kept | split)

theorem chunkSend_kept (s : State) (g : Nat) (c : AlyColl) (i : Item) (m n : Nat) (hκ : Kept κ ζ s) : Kept κ ζ (chunkSend s g c i m n) := by
  unfold chunkSend
  repeat' (first | with_reducible assumption | with_reducible apply addReq_kept | with_reducible apply setColl_kept | with_reducible apply devRead_kept | with_reducible intro _ | dsimp only | with_reducible apply ite_kept | with_reducible apply iteO_kept | split)

theorem bcastStep_kept (s : State) (g : Nat) (c : AlyColl) (i : Item) (hκ : Kept κ ζ s) : Kept κ ζ (bcastStep s g c i) := by
  unfold bcastStep
  repeat' (first | with_reducible assumption | with_reducible apply collFinish_kept | with_reducible apply chunkSend_kept | with_reducible apply setColl_kept | with_reducible apply devWrite_kept | with_reducible apply filter_keeps | with_reducible apply filter_spad_keeps | with_reducible intro _ | dsimp only | with_reducible apply ite_kept | with_reducible apply iteO_kept | split)

theorem collStep_kept (s : State) (g : Nat) (hκ : Kept κ ζ s) : Kept κ ζ (collStep s g) := by
  unfold collStep
  repeat' (first | with_reducible assumption | with_reducible apply scalarStep_kept | with_reducible apply bcastStep_kept | with_reducible apply reduceStep_kept | with_reducible intro _ | dsimp only | with_reducible apply ite_kept | with_reducible apply iteO_kept | split)

theorem newColl_kept (s : State) (key idx seq : Nat) (i : Item) (inbox : List AlyPkt) (hκ : Kept κ ζ s) : Kept κ ζ (newColl s key idx seq i inbox).1 := by
  unfold newColl
  repeat' (first | with_reducible assumption | with_reducible apply devRead_kept | with_reducible apply alyRead_kept | with_reducible intro _ | dsimp only | with_reducible apply ite_kept | with_reducible apply iteO_kept | split)

theorem collBegin_noteVoid_kept (s : State) (g seq sender : Nat) (hκ : Kept κ ζ s) : Kept κ ζ (collBegin.noteVoid s g seq sender) := by
  unfold collBegin.noteVoid
  repeat' (first | with_reducible assumption | with_reducible apply setGrp_kept | with_reducible apply filter_keeps | with_reducible apply filter_spad_keeps | with_reducible intro _ | dsimp only | with_reducible apply ite_kept | with_reducible apply iteO_kept | split)

theorem collBegin_kept (s : State) (g : Nat) (hκ : Kept κ ζ s) : Kept κ ζ (collBegin s g) := by
  unfold collBegin
  repeat' (first | with_reducible assumption | with_reducible apply sendAly_kept | with_reducible apply logUnit_kept | with_reducible apply collBegin_noteVoid_kept | with_reducible apply sendVoids_kept | with_reducible apply collEnd_kept | with_reducible apply newColl_kept | with_reducible apply setGrp_kept | with_reducible apply filter_keeps | with_reducible apply filter_spad_keeps | with_reducible intro _ | dsimp only | with_reducible apply ite_kept | with_reducible apply iteO_kept | split)

theorem grpRun_kept (n : Nat) (s : State) (g : Nat) (hκ : Kept κ ζ s) : Kept κ ζ (grpRun n s g) := by
  induction n generalizing s with
  | zero => exact hκ
  | succ n ih =>
    unfold grpRun
    repeat' (first | with_reducible assumption | with_reducible apply ih | with_reducible apply collStep_kept | with_reducible apply collBegin_kept | dsimp only | split)

theorem grpGo_kept (s : State) (g : Nat) (hκ : Kept κ ζ s) : Kept κ ζ (grpGo s g) := by
  unfold grpGo
  repeat' (first | with_reducible assumption | with_reducible apply grpRun_kept | with_reducible intro _ | dsimp only | with_reducible apply ite_kept | with_reducible apply iteO_kept | split)

theorem alyJoin_kept (s : State) (k : Nat) (i : Item) (e : Option DataErr) (hκ : Kept κ ζ s) : Kept κ ζ (alyJoin s k i e) := by
  unfold alyJoin
  repeat' (first | with_reducible assumption | with_reducible apply grpGo_kept | with_reducible apply setGrp_kept | with_reducible apply parityFound_kept | with_reducible apply issueItem_kept | with_reducible apply setItem_kept | with_reducible intro _ | dsimp only | with_reducible apply ite_kept | with_reducible apply iteO_kept | split)

theorem alyCommand_kept (s : State) (c x q aop : Nat) (err : Option DataErr) (hκ : Kept κ ζ s) : Kept κ ζ (alyCommand s c x q aop err) := by
  unfold alyCommand
  repeat' (first | with_reducible assumption | with_reducible apply alyJoin_kept | with_reducible apply orWait_kept | with_reducible intro _ | dsimp only | with_reducible apply ite_kept | with_reducible apply iteO_kept | split)

theorem execBarrier_kept (c x q : Nat) (s : State) (hκ : Kept κ ζ s) : KeptO κ ζ (execBarrier c x q s) := by
  unfold execBarrier
  repeat' (first | with_reducible assumption | with_reducible apply next_kept | with_reducible apply fault_kept | with_reducible apply done_kept | with_reducible apply alyCommand_kept | with_reducible intro _ | dsimp only | with_reducible apply ite_kept | with_reducible apply iteO_kept | split)

theorem execPhase_kept (c x q : Nat) (s : State) (hκ : Kept κ ζ s) : KeptO κ ζ (execPhase c x q s) := by
  unfold execPhase
  repeat' (first | with_reducible assumption | with_reducible apply next_kept | with_reducible apply fault_kept | with_reducible apply done_kept | with_reducible apply alyCommand_kept | with_reducible intro _ | dsimp only | with_reducible apply ite_kept | with_reducible apply iteO_kept | split)

theorem execScalar_kept (c x q : Nat) (err : Option DataErr) (s : State) (hκ : Kept κ ζ s) : KeptO κ ζ (execScalar c x q err s) := by
  unfold execScalar
  repeat' (first | with_reducible assumption | with_reducible apply next_kept | with_reducible apply fault_kept | with_reducible apply done_kept | with_reducible apply alyCommand_kept | with_reducible intro _ | dsimp only | with_reducible apply ite_kept | with_reducible apply iteO_kept | split)

theorem execReduce_kept (c x q : Nat) (err : Option DataErr) (s : State) (hκ : Kept κ ζ s) : KeptO κ ζ (execReduce c x q err s) := by
  unfold execReduce
  repeat' (first | with_reducible assumption | with_reducible apply next_kept | with_reducible apply fault_kept | with_reducible apply done_kept | with_reducible apply alyCommand_kept | with_reducible intro _ | dsimp only | with_reducible apply ite_kept | with_reducible apply iteO_kept | split)

theorem execBcast_kept (c x q : Nat) (err : Option DataErr) (s : State) (hκ : Kept κ ζ s) : KeptO κ ζ (execBcast c x q err s) := by
  unfold execBcast
  repeat' (first | with_reducible assumption | with_reducible apply next_kept | with_reducible apply fault_kept | with_reducible apply done_kept | with_reducible apply alyCommand_kept | with_reducible intro _ | dsimp only | with_reducible apply ite_kept | with_reducible apply iteO_kept | split)

theorem grpCancel_kept (s : State) (g : Nat) (hκ : Kept κ ζ s) : Kept κ ζ (grpCancel s g) := by
  unfold grpCancel
  repeat' (first | with_reducible assumption | with_reducible apply setColl_kept | with_reducible apply sendVoids_kept | with_reducible apply collEnd_kept | with_reducible apply collBegin_noteVoid_kept | with_reducible apply grpGo_kept | with_reducible apply setGrp_kept | with_reducible intro _ | dsimp only | with_reducible apply ite_kept | with_reducible apply iteO_kept | split)

theorem execCancel_kept (c x q : Nat) (s : State) (hκ : Kept κ ζ s) : KeptO κ ζ (execCancel c x q s) := by
  unfold execCancel
  repeat' (first | with_reducible assumption | with_reducible apply next_kept | with_reducible apply fault_kept | with_reducible apply done_kept | with_reducible apply grpCancel_kept | with_reducible apply completeItem_kept | with_reducible apply orWait_kept | with_reducible intro _ | dsimp only | with_reducible apply ite_kept | with_reducible apply iteO_kept | split)

theorem grpMismatch_kept (s : State) (g : Nat) (p : AlyPkt) (sig : Nat) (hκ : Kept κ ζ s) : Kept κ ζ (grpMismatch s g p sig) := by
  unfold grpMismatch
  repeat' (first | with_reducible assumption | with_reducible apply sendVoids_kept | with_reducible apply collEnd_kept | with_reducible apply grpGo_kept | with_reducible apply collBegin_noteVoid_kept | with_reducible apply logUnit_kept | with_reducible intro _ | dsimp only | with_reducible apply ite_kept | with_reducible apply iteO_kept | split)

theorem alyArrive_other_kept (g aop : Nat) (p : AlyPkt) (s : State) (v : AlyGroup) (hκ : Kept κ ζ s) :
    Kept κ ζ (alyArrive.other g aop p s v) := by
  unfold alyArrive.other
  repeat' (first | with_reducible assumption | with_reducible apply sendAly_kept | with_reducible apply setGrp_kept | dsimp only | split)

theorem alyArrive_kept (s : State) (g sig aop : Nat) (p : AlyPkt) (hκ : Kept κ ζ s) : Kept κ ζ (alyArrive s g sig aop p) := by
  unfold alyArrive
  repeat' (first | with_reducible assumption | with_reducible apply alyArrive_other_kept | with_reducible apply setColl_kept | with_reducible apply grpGo_kept | with_reducible apply grpMismatch_kept | with_reducible intro _ | dsimp only | with_reducible apply ite_kept | with_reducible apply iteO_kept | split)

theorem execUpPacket_kept (g seq sender sig aop crit dim : Nat) (fault : Option Nat) (residue : Nat) (vals : List (Int × Nat)) (s : State) (hκ : Kept κ ζ s) : KeptO κ ζ (execUpPacket g seq sender sig aop crit dim fault residue vals s) := by
  unfold execUpPacket
  repeat' (first | with_reducible assumption | with_reducible apply next_kept | with_reducible apply fault_kept | with_reducible apply done_kept | with_reducible apply alyArrive_kept | with_reducible apply orWait_kept | with_reducible apply dropArrival_kept | with_reducible intro _ | dsimp only | with_reducible apply ite_kept | with_reducible apply iteO_kept | split)

theorem execDownPacket_kept (g seq sender sig aop crit dim : Nat) (fault : Option Nat) (vals : List (Int × Nat)) (s : State) (hκ : Kept κ ζ s) : KeptO κ ζ (execDownPacket g seq sender sig aop crit dim fault vals s) := by
  unfold execDownPacket
  repeat' (first | with_reducible assumption | with_reducible apply next_kept | with_reducible apply fault_kept | with_reducible apply done_kept | with_reducible apply alyArrive_kept | with_reducible apply orWait_kept | with_reducible apply dropArrival_kept | with_reducible intro _ | dsimp only | with_reducible apply ite_kept | with_reducible apply iteO_kept | split)

theorem execReadyNotice_kept (g seq sender sig aop pour stage addr : Nat) (fault : Option Nat) (s : State) (hκ : Kept κ ζ s) : KeptO κ ζ (execReadyNotice g seq sender sig aop pour stage addr fault s) := by
  unfold execReadyNotice
  repeat' (first | with_reducible assumption | with_reducible apply next_kept | with_reducible apply fault_kept | with_reducible apply done_kept | with_reducible apply alyArrive_kept | with_reducible apply orWait_kept | with_reducible apply dropArrival_kept | with_reducible intro _ | dsimp only | with_reducible apply ite_kept | with_reducible apply iteO_kept | split)

theorem execDoneNotice_kept (g seq sender sig pour stage crit dim : Nat) (fault : Option Nat) (residue : Nat) (s : State) (hκ : Kept κ ζ s) : KeptO κ ζ (execDoneNotice g seq sender sig pour stage crit dim fault residue s) := by
  unfold execDoneNotice
  repeat' (first | with_reducible assumption | with_reducible apply next_kept | with_reducible apply fault_kept | with_reducible apply done_kept | with_reducible apply alyArrive_kept | with_reducible apply orWait_kept | with_reducible apply dropArrival_kept | with_reducible intro _ | dsimp only | with_reducible apply ite_kept | with_reducible apply iteO_kept | split)

theorem execLanePartials_kept (g seq sender sig stage crit dim : Nat) (flag : Bool) (fault : Option Nat) (residue : Nat) (lanes : List (Nat × Nat × Bool)) (s : State) (hκ : Kept κ ζ s) : KeptO κ ζ (execLanePartials g seq sender sig stage crit dim flag fault residue lanes s) := by
  unfold execLanePartials
  repeat' (first | with_reducible assumption | with_reducible apply next_kept | with_reducible apply fault_kept | with_reducible apply done_kept | with_reducible apply alyArrive_kept | with_reducible apply orWait_kept | with_reducible apply dropArrival_kept | with_reducible intro _ | dsimp only | with_reducible apply ite_kept | with_reducible apply iteO_kept | split)

theorem execBcastChunk_kept (g seq sender sig chunk dim : Nat) (data : List Byte) (s : State) (hκ : Kept κ ζ s) : KeptO κ ζ (execBcastChunk g seq sender sig chunk dim data s) := by
  unfold execBcastChunk
  repeat' (first | with_reducible assumption | with_reducible apply next_kept | with_reducible apply fault_kept | with_reducible apply done_kept | with_reducible apply alyArrive_kept | with_reducible apply orWait_kept | with_reducible apply dropArrival_kept | with_reducible intro _ | dsimp only | with_reducible apply ite_kept | with_reducible apply iteO_kept | split)

theorem voidArrive_kept (s : State) (g seq sender sig : Nat) (hκ : Kept κ ζ s) : Kept κ ζ (voidArrive s g seq sender sig) := by
  unfold voidArrive
  repeat' (first | with_reducible assumption | with_reducible apply sendVoids_kept | with_reducible apply collEnd_kept | with_reducible apply grpGo_kept | with_reducible apply collBegin_noteVoid_kept | with_reducible intro _ | dsimp only | with_reducible apply ite_kept | with_reducible apply iteO_kept | split)

theorem execVoid_kept (g seq sender sig : Nat) (s : State) (hκ : Kept κ ζ s) : KeptO κ ζ (execVoid g seq sender sig s) := by
  unfold execVoid
  repeat' (first | with_reducible assumption | with_reducible apply next_kept | with_reducible apply fault_kept | with_reducible apply done_kept | with_reducible apply voidArrive_kept | with_reducible apply orWait_kept | with_reducible apply dropArrival_kept | with_reducible intro _ | dsimp only | with_reducible apply ite_kept | with_reducible apply iteO_kept | split)

theorem grpEnable_kept (s : State) (src : Src) (g v : Nat) (note : Bool) (hκ : Kept κ ζ s) : Kept κ ζ (grpEnable s src g v note) := by
  unfold grpEnable
  repeat' (first | with_reducible assumption | with_reducible apply setGrp_kept | with_reducible apply logAccIf_kept | with_reducible apply setReg_kept | with_reducible apply logSrc_kept | with_reducible apply logDiscard_kept | with_reducible intro _ | dsimp only | with_reducible apply ite_kept | with_reducible apply iteO_kept | split)

theorem execAlyGrpEnable_kept (src : Src) (g : Nat) (v : Word) (s : State) (hκ : Kept κ ζ s) : KeptO κ ζ (execAlyGrpEnable src g v s) := by
  unfold execAlyGrpEnable
  repeat' (first | with_reducible assumption | with_reducible apply next_kept | with_reducible apply fault_kept | with_reducible apply done_kept | with_reducible apply grpEnable_kept | with_reducible apply emit_kept | with_reducible intro _ | dsimp only | with_reducible apply ite_kept | with_reducible apply iteO_kept | split)

theorem grpDisable_kept (s : State) (src : Src) (g : Nat) (note : Bool) (hκ : Kept κ ζ s) : Kept κ ζ (grpDisable s src g note) := by
  unfold grpDisable
  repeat' (first | with_reducible assumption | with_reducible apply setReg_kept | with_reducible apply setGrp_kept | with_reducible apply logAccIf_kept | with_reducible apply logSrc_kept | with_reducible apply logDiscard_kept | with_reducible intro _ | dsimp only | with_reducible apply ite_kept | with_reducible apply iteO_kept | split)

theorem execAlyGrpDisable_kept (src : Src) (g : Nat) (s : State) (hκ : Kept κ ζ s) : KeptO κ ζ (execAlyGrpDisable src g s) := by
  unfold execAlyGrpDisable
  repeat' (first | with_reducible assumption | with_reducible apply next_kept | with_reducible apply fault_kept | with_reducible apply done_kept | with_reducible apply grpDisable_kept | with_reducible apply emit_kept | with_reducible intro _ | dsimp only | with_reducible apply ite_kept | with_reducible apply iteO_kept | split)

theorem grpAbort_kept (s : State) (src : Src) (g : Nat) (note : Bool) (hκ : Kept κ ζ s) : Kept κ ζ (grpAbort s src g note) := by
  unfold grpAbort
  repeat' (first | with_reducible assumption | with_reducible apply logUnit_kept | with_reducible apply logAccIf_kept | with_reducible apply setGrp_kept | with_reducible apply dropReqs_kept | with_reducible apply itemDone_kept | with_reducible apply logDiscard_kept | with_reducible apply foldl_kept | with_reducible apply foldl_kept1 | with_reducible apply foldl_kept11 | with_reducible intro _ | dsimp only | with_reducible apply ite_kept | with_reducible apply iteO_kept | split)

theorem execAlyGrpAbort_kept (src : Src) (g : Nat) (s : State) (hκ : Kept κ ζ s) : KeptO κ ζ (execAlyGrpAbort src g s) := by
  unfold execAlyGrpAbort
  repeat' (first | with_reducible assumption | with_reducible apply next_kept | with_reducible apply fault_kept | with_reducible apply done_kept | with_reducible apply grpAbort_kept | with_reducible apply emit_kept | with_reducible intro _ | dsimp only | with_reducible apply ite_kept | with_reducible apply iteO_kept | split)

theorem grpCancelWrite_kept (s : State) (src : Src) (g : Nat) (note : Bool) (hκ : Kept κ ζ s) : Kept κ ζ (grpCancelWrite s src g note) := by
  unfold grpCancelWrite
  repeat' (first | with_reducible assumption | with_reducible apply logAccIf_kept | with_reducible apply grpCancel_kept | with_reducible apply logDiscard_kept | with_reducible intro _ | dsimp only | with_reducible apply ite_kept | with_reducible apply iteO_kept | split)

theorem execAlyGrpCancel_kept (src : Src) (g : Nat) (s : State) (hκ : Kept κ ζ s) : KeptO κ ζ (execAlyGrpCancel src g s) := by
  unfold execAlyGrpCancel
  repeat' (first | with_reducible assumption | with_reducible apply next_kept | with_reducible apply fault_kept | with_reducible apply done_kept | with_reducible apply grpCancelWrite_kept | with_reducible apply orWait_kept | with_reducible apply emit_kept | with_reducible intro _ | dsimp only | with_reducible apply ite_kept | with_reducible apply iteO_kept | split)

theorem execAlloyTest_kept (s : State) (hκ : Kept κ ζ s) : KeptO κ ζ (execAlloyTest s) := by
  unfold execAlloyTest
  repeat' (first | with_reducible assumption | with_reducible apply next_kept | with_reducible apply fault_kept | with_reducible apply done_kept | with_reducible apply withInteg_kept | with_reducible intro _ | dsimp only | with_reducible apply ite_kept | with_reducible apply iteO_kept | split)

theorem execAlloyTestEnd_kept (pass : Bool) (s : State) (hκ : Kept κ ζ s) : KeptO κ ζ (execAlloyTestEnd pass s) := by
  unfold execAlloyTestEnd
  repeat' (first | with_reducible assumption | with_reducible apply next_kept | with_reducible apply fault_kept | with_reducible apply done_kept | with_reducible apply logCup_kept | with_reducible apply withInteg_kept | with_reducible intro _ | dsimp only | with_reducible apply ite_kept | with_reducible apply iteO_kept | split)

theorem answerAny_kept (s : State) (r : LReq) (code detail : Nat) (data : List Byte) (hκ : Kept κ ζ s) : Kept κ ζ (answerAny s r code detail data) := by
  unfold answerAny
  repeat' (first | with_reducible assumption | with_reducible apply grpGo_kept | with_reducible apply withLadle_kept | with_reducible apply setReq_kept | with_reducible apply answerReq_kept | with_reducible intro _ | dsimp only | with_reducible apply ite_kept | with_reducible apply iteO_kept | split)

theorem execLadleResponse_kept (id code detail : Nat) (data : List Byte) (s : State) (hκ : Kept κ ζ s) : KeptO κ ζ (execLadleResponse id code detail data s) := by
  unfold execLadleResponse
  repeat' (first | with_reducible assumption | with_reducible apply next_kept | with_reducible apply fault_kept | with_reducible apply done_kept | with_reducible apply answerAny_kept | with_reducible apply cntAdd_kept | with_reducible apply dropArrival_kept | with_reducible intro _ | dsimp only | with_reducible apply ite_kept | with_reducible apply iteO_kept | split)

theorem execRemoteRequestTimeout_kept (id : Nat) (s : State) (hκ : Kept κ ζ s) : KeptO κ ζ (execRemoteRequestTimeout id s) := by
  unfold execRemoteRequestTimeout
  repeat' (first | with_reducible assumption | with_reducible apply next_kept | with_reducible apply fault_kept | with_reducible apply done_kept | with_reducible apply answerAny_kept | with_reducible apply withFlask_kept | with_reducible apply setLine_kept | with_reducible apply cntAdd_kept | with_reducible apply logUnit_kept | with_reducible apply filter_keeps | with_reducible apply filter_spad_keeps | with_reducible intro _ | dsimp only | with_reducible apply ite_kept | with_reducible apply iteO_kept | split)

end Sys2Proof.Machine
end

