-- ==== Sys2Proof/Laws/Kept/Flask.lean ====
section
/-! SUPPORT. What the operations of Machine/Flask.lean keep. -/
set_option linter.all false
set_option simprocs false
namespace Sys2Proof.Machine
variable {κ : List Instr} {ζ : Bool × List Byte × Bool}

theorem homeStore_kept (s : State) (l off : Nat) (bs : List Byte) (hκ : Kept κ ζ s) : Kept κ ζ (homeStore s l off bs).1 := by
  unfold homeStore
  repeat' (first | with_reducible assumption | with_reducible apply tierWrite_kept | with_reducible apply copyOnWrite_kept | with_reducible apply raInvalidate_kept | with_reducible apply foldl_kept | with_reducible apply foldl_kept1 | with_reducible apply foldl_kept11 | with_reducible intro _ | dsimp only | with_reducible apply ite_kept | with_reducible apply iteO_kept | split)

theorem homeLoad_kept (s : State) (l : Nat) (hκ : Kept κ ζ s) : Kept κ ζ (homeLoad s l).1 := by
  unfold homeLoad
  repeat' (first | with_reducible assumption | with_reducible apply tierRead_kept | with_reducible intro _ | dsimp only | with_reducible apply ite_kept | with_reducible apply iteO_kept | split)

theorem touchLine_kept (s : State) (l : Nat) (hκ : Kept κ ζ s) : Kept κ ζ (touchLine s l) := by
  unfold touchLine
  repeat' (first | with_reducible assumption | with_reducible apply logUnit_kept | with_reducible apply copyOnWrite_kept | with_reducible apply setPoison_kept | with_reducible apply setDirEntry_kept | with_reducible apply foldl_kept | with_reducible apply foldl_kept1 | with_reducible apply foldl_kept11 | with_reducible apply filter_keeps | with_reducible apply filter_spad_keeps | with_reducible intro _ | dsimp only | with_reducible apply ite_kept | with_reducible apply iteO_kept | split)

theorem sendRsp_kept (s : State) (name : String) (pos slice bank : Nat) (words : List Nat) (data : List Byte) (hκ : Kept κ ζ s) : Kept κ ζ (sendRsp s name pos slice bank words data) := by
  unfold sendRsp
  repeat' (first | with_reducible assumption | with_reducible apply sendMsg_kept | with_reducible intro _ | dsimp only | with_reducible apply ite_kept | with_reducible apply iteO_kept | split)

theorem closeTx_kept (s : State) (t : HomeTx) (hκ : Kept κ ζ s) : Kept κ ζ (closeTx s t) := by
  unfold closeTx
  repeat' (first | with_reducible assumption | with_reducible apply withFlask_kept | with_reducible apply cntAdd_kept | with_reducible apply filter_keeps | with_reducible apply filter_spad_keeps | with_reducible intro _ | dsimp only | with_reducible apply ite_kept | with_reducible apply iteO_kept | split)

theorem awaitDone_kept (s : State) (t : HomeTx) (hκ : Kept κ ζ s) : Kept κ ζ (awaitDone s t) := by
  unfold awaitDone
  repeat' (first | with_reducible assumption | with_reducible apply withFlask_kept | with_reducible intro _ | dsimp only | with_reducible apply ite_kept | with_reducible apply iteO_kept | split)

theorem serveTx_kept (s0 : State) (t : HomeTx) (hκ : Kept κ ζ s0) : Kept κ ζ (serveTx s0 t) := by
  unfold serveTx
  repeat' (first | with_reducible assumption | with_reducible apply closeTx_kept | with_reducible apply tierRead_kept | with_reducible apply homeStore_kept | with_reducible apply setDirEntry_kept | with_reducible apply awaitDone_kept | with_reducible apply homeLoad_kept | with_reducible apply sendRsp_kept | with_reducible apply touchLine_kept | with_reducible intro _ | dsimp only | with_reducible apply ite_kept | with_reducible apply iteO_kept | split)

theorem startTx_kept (s0 : State) (t : HomeTx) (hκ : Kept κ ζ s0) : Kept κ ζ (startTx s0 t) := by
  unfold startTx
  repeat' (first | with_reducible assumption | with_reducible apply serveTx_kept | with_reducible apply withFlask_kept | with_reducible apply cntAdd_kept | with_reducible apply sendRsp_kept | with_reducible apply touchLine_kept | with_reducible apply foldl_kept | with_reducible apply foldl_kept1 | with_reducible apply foldl_kept11 | with_reducible intro _ | dsimp only | with_reducible apply ite_kept | with_reducible apply iteO_kept | split)

theorem pumpHome_kept (n : Nat) (s : State) (hκ : Kept κ ζ s) : Kept κ ζ (pumpHome n s) := by
  induction n generalizing s with
  | zero => exact hκ
  | succ n ih =>
    unfold pumpHome
    repeat' (first | with_reducible assumption | with_reducible apply ih | with_reducible apply startTx_kept | with_reducible apply withFlask_kept | dsimp only | split)

theorem homePump_kept (s : State) (hκ : Kept κ ζ s) : Kept κ ζ (homePump s) := by
  unfold homePump
  repeat' (first | with_reducible assumption | with_reducible apply pumpHome_kept | with_reducible intro _ | dsimp only | with_reducible apply ite_kept | with_reducible apply iteO_kept | split)

theorem homeRequest_kept (s : State) (k : WinReq) (pos off tag slice bank : Nat) (cut : Option Nat) (data : List Byte) (hκ : Kept κ ζ s) : Kept κ ζ (homeRequest s k pos off tag slice bank cut data) := by
  unfold homeRequest
  repeat' (first | with_reducible assumption | with_reducible apply withFlask_kept | with_reducible apply homePump_kept | with_reducible apply logUnit_kept | with_reducible apply sendRsp_kept | with_reducible intro _ | dsimp only | with_reducible apply ite_kept | with_reducible apply iteO_kept | split)

theorem execRdS_kept (pos off tag slice bank : Nat) (cut : Option Nat) (s : State) (hκ : Kept κ ζ s) : KeptO κ ζ (execRdS pos off tag slice bank cut s) := by
  unfold execRdS
  repeat' (first | with_reducible assumption | with_reducible apply next_kept | with_reducible apply fault_kept | with_reducible apply done_kept | with_reducible apply homeRequest_kept | with_reducible apply orWait_kept | with_reducible apply dropArrival_kept | with_reducible intro _ | dsimp only | with_reducible apply ite_kept | with_reducible apply iteO_kept | split)

theorem execRdX_kept (pos off tag slice bank : Nat) (cut : Option Nat) (s : State) (hκ : Kept κ ζ s) : KeptO κ ζ (execRdX pos off tag slice bank cut s) := by
  unfold execRdX
  repeat' (first | with_reducible assumption | with_reducible apply next_kept | with_reducible apply fault_kept | with_reducible apply done_kept | with_reducible apply homeRequest_kept | with_reducible apply orWait_kept | with_reducible apply dropArrival_kept | with_reducible intro _ | dsimp only | with_reducible apply ite_kept | with_reducible apply iteO_kept | split)

theorem execRdOnce_kept (pos off tag slice bank : Nat) (cut : Option Nat) (s : State) (hκ : Kept κ ζ s) : KeptO κ ζ (execRdOnce pos off tag slice bank cut s) := by
  unfold execRdOnce
  repeat' (first | with_reducible assumption | with_reducible apply next_kept | with_reducible apply fault_kept | with_reducible apply done_kept | with_reducible apply homeRequest_kept | with_reducible apply orWait_kept | with_reducible apply dropArrival_kept | with_reducible intro _ | dsimp only | with_reducible apply ite_kept | with_reducible apply iteO_kept | split)

theorem execWr_kept (pos off tag slice bank : Nat) (cut : Option Nat) (data : List Byte) (s : State) (hκ : Kept κ ζ s) : KeptO κ ζ (execWr pos off tag slice bank cut data s) := by
  unfold execWr
  repeat' (first | with_reducible assumption | with_reducible apply next_kept | with_reducible apply fault_kept | with_reducible apply done_kept | with_reducible apply homeRequest_kept | with_reducible apply orWait_kept | with_reducible apply dropArrival_kept | with_reducible intro _ | dsimp only | with_reducible apply ite_kept | with_reducible apply iteO_kept | split)

theorem execAtCmd_kept (pos off tag slice bank : Nat) (cut : Option Nat) (aop operand compare : Nat) (s : State) (hκ : Kept κ ζ s) : KeptO κ ζ (execAtCmd pos off tag slice bank cut aop operand compare s) := by
  unfold execAtCmd
  repeat' (first | with_reducible assumption | with_reducible apply next_kept | with_reducible apply fault_kept | with_reducible apply done_kept | with_reducible apply homeRequest_kept | with_reducible apply orWait_kept | with_reducible apply dropArrival_kept | with_reducible intro _ | dsimp only | with_reducible apply ite_kept | with_reducible apply iteO_kept | split)

theorem execWb_kept (pos off tag slice bank : Nat) (cut : Option Nat) (data : List Byte) (s : State) (hκ : Kept κ ζ s) : KeptO κ ζ (execWb pos off tag slice bank cut data s) := by
  unfold execWb
  repeat' (first | with_reducible assumption | with_reducible apply next_kept | with_reducible apply fault_kept | with_reducible apply done_kept | with_reducible apply homeRequest_kept | with_reducible apply orWait_kept | with_reducible apply dropArrival_kept | with_reducible intro _ | dsimp only | with_reducible apply ite_kept | with_reducible apply iteO_kept | split)

theorem execPeek_kept (pos off tag slice bank : Nat) (cut : Option Nat) (s : State) (hκ : Kept κ ζ s) : KeptO κ ζ (execPeek pos off tag slice bank cut s) := by
  unfold execPeek
  repeat' (first | with_reducible assumption | with_reducible apply next_kept | with_reducible apply fault_kept | with_reducible apply done_kept | with_reducible apply homeRequest_kept | with_reducible apply orWait_kept | with_reducible apply dropArrival_kept | with_reducible intro _ | dsimp only | with_reducible apply ite_kept | with_reducible apply iteO_kept | split)

theorem execCheck_kept (pos off tag slice bank : Nat) (cut : Option Nat) (version : Nat) (s : State) (hκ : Kept κ ζ s) : KeptO κ ζ (execCheck pos off tag slice bank cut version s) := by
  unfold execCheck
  repeat' (first | with_reducible assumption | with_reducible apply next_kept | with_reducible apply fault_kept | with_reducible apply done_kept | with_reducible apply homeRequest_kept | with_reducible apply orWait_kept | with_reducible apply dropArrival_kept | with_reducible intro _ | dsimp only | with_reducible apply ite_kept | with_reducible apply iteO_kept | split)

theorem snoopReply_kept (s : State) (pos line : Nat) (data : List Byte) (hκ : Kept κ ζ s) : Kept κ ζ (snoopReply s pos line data) := by
  unfold snoopReply
  repeat' (first | with_reducible assumption | with_reducible apply serveTx_kept | with_reducible apply homePump_kept | with_reducible apply withFlask_kept | with_reducible apply homeStore_kept | with_reducible apply filter_keeps | with_reducible apply filter_spad_keeps | with_reducible intro _ | dsimp only | with_reducible apply ite_kept | with_reducible apply iteO_kept | split)

theorem execAckData_kept (pos line : Nat) (data : List Byte) (s : State) (hκ : Kept κ ζ s) : KeptO κ ζ (execAckData pos line data s) := by
  unfold execAckData
  repeat' (first | with_reducible assumption | with_reducible apply next_kept | with_reducible apply fault_kept | with_reducible apply done_kept | with_reducible apply snoopReply_kept | with_reducible apply orWait_kept | with_reducible apply dropArrival_kept | with_reducible intro _ | dsimp only | with_reducible apply ite_kept | with_reducible apply iteO_kept | split)

theorem execDone_kept (pos line : Nat) (s : State) (hκ : Kept κ ζ s) : KeptO κ ζ (execDone pos line s) := by
  unfold execDone
  repeat' (first | with_reducible assumption | with_reducible apply next_kept | with_reducible apply fault_kept | with_reducible apply done_kept | with_reducible apply closeTx_kept | with_reducible apply homePump_kept | with_reducible apply orWait_kept | with_reducible apply dropArrival_kept | with_reducible intro _ | dsimp only | with_reducible apply ite_kept | with_reducible apply iteO_kept | split)

theorem execSnoopTimeout_kept (pos line : Nat) (s : State) (hκ : Kept κ ζ s) : KeptO κ ζ (execSnoopTimeout pos line s) := by
  unfold execSnoopTimeout
  repeat' (first | with_reducible assumption | with_reducible apply next_kept | with_reducible apply fault_kept | with_reducible apply done_kept | with_reducible apply logUnit_kept | with_reducible apply snoopReply_kept | with_reducible apply orWait_kept | with_reducible apply setReg_kept | with_reducible intro _ | dsimp only | with_reducible apply ite_kept | with_reducible apply iteO_kept | split)

theorem snoop_kept (s : State) (f line slice bank kind : Nat) (hκ : Kept κ ζ s) : Kept κ ζ (snoop s f line slice bank kind) := by
  unfold snoop
  repeat' (first | with_reducible assumption | with_reducible apply sendRsp_kept | with_reducible apply withFlask_kept | with_reducible intro _ | dsimp only | with_reducible apply ite_kept | with_reducible apply iteO_kept | split)

theorem execSnpInv_kept (f line slice bank : Nat) (s : State) (hκ : Kept κ ζ s) : KeptO κ ζ (execSnpInv f line slice bank s) := by
  unfold execSnpInv
  repeat' (first | with_reducible assumption | with_reducible apply next_kept | with_reducible apply fault_kept | with_reducible apply done_kept | with_reducible apply snoop_kept | with_reducible apply dropArrival_kept | with_reducible intro _ | dsimp only | with_reducible apply ite_kept | with_reducible apply iteO_kept | split)

theorem execSnpShr_kept (f line slice bank : Nat) (s : State) (hκ : Kept κ ζ s) : KeptO κ ζ (execSnpShr f line slice bank s) := by
  unfold execSnpShr
  repeat' (first | with_reducible assumption | with_reducible apply next_kept | with_reducible apply fault_kept | with_reducible apply done_kept | with_reducible apply snoop_kept | with_reducible apply dropArrival_kept | with_reducible intro _ | dsimp only | with_reducible apply ite_kept | with_reducible apply iteO_kept | split)

theorem execSnpRcl_kept (f line slice bank : Nat) (s : State) (hκ : Kept κ ζ s) : KeptO κ ζ (execSnpRcl f line slice bank s) := by
  unfold execSnpRcl
  repeat' (first | with_reducible assumption | with_reducible apply next_kept | with_reducible apply fault_kept | with_reducible apply done_kept | with_reducible apply snoop_kept | with_reducible apply dropArrival_kept | with_reducible intro _ | dsimp only | with_reducible apply ite_kept | with_reducible apply iteO_kept | split)

theorem evictLine_kept (s : State) (x : Nat) (k : Nat) (c : CacheLine) (hκ : Kept κ ζ s) : Kept κ ζ (evictLine s x k c) := by
  unfold evictLine
  repeat' (first | with_reducible assumption | with_reducible apply withLadle_kept | with_reducible apply withFlask_kept | with_reducible intro _ | dsimp only | with_reducible apply ite_kept | with_reducible apply iteO_kept | split)

theorem installLine_kept (s : State) (x k : Nat) (c : CacheLine) (hκ : Kept κ ζ s) : Kept κ ζ (installLine s x k c) := by
  unfold installLine
  repeat' (first | with_reducible assumption | with_reducible apply evictLine_kept | with_reducible apply drawNat_kept | with_reducible apply withFlask_kept | with_reducible intro _ | dsimp only | with_reducible apply ite_kept | with_reducible apply iteO_kept | split)

theorem sendDone_kept (s : State) (r : LReq) (hκ : Kept κ ζ s) : Kept κ ζ (sendDone s r) := by
  unfold sendDone
  repeat' (first | with_reducible assumption | with_reducible apply sendRsp_kept | with_reducible intro _ | dsimp only | with_reducible apply ite_kept | with_reducible apply iteO_kept | split)

theorem peekArrive_kept (s : State) (r : LReq) (version mask : Nat) (data : List Byte) (hκ : Kept κ ζ s) : Kept κ ζ (peekArrive s r version mask data) := by
  unfold peekArrive
  repeat' (first | with_reducible assumption | with_reducible apply logUnit_kept | with_reducible apply setLine_kept | with_reducible apply cntAdd_kept | with_reducible intro _ | dsimp only | with_reducible apply ite_kept | with_reducible apply iteO_kept | split)

theorem lateAnswer_kept (s : State) (hκ : Kept κ ζ s) : Kept κ ζ (lateAnswer s) := by
  unfold lateAnswer
  repeat' (first | with_reducible assumption | with_reducible apply cntAdd_kept | with_reducible intro _ | dsimp only | with_reducible apply ite_kept | with_reducible apply iteO_kept | split)

theorem execData_kept (tag version mask : Nat) (data : List Byte) (s : State) (hκ : Kept κ ζ s) : KeptO κ ζ (execData tag version mask data s) := by
  unfold execData
  repeat' (first | with_reducible assumption | with_reducible apply next_kept | with_reducible apply fault_kept | with_reducible apply done_kept | with_reducible apply sendDone_kept | with_reducible apply orWait_kept | with_reducible apply installLine_kept | with_reducible apply peekArrive_kept | with_reducible apply answerAny_kept | with_reducible apply lateAnswer_kept | with_reducible apply dropArrival_kept | with_reducible intro _ | dsimp only | with_reducible apply ite_kept | with_reducible apply iteO_kept | split)

theorem execAck_kept (reply : Bool) (pos line tag mask : Nat) (data : List Byte) (s : State) (hκ : Kept κ ζ s) : KeptO κ ζ (execAck reply pos line tag mask data s) := by
  unfold execAck
  repeat' (first | with_reducible assumption | with_reducible apply next_kept | with_reducible apply fault_kept | with_reducible apply done_kept | with_reducible apply withFlask_kept | with_reducible apply sendDone_kept | with_reducible apply answerAny_kept | with_reducible apply lateAnswer_kept | with_reducible apply snoopReply_kept | with_reducible apply orWait_kept | with_reducible apply dropArrival_kept | with_reducible apply filter_keeps | with_reducible apply filter_spad_keeps | with_reducible intro _ | dsimp only | with_reducible apply ite_kept | with_reducible apply iteO_kept | split)

theorem execPeekMiss_kept (tag : Nat) (s : State) (hκ : Kept κ ζ s) : KeptO κ ζ (execPeekMiss tag s) := by
  unfold execPeekMiss
  repeat' (first | with_reducible assumption | with_reducible apply next_kept | with_reducible apply fault_kept | with_reducible apply done_kept | with_reducible apply cntAdd_kept | with_reducible apply setLine_kept | with_reducible apply answerAny_kept | with_reducible apply lateAnswer_kept | with_reducible apply dropArrival_kept | with_reducible intro _ | dsimp only | with_reducible apply ite_kept | with_reducible apply iteO_kept | split)

theorem execCheckOk_kept (tag : Nat) (s : State) (hκ : Kept κ ζ s) : KeptO κ ζ (execCheckOk tag s) := by
  unfold execCheckOk
  repeat' (first | with_reducible assumption | with_reducible apply next_kept | with_reducible apply fault_kept | with_reducible apply done_kept | with_reducible apply touchChunk_kept | with_reducible apply cntAdd_kept | with_reducible apply setStream_kept | with_reducible apply answerAny_kept | with_reducible apply orWait_kept | with_reducible apply lateAnswer_kept | with_reducible apply dropArrival_kept | with_reducible intro _ | dsimp only | with_reducible apply ite_kept | with_reducible apply iteO_kept | split)

theorem execCheckFail_kept (tag : Nat) (s : State) (hκ : Kept κ ζ s) : KeptO κ ζ (execCheckFail tag s) := by
  unfold execCheckFail
  repeat' (first | with_reducible assumption | with_reducible apply next_kept | with_reducible apply fault_kept | with_reducible apply done_kept | with_reducible apply ladleAdvance_kept | with_reducible apply orWait_kept | with_reducible apply withLadle_kept | with_reducible apply setStream_kept | with_reducible apply cntAdd_kept | with_reducible apply lateAnswer_kept | with_reducible apply dropArrival_kept | with_reducible apply filter_keeps | with_reducible apply filter_spad_keeps | with_reducible intro _ | dsimp only | with_reducible apply ite_kept | with_reducible apply iteO_kept | split)

theorem execRefused_kept (tag reason : Nat) (s : State) (hκ : Kept κ ζ s) : KeptO κ ζ (execRefused tag reason s) := by
  unfold execRefused
  repeat' (first | with_reducible assumption | with_reducible apply next_kept | with_reducible apply fault_kept | with_reducible apply done_kept | with_reducible apply orWait_kept | with_reducible apply setLine_kept | with_reducible apply answerAny_kept | with_reducible apply lateAnswer_kept | with_reducible apply dropArrival_kept | with_reducible intro _ | dsimp only | with_reducible apply ite_kept | with_reducible apply iteO_kept | split)

theorem sendAnswer_kept (s : State) (name : String) (dest slice bank : Nat) (words : List Nat) (data : List Byte) (hκ : Kept κ ζ s) : Kept κ ζ (sendAnswer s name dest slice bank words data) := by
  unfold sendAnswer
  repeat' (first | with_reducible assumption | with_reducible apply sendMsg_kept | with_reducible intro _ | dsimp only | with_reducible apply ite_kept | with_reducible apply iteO_kept | split)

theorem remoteServe_kept (s : State) (src slice bank tag kind a n : Nat) (data : List Byte) (fmt : Option Nat) (hκ : Kept κ ζ s) : Kept κ ζ (remoteServe s src slice bank tag kind a n data fmt) := by
  unfold remoteServe
  repeat' (first | with_reducible assumption | with_reducible apply devWrite_kept | with_reducible apply sendAnswer_kept | with_reducible apply devRead_kept | with_reducible apply cntAdd_kept | with_reducible intro _ | dsimp only | with_reducible apply ite_kept | with_reducible apply iteO_kept | split)

theorem execRemoteAccessArrive_kept (src slice bank tag kind a n : Nat) (data : List Byte) (fmt cut : Option Nat) (s : State) (hκ : Kept κ ζ s) : KeptO κ ζ (execRemoteAccessArrive src slice bank tag kind a n data fmt cut s) := by
  unfold execRemoteAccessArrive
  repeat' (first | with_reducible assumption | with_reducible apply next_kept | with_reducible apply fault_kept | with_reducible apply done_kept | with_reducible apply remoteServe_kept | with_reducible apply orWait_kept | with_reducible apply sendAnswer_kept | with_reducible apply cntAdd_kept | with_reducible apply logUnit_kept | with_reducible apply dropArrival_kept | with_reducible intro _ | dsimp only | with_reducible apply ite_kept | with_reducible apply iteO_kept | split)

theorem trigWrite_kept (s : State) (src : Src) (t : Nat) (v : Nat) (hκ : Kept κ ζ s) : Kept κ ζ (trigWrite s src t v) := by
  unfold trigWrite
  repeat' (first | with_reducible assumption | with_reducible apply logUnit_kept | with_reducible apply logAccepted_kept | with_reducible apply setReg_kept | with_reducible apply logDiscard_kept | with_reducible intro _ | dsimp only | with_reducible apply ite_kept | with_reducible apply iteO_kept | split)

theorem execFlkTrigValid_kept (src : Src) (t : Nat) (v : Word) (s : State) (hκ : Kept κ ζ s) : KeptO κ ζ (execFlkTrigValid src t v s) := by
  unfold execFlkTrigValid
  repeat' (first | with_reducible assumption | with_reducible apply next_kept | with_reducible apply fault_kept | with_reducible apply done_kept | with_reducible apply trigWrite_kept | with_reducible apply emit_kept | with_reducible intro _ | dsimp only | with_reducible apply ite_kept | with_reducible apply iteO_kept | split)

theorem trigger_kept (s : State) (src slice bank tag t arg : Nat) (hκ : Kept κ ζ s) : Kept κ ζ (trigger s src slice bank tag t arg) := by
  unfold trigger
  repeat' (first | with_reducible assumption | with_reducible apply cntAdd_kept | with_reducible apply setReg_kept | with_reducible apply doorbell_kept | with_reducible apply devWords_kept | with_reducible apply countChoice_kept | with_reducible apply satAdd_kept | with_reducible apply logUnit_kept | with_reducible apply sendAnswer_kept | with_reducible apply refuse_kept | with_reducible apply foldl_kept | with_reducible apply foldl_kept1 | with_reducible apply foldl_kept11 | with_reducible intro _ | dsimp only | with_reducible apply ite_kept | with_reducible apply iteO_kept | split)

theorem execTriggerPacket_kept (src slice bank tag t arg : Nat) (cut : Option Nat) (s : State) (hκ : Kept κ ζ s) : KeptO κ ζ (execTriggerPacket src slice bank tag t arg cut s) := by
  unfold execTriggerPacket
  repeat' (first | with_reducible assumption | with_reducible apply next_kept | with_reducible apply fault_kept | with_reducible apply done_kept | with_reducible apply trigger_kept | with_reducible apply orWait_kept | with_reducible apply dropArrival_kept | with_reducible intro _ | dsimp only | with_reducible apply ite_kept | with_reducible apply iteO_kept | split)

theorem clearDead_kept (s : State) (src : Src) (note : Bool) (hκ : Kept κ ζ s) : Kept κ ζ (clearDead s src note) := by
  unfold clearDead
  repeat' (first | with_reducible assumption | with_reducible apply setReg_kept | with_reducible apply logAccIf_kept | with_reducible intro _ | dsimp only | with_reducible apply ite_kept | with_reducible apply iteO_kept | split)

theorem execFlkClrDead_kept (src : Src) (s : State) (hκ : Kept κ ζ s) : KeptO κ ζ (execFlkClrDead src s) := by
  unfold execFlkClrDead
  repeat' (first | with_reducible assumption | with_reducible apply next_kept | with_reducible apply fault_kept | with_reducible apply done_kept | with_reducible apply clearDead_kept | with_reducible apply emit_kept | with_reducible intro _ | dsimp only | with_reducible apply ite_kept | with_reducible apply iteO_kept | split)

theorem winEnable_kept (s : State) (src : Src) (v : Nat) (hκ : Kept κ ζ s) : Kept κ ζ (winEnable s src v) := by
  unfold winEnable
  repeat' (first | with_reducible assumption | with_reducible apply clearDead_kept | with_reducible apply logUnit_kept | with_reducible apply setReg_kept | with_reducible apply logAccepted_kept | with_reducible intro _ | dsimp only | with_reducible apply ite_kept | with_reducible apply iteO_kept | split)

theorem execFlkWinEn_kept (src : Src) (v : Word) (s : State) (hκ : Kept κ ζ s) : KeptO κ ζ (execFlkWinEn src v s) := by
  unfold execFlkWinEn
  repeat' (first | with_reducible assumption | with_reducible apply next_kept | with_reducible apply fault_kept | with_reducible apply done_kept | with_reducible apply winEnable_kept | with_reducible apply emit_kept | with_reducible intro _ | dsimp only | with_reducible apply ite_kept | with_reducible apply iteO_kept | split)

end Sys2Proof.Machine
end

