-- ==== Sys2Proof/Laws/Kept/Sprue.lean ====
section
/-! SUPPORT. What the operations of Machine/Sprue.lean keep. -/
set_option linter.all false
set_option simprocs false
namespace Sys2Proof.Machine
variable {κ : List Instr} {ζ : Bool × List Byte × Bool}

theorem logLink_kept (s : State) (code h : Nat) (data : List Nat) (hκ : Kept κ ζ s) : Kept κ ζ (logLink s code h data) := by
  unfold logLink
  repeat' (first | with_reducible assumption | with_reducible apply logUnit_kept | with_reducible intro _ | dsimp only | with_reducible apply ite_kept | with_reducible apply iteO_kept | split)

theorem setPool_kept (s : State) (h t : Nat) (n : Nat × Nat) (hκ : Kept κ ζ s) : Kept κ ζ (setPool s h t n) := by
  unfold setPool
  repeat' (first | with_reducible assumption | with_reducible apply setReg_kept | with_reducible intro _ | dsimp only | with_reducible apply ite_kept | with_reducible apply iteO_kept | split)

theorem sendLc_kept (s : State) (h : Nat) (name : String) (words : List Nat) (hκ : Kept κ ζ s) : Kept κ ζ (sendLc s h name words) := by
  unfold sendLc
  repeat' (first | with_reducible assumption | with_reducible apply cntAdd_kept | with_reducible apply emit_kept | with_reducible apply setLink_kept | with_reducible intro _ | dsimp only | with_reducible apply ite_kept | with_reducible apply iteO_kept | split)

theorem reserve_kept (s : State) (h t : Nat) (hκ : Kept κ ζ s) : Kept κ ζ (reserve s h t).1 := by
  unfold reserve
  repeat' (first | with_reducible assumption | with_reducible apply logLink_kept | with_reducible apply setPool_kept | with_reducible apply sendLc_kept | with_reducible apply withSprues_kept | with_reducible apply filter_keeps | with_reducible apply filter_spad_keeps | with_reducible intro _ | dsimp only | with_reducible apply ite_kept | with_reducible apply iteO_kept | split)

theorem reserveLink_kept (s : State) (h : Nat) (hκ : Kept κ ζ s) : Kept κ ζ (reserveLink s h) := by
  unfold reserveLink
  repeat' (first | with_reducible assumption | with_reducible apply reserve_kept | with_reducible apply foldl_kept | with_reducible apply foldl_kept1 | with_reducible apply foldl_kept11 | with_reducible intro _ | dsimp only | with_reducible apply ite_kept | with_reducible apply iteO_kept | split)

theorem reserveSlice_kept (s : State) (t : Nat) (hκ : Kept κ ζ s) : Kept κ ζ (reserveSlice s t).1 := by
  unfold reserveSlice
  repeat' (first | with_reducible assumption | with_reducible apply reserve_kept | with_reducible apply foldl_kept | with_reducible apply foldl_kept1 | with_reducible apply foldl_kept11 | with_reducible intro _ | dsimp only | with_reducible apply ite_kept | with_reducible apply iteO_kept | split)

theorem failEnable_kept (s : State) (x cls : Nat) (hκ : Kept κ ζ s) : Kept κ ζ (failEnable s x cls) := by
  unfold failEnable
  repeat' (first | with_reducible assumption | with_reducible apply logCtx_kept | with_reducible apply reserveSlice_kept | with_reducible apply withTnd_kept | with_reducible apply withSprues_kept | with_reducible apply filter_keeps | with_reducible apply filter_spad_keeps | with_reducible intro _ | dsimp only | with_reducible apply ite_kept | with_reducible apply iteO_kept | split)

theorem finishEnable_kept (s : State) (x : Nat) (hκ : Kept κ ζ s) : Kept κ ζ (finishEnable s x) := by
  unfold finishEnable
  repeat' (first | with_reducible assumption | with_reducible apply setCtxState_kept | with_reducible apply settleStop_kept | with_reducible apply withTnd_kept | with_reducible apply withSprues_kept | with_reducible apply setReg_kept | with_reducible apply filter_keeps | with_reducible apply filter_spad_keeps | with_reducible intro _ | dsimp only | with_reducible apply ite_kept | with_reducible apply iteO_kept | split)

theorem settleEnables_kept (s : State) (t : Nat) (hκ : Kept κ ζ s) : Kept κ ζ (settleEnables s t) := by
  unfold settleEnables
  repeat' (first | with_reducible assumption | with_reducible apply finishEnable_kept | with_reducible apply foldl_kept | with_reducible apply foldl_kept1 | with_reducible apply foldl_kept11 | with_reducible apply filter_keeps | with_reducible apply filter_spad_keeps | with_reducible intro _ | dsimp only | with_reducible apply ite_kept | with_reducible apply iteO_kept | split)

theorem failEnables_kept (s : State) (t cls : Nat) (hκ : Kept κ ζ s) : Kept κ ζ (failEnables s t cls) := by
  unfold failEnables
  repeat' (first | with_reducible assumption | with_reducible apply failEnable_kept | with_reducible apply foldl_kept | with_reducible apply foldl_kept1 | with_reducible apply foldl_kept11 | with_reducible apply filter_keeps | with_reducible apply filter_spad_keeps | with_reducible intro _ | dsimp only | with_reducible apply ite_kept | with_reducible apply iteO_kept | split)

theorem ctxEnable_kept (s : State) (src : Src) (x : Nat) (note : Bool) (hκ : Kept κ ζ s) : Kept κ ζ (ctxEnable s src x note) := by
  unfold ctxEnable
  repeat' (first | with_reducible assumption | with_reducible apply settleEnables_kept | with_reducible apply failEnable_kept | with_reducible apply reserveSlice_kept | with_reducible apply withSprues_kept | with_reducible apply logAccIf_kept | with_reducible intro _ | dsimp only | with_reducible apply ite_kept | with_reducible apply iteO_kept | split)

theorem execTndCtxEnable_kept (src : Src) (x : Nat) (s : State) (hκ : Kept κ ζ s) : KeptO κ ζ (execTndCtxEnable src x s) := by
  unfold execTndCtxEnable
  repeat' (first | with_reducible assumption | with_reducible apply next_kept | with_reducible apply fault_kept | with_reducible apply done_kept | with_reducible apply ctxEnable_kept | with_reducible apply emit_kept | with_reducible intro _ | dsimp only | with_reducible apply ite_kept | with_reducible apply iteO_kept | split)

theorem ctxDisable_kept (s : State) (src : Src) (x : Nat) (note : Bool) (hκ : Kept κ ζ s) : Kept κ ζ (ctxDisable s src x note) := by
  unfold ctxDisable
  repeat' (first | with_reducible assumption | with_reducible apply reserveSlice_kept | with_reducible apply setReg_kept | with_reducible apply logAccIf_kept | with_reducible apply setCtxState_kept | with_reducible apply logDiscard_kept | with_reducible intro _ | dsimp only | with_reducible apply ite_kept | with_reducible apply iteO_kept | split)

theorem execTndCtxDisable_kept (src : Src) (x : Nat) (s : State) (hκ : Kept κ ζ s) : KeptO κ ζ (execTndCtxDisable src x s) := by
  unfold execTndCtxDisable
  repeat' (first | with_reducible assumption | with_reducible apply next_kept | with_reducible apply fault_kept | with_reducible apply done_kept | with_reducible apply ctxDisable_kept | with_reducible apply emit_kept | with_reducible intro _ | dsimp only | with_reducible apply ite_kept | with_reducible apply iteO_kept | split)

theorem execCreditReserve_kept (h slice req rsp kind cls : Nat) (s : State) (hκ : Kept κ ζ s) : KeptO κ ζ (execCreditReserve h slice req rsp kind cls s) := by
  unfold execCreditReserve
  repeat' (first | with_reducible assumption | with_reducible apply next_kept | with_reducible apply fault_kept | with_reducible apply done_kept | with_reducible apply failEnables_kept | with_reducible apply settleEnables_kept | with_reducible apply withSprues_kept | with_reducible apply drainLink_kept | with_reducible apply logLink_kept | with_reducible apply sendLc_kept | with_reducible apply setPool_kept | with_reducible apply filter_keeps | with_reducible apply filter_spad_keeps | with_reducible intro _ | dsimp only | with_reducible apply ite_kept | with_reducible apply iteO_kept | split)

theorem reroute_kept (s : State) (key : Nat) (hκ : Kept κ ζ s) : Kept κ ζ (reroute s key) := by
  unfold reroute
  repeat' (first | with_reducible assumption | with_reducible apply setLink_kept | with_reducible apply routePacket_kept | with_reducible apply foldl_kept | with_reducible apply foldl_kept1 | with_reducible apply foldl_kept11 | with_reducible intro _ | dsimp only | with_reducible apply ite_kept | with_reducible apply iteO_kept | split)

theorem noteDetours_kept (s : State) (hκ : Kept κ ζ s) : Kept κ ζ (noteDetours s) := by
  unfold noteDetours
  repeat' (first | with_reducible assumption | with_reducible apply withSprues_kept | with_reducible apply logLink_kept | with_reducible apply foldl_kept | with_reducible apply foldl_kept1 | with_reducible apply foldl_kept11 | with_reducible apply filter_keeps | with_reducible apply filter_spad_keeps | with_reducible intro _ | dsimp only | with_reducible apply ite_kept | with_reducible apply iteO_kept | split)

theorem linkChanged_kept (s : State) (h : Nat) (hκ : Kept κ ζ s) : Kept κ ζ (linkChanged s h) := by
  unfold linkChanged
  repeat' (first | with_reducible assumption | with_reducible apply noteDetours_kept | with_reducible apply reserveLink_kept | with_reducible apply drainLink_kept | with_reducible apply reroute_kept | with_reducible intro _ | dsimp only | with_reducible apply ite_kept | with_reducible apply iteO_kept | split)

theorem linkDown_kept (s : State) (h cause : Nat) (hκ : Kept κ ζ s) : Kept κ ζ (linkDown s h cause) := by
  unfold linkDown
  repeat' (first | with_reducible assumption | with_reducible apply noteDetours_kept | with_reducible apply reroute_kept | with_reducible apply riskAdd_kept | with_reducible apply failEnables_kept | with_reducible apply emit_kept | with_reducible apply setLink_kept | with_reducible apply withSprues_kept | with_reducible apply setPool_kept | with_reducible apply setReg_kept | with_reducible apply foldl_kept | with_reducible apply foldl_kept1 | with_reducible apply foldl_kept11 | with_reducible apply filter_keeps | with_reducible apply filter_spad_keeps | with_reducible intro _ | dsimp only | with_reducible apply ite_kept | with_reducible apply iteO_kept | split)

theorem reinject_kept (s : State) (h : Nat) (keep : Nat × PktHdr × List (List Byte) → Bool) (hκ : Kept κ ζ s) : Kept κ ζ (reinject s h keep) := by
  unfold reinject
  repeat' (first | with_reducible assumption | with_reducible apply routePacket_kept | with_reducible apply setLink_kept | with_reducible apply logLink_kept | with_reducible apply foldl_kept | with_reducible apply foldl_kept1 | with_reducible apply foldl_kept11 | with_reducible apply filter_keeps | with_reducible apply filter_spad_keeps | with_reducible intro _ | dsimp only | with_reducible apply ite_kept | with_reducible apply iteO_kept | split)

theorem execLinkSeqQuery_kept (h : Nat) (ask : Bool) (last : Nat) (s : State) (hκ : Kept κ ζ s) : KeptO κ ζ (execLinkSeqQuery h ask last s) := by
  unfold execLinkSeqQuery
  repeat' (first | with_reducible assumption | with_reducible apply next_kept | with_reducible apply fault_kept | with_reducible apply done_kept | with_reducible apply reinject_kept | with_reducible apply emit_kept | with_reducible intro _ | dsimp only | with_reducible apply ite_kept | with_reducible apply iteO_kept | split)

theorem execPartnerAnswerTimeout_kept (h : Nat) (s : State) (hκ : Kept κ ζ s) : KeptO κ ζ (execPartnerAnswerTimeout h s) := by
  unfold execPartnerAnswerTimeout
  repeat' (first | with_reducible assumption | with_reducible apply next_kept | with_reducible apply fault_kept | with_reducible apply done_kept | with_reducible apply reinject_kept | with_reducible intro _ | dsimp only | with_reducible apply ite_kept | with_reducible apply iteO_kept | split)

theorem execLinkDown_kept (h : Nat) (s : State) (hκ : Kept κ ζ s) : KeptO κ ζ (execLinkDown h s) := by
  unfold execLinkDown
  repeat' (first | with_reducible assumption | with_reducible apply next_kept | with_reducible apply fault_kept | with_reducible apply done_kept | with_reducible apply linkDown_kept | with_reducible intro _ | dsimp only | with_reducible apply ite_kept | with_reducible apply iteO_kept | split)

theorem enterRetrain_kept (s : State) (h cause lane : Nat) (hκ : Kept κ ζ s) : Kept κ ζ (enterRetrain s h cause lane) := by
  unfold enterRetrain
  repeat' (first | with_reducible assumption | with_reducible apply logLink_kept | with_reducible apply noteDetours_kept | with_reducible apply setLinkState_kept | with_reducible apply setLink_kept | with_reducible intro _ | dsimp only | with_reducible apply ite_kept | with_reducible apply iteO_kept | split)

theorem execRetrain_kept (h cause lane : Nat) (s : State) (hκ : Kept κ ζ s) : KeptO κ ζ (execRetrain h cause lane s) := by
  unfold execRetrain
  repeat' (first | with_reducible assumption | with_reducible apply next_kept | with_reducible apply fault_kept | with_reducible apply done_kept | with_reducible apply enterRetrain_kept | with_reducible intro _ | dsimp only | with_reducible apply ite_kept | with_reducible apply iteO_kept | split)

theorem execSprRetrain_kept (src : Src) (h : Nat) (s : State) (hκ : Kept κ ζ s) : KeptO κ ζ (execSprRetrain src h s) := by
  unfold execSprRetrain
  repeat' (first | with_reducible assumption | with_reducible apply next_kept | with_reducible apply fault_kept | with_reducible apply done_kept | with_reducible apply logAccepted_kept | with_reducible apply enterRetrain_kept | with_reducible apply emit_kept | with_reducible intro _ | dsimp only | with_reducible apply ite_kept | with_reducible apply iteO_kept | split)

theorem replay_kept (s : State) (h : Nat) (keep : TxFlit → Bool) (hκ : Kept κ ζ s) : Kept κ ζ (replay s h keep) := by
  unfold replay
  repeat' (first | with_reducible assumption | with_reducible apply emit_kept | with_reducible apply cntAdd_kept | with_reducible apply setLink_kept | with_reducible apply filter_keeps | with_reducible apply filter_spad_keeps | with_reducible intro _ | dsimp only | with_reducible apply ite_kept | with_reducible apply iteO_kept | split)

theorem setWidths_kept (s : State) (h txw rxw txBad rxBad fullTx fullRx : Nat) (hκ : Kept κ ζ s) : Kept κ ζ (setWidths s h txw rxw txBad rxBad fullTx fullRx) := by
  unfold setWidths
  repeat' (first | with_reducible assumption | with_reducible apply logLink_kept | with_reducible apply riskAdd_kept | with_reducible apply setReg_kept | with_reducible intro _ | dsimp only | with_reducible apply ite_kept | with_reducible apply iteO_kept | split)

theorem execRetrainEnd_kept (h : Nat) (ok : Bool) (rxFail txFail : Nat) (s : State) (hκ : Kept κ ζ s) : KeptO κ ζ (execRetrainEnd h ok rxFail txFail s) := by
  unfold execRetrainEnd
  repeat' (first | with_reducible assumption | with_reducible apply next_kept | with_reducible apply fault_kept | with_reducible apply done_kept | with_reducible apply linkDown_kept | with_reducible apply replay_kept | with_reducible apply linkChanged_kept | with_reducible apply setLinkState_kept | with_reducible apply setLink_kept | with_reducible apply setReg_kept | with_reducible apply setWidths_kept | with_reducible apply logLink_kept | with_reducible apply cntAdd_kept | with_reducible apply riskAdd_kept | with_reducible apply filter_keeps | with_reducible apply filter_spad_keeps | with_reducible intro _ | dsimp only | with_reducible apply ite_kept | with_reducible apply iteO_kept | split)

theorem bringupFails_kept (s : State) (h : Nat) (hκ : Kept κ ζ s) : Kept κ ζ (bringupFails s h) := by
  unfold bringupFails
  repeat' (first | with_reducible assumption | with_reducible apply setLinkState_kept | with_reducible apply setLink_kept | with_reducible intro _ | dsimp only | with_reducible apply ite_kept | with_reducible apply iteO_kept | split)

theorem bringup_kept (s : State) (h : Nat) (b : Bringup) (hκ : Kept κ ζ s) : Kept κ ζ (bringup s h b) := by
  unfold bringup
  repeat' (first | with_reducible assumption | with_reducible apply linkChanged_kept | with_reducible apply setWidths_kept | with_reducible apply drawNat_kept | with_reducible apply bringupFails_kept | with_reducible apply setReg_kept | with_reducible apply setLink_kept | with_reducible apply logLink_kept | with_reducible apply foldl_kept | with_reducible apply foldl_kept1 | with_reducible apply foldl_kept11 | with_reducible intro _ | dsimp only | with_reducible apply ite_kept | with_reducible apply iteO_kept | split)

theorem execSprueBringup_kept (h : Nat) (b : Bringup) (s : State) (hκ : Kept κ ζ s) : KeptO κ ζ (execSprueBringup h b s) := by
  unfold execSprueBringup
  repeat' (first | with_reducible assumption | with_reducible apply next_kept | with_reducible apply fault_kept | with_reducible apply done_kept | with_reducible apply bringup_kept | with_reducible intro _ | dsimp only | with_reducible apply ite_kept | with_reducible apply iteO_kept | split)

theorem execBringupRetry_kept (h : Nat) (b : Bringup) (s : State) (hκ : Kept κ ζ s) : KeptO κ ζ (execBringupRetry h b s) := by
  unfold execBringupRetry
  repeat' (first | with_reducible assumption | with_reducible apply next_kept | with_reducible apply fault_kept | with_reducible apply done_kept | with_reducible apply bringup_kept | with_reducible intro _ | dsimp only | with_reducible apply ite_kept | with_reducible apply iteO_kept | split)

theorem linkEnable_kept (s : State) (src : Src) (h : Nat) (on_ : Bool) (note : Bool) (hκ : Kept κ ζ s) : Kept κ ζ (linkEnable s src h on_ note) := by
  unfold linkEnable
  repeat' (first | with_reducible assumption | with_reducible apply linkChanged_kept | with_reducible apply setLinkState_kept | with_reducible apply setLink_kept | with_reducible apply setReg_kept | with_reducible apply logAccIf_kept | with_reducible intro _ | dsimp only | with_reducible apply ite_kept | with_reducible apply iteO_kept | split)

theorem execSprEnable_kept (src : Src) (h : Nat) (on_ : Bool) (s : State) (hκ : Kept κ ζ s) : KeptO κ ζ (execSprEnable src h on_ s) := by
  unfold execSprEnable
  repeat' (first | with_reducible assumption | with_reducible apply next_kept | with_reducible apply fault_kept | with_reducible apply done_kept | with_reducible apply linkEnable_kept | with_reducible apply emit_kept | with_reducible intro _ | dsimp only | with_reducible apply ite_kept | with_reducible apply iteO_kept | split)

theorem sendAck_kept (s : State) (h : Nat) (hκ : Kept κ ζ s) : Kept κ ζ (sendAck s h) := by
  unfold sendAck
  repeat' (first | with_reducible assumption | with_reducible apply sendLc_kept | with_reducible apply setLink_kept | with_reducible intro _ | dsimp only | with_reducible apply ite_kept | with_reducible apply iteO_kept | split)

theorem sendNak_kept (s : State) (h : Nat) (hκ : Kept κ ζ s) : Kept κ ζ (sendNak s h) := by
  unfold sendNak
  repeat' (first | with_reducible assumption | with_reducible apply enterRetrain_kept | with_reducible apply setLink_kept | with_reducible apply emit_kept | with_reducible intro _ | dsimp only | with_reducible apply ite_kept | with_reducible apply iteO_kept | split)

theorem packetIn_kept (s : State) (h : Nat) (p0 : PktHdr) (data : List (List Byte)) (ecc : Nat) (hκ : Kept κ ζ s) : Kept κ ζ (packetIn s h p0 data ecc) := by
  unfold packetIn
  repeat' (first | with_reducible assumption | with_reducible apply returnCredit_kept | with_reducible apply tableError_kept | with_reducible apply routePacket_kept | with_reducible apply maskedPacket_kept | with_reducible intro _ | dsimp only | with_reducible apply ite_kept | with_reducible apply iteO_kept | split)

theorem flitIn_kept (s : State) (h : Nat) (f : Flit) (ecc : Nat) (hκ : Kept κ ζ s) : Kept κ ζ (flitIn s h f ecc) := by
  unfold flitIn
  repeat' (first | with_reducible assumption | with_reducible apply sendAck_kept | with_reducible apply packetIn_kept | with_reducible apply returnCredit_kept | with_reducible apply cntAdd_kept | with_reducible apply setLink_kept | with_reducible intro _ | dsimp only | with_reducible apply ite_kept | with_reducible apply iteO_kept | split)

theorem execFlitReceive_kept (h : Nat) (ucw : Bool) (csym : Nat) (f : Flit) (ecc : Nat) (s : State) (hκ : Kept κ ζ s) :
    KeptO κ ζ (execFlitReceive h ucw csym f ecc s) := by
  unfold execFlitReceive
  extract_lets i j c0 s1 s2 s3 s4 l d
  have h2 : Kept κ ζ s2 := riskAdd_kept _ _ _ (cntAdd_kept _ _ _ (cntAdd_kept _ _ _ hκ))
  clear_value s2
  have h3 : Kept κ ζ s3 := by
    by_cases hc : linkState s2 h = 4
    · simp only [s3, hc, if_true]
      exact setLink_kept _ _ _ (setLinkState_kept _ _ _ h2)
    · simp only [s3, hc, if_false]
      exact h2
  clear_value s3
  have h4 : Kept κ ζ s4 := by
    by_cases hc : f.crCount = 0
    · simp only [s4, hc, if_true]
      exact h3
    · simp only [s4, hc, if_false]
      exact drainLink_kept _ _ (setLink_kept _ _ _ h3)
  clear_value s4
  generalize (ucw || f.crc != crc32c ((flitBytes f).map (·.toNat))) = bad
  generalize (!(linkUp s h || linkState s h == 3)) = up
  repeat' (first | with_reducible assumption | with_reducible apply next_kept | with_reducible apply sendNak_kept | with_reducible apply flitIn_kept | with_reducible apply setLink_kept | split)

theorem execNak_kept (h seq : Nat) (s : State) (hκ : Kept κ ζ s) : KeptO κ ζ (execNak h seq s) := by
  unfold execNak
  repeat' (first | with_reducible assumption | with_reducible apply next_kept | with_reducible apply fault_kept | with_reducible apply done_kept | with_reducible apply replay_kept | with_reducible apply enterRetrain_kept | with_reducible apply setLink_kept | with_reducible intro _ | dsimp only | with_reducible apply ite_kept | with_reducible apply iteO_kept | split)

theorem execLinkAck_kept (h seq : Nat) (s : State) (hκ : Kept κ ζ s) : KeptO κ ζ (execLinkAck h seq s) := by
  unfold execLinkAck
  repeat' (first | with_reducible assumption | with_reducible apply next_kept | with_reducible apply fault_kept | with_reducible apply done_kept | with_reducible apply setLink_kept | with_reducible apply drainLink_kept | with_reducible apply filter_keeps | with_reducible apply filter_spad_keeps | with_reducible intro _ | dsimp only | with_reducible apply ite_kept | with_reducible apply iteO_kept | split)

theorem execAckSendTimer_kept (h : Nat) (s : State) (hκ : Kept κ ζ s) : KeptO κ ζ (execAckSendTimer h s) := by
  unfold execAckSendTimer
  repeat' (first | with_reducible assumption | with_reducible apply next_kept | with_reducible apply fault_kept | with_reducible apply done_kept | with_reducible apply sendAck_kept | with_reducible intro _ | dsimp only | with_reducible apply ite_kept | with_reducible apply iteO_kept | split)

theorem execAckTimeout_kept (h : Nat) (s : State) (hκ : Kept κ ζ s) : KeptO κ ζ (execAckTimeout h s) := by
  unfold execAckTimeout
  repeat' (first | with_reducible assumption | with_reducible apply next_kept | with_reducible apply fault_kept | with_reducible apply done_kept | with_reducible apply enterRetrain_kept | with_reducible intro _ | dsimp only | with_reducible apply ite_kept | with_reducible apply iteO_kept | split)

theorem execEscapeWait_kept (h : Nat) (s : State) (hκ : Kept κ ζ s) : KeptO κ ζ (execEscapeWait h s) := by
  unfold execEscapeWait
  repeat' (first | with_reducible assumption | with_reducible apply next_kept | with_reducible apply fault_kept | with_reducible apply done_kept | with_reducible apply routePacket_kept | with_reducible apply setLink_kept | with_reducible intro _ | dsimp only | with_reducible apply ite_kept | with_reducible apply iteO_kept | split)

theorem execLpIdleTimer_kept (h : Nat) (s : State) (hκ : Kept κ ζ s) : KeptO κ ζ (execLpIdleTimer h s) := by
  unfold execLpIdleTimer
  repeat' (first | with_reducible assumption | with_reducible apply next_kept | with_reducible apply fault_kept | with_reducible apply done_kept | with_reducible apply setLink_kept | with_reducible apply emit_kept | with_reducible intro _ | dsimp only | with_reducible apply ite_kept | with_reducible apply iteO_kept | split)

theorem execLpPropose_kept (h : Nat) (s : State) (hκ : Kept κ ζ s) : KeptO κ ζ (execLpPropose h s) := by
  unfold execLpPropose
  repeat' (first | with_reducible assumption | with_reducible apply next_kept | with_reducible apply fault_kept | with_reducible apply done_kept | with_reducible apply emit_kept | with_reducible apply setLink_kept | with_reducible intro _ | dsimp only | with_reducible apply ite_kept | with_reducible apply iteO_kept | split)

theorem execLpAccept_kept (h : Nat) (s : State) (hκ : Kept κ ζ s) : KeptO κ ζ (execLpAccept h s) := by
  unfold execLpAccept
  repeat' (first | with_reducible assumption | with_reducible apply next_kept | with_reducible apply fault_kept | with_reducible apply done_kept | with_reducible apply setLink_kept | with_reducible intro _ | dsimp only | with_reducible apply ite_kept | with_reducible apply iteO_kept | split)

theorem execLpDecline_kept (h : Nat) (s : State) (hκ : Kept κ ζ s) : KeptO κ ζ (execLpDecline h s) := by
  unfold execLpDecline
  repeat' (first | with_reducible assumption | with_reducible apply next_kept | with_reducible apply fault_kept | with_reducible apply done_kept | with_reducible apply setLink_kept | with_reducible intro _ | dsimp only | with_reducible apply ite_kept | with_reducible apply iteO_kept | split)

theorem execLpAbort_kept (h : Nat) (s : State) (hκ : Kept κ ζ s) : KeptO κ ζ (execLpAbort h s) := by
  unfold execLpAbort
  repeat' (first | with_reducible assumption | with_reducible apply next_kept | with_reducible apply fault_kept | with_reducible apply done_kept | with_reducible apply cntAdd_kept | with_reducible apply logLink_kept | with_reducible apply setLink_kept | with_reducible apply setLinkState_kept | with_reducible intro _ | dsimp only | with_reducible apply ite_kept | with_reducible apply iteO_kept | split)

theorem execElectricalIdleEntry_kept (h : Nat) (s : State) (hκ : Kept κ ζ s) : KeptO κ ζ (execElectricalIdleEntry h s) := by
  unfold execElectricalIdleEntry
  repeat' (first | with_reducible assumption | with_reducible apply next_kept | with_reducible apply fault_kept | with_reducible apply done_kept | with_reducible apply setLink_kept | with_reducible apply setLinkState_kept | with_reducible apply cntAdd_kept | with_reducible intro _ | dsimp only | with_reducible apply ite_kept | with_reducible apply iteO_kept | split)

theorem execLpWake_kept (h : Nat) (s : State) (hκ : Kept κ ζ s) : KeptO κ ζ (execLpWake h s) := by
  unfold execLpWake
  repeat' (first | with_reducible assumption | with_reducible apply next_kept | with_reducible apply fault_kept | with_reducible apply done_kept | with_reducible apply wakeLink_kept | with_reducible apply drainLink_kept | with_reducible intro _ | dsimp only | with_reducible apply ite_kept | with_reducible apply iteO_kept | split)

theorem execLpExitDetect_kept (h : Nat) (s : State) (hκ : Kept κ ζ s) : KeptO κ ζ (execLpExitDetect h s) := by
  unfold execLpExitDetect
  repeat' (first | with_reducible assumption | with_reducible apply next_kept | with_reducible apply fault_kept | with_reducible apply done_kept | with_reducible apply setLink_kept | with_reducible apply setLinkState_kept | with_reducible apply drainLink_kept | with_reducible intro _ | dsimp only | with_reducible apply ite_kept | with_reducible apply iteO_kept | split)

theorem fenceChange_kept (s : State) (src : Src) (link : Option Nat) (v : Nat) (hκ : Kept κ ζ s) : Kept κ ζ (fenceChange s src link v) := by
  unfold fenceChange
  repeat' (first | with_reducible assumption | with_reducible apply reserveLink_kept | with_reducible apply reroute_kept | with_reducible apply noteDetours_kept | with_reducible apply setReg_kept | with_reducible apply logAccepted_kept | with_reducible apply foldl_kept | with_reducible apply foldl_kept1 | with_reducible apply foldl_kept11 | with_reducible intro _ | dsimp only | with_reducible apply ite_kept | with_reducible apply iteO_kept | split)

theorem execSprFenceChange_kept (src : Src) (link : Option Nat) (v : Word) (s : State) (hκ : Kept κ ζ s) : KeptO κ ζ (execSprFenceChange src link v s) := by
  unfold execSprFenceChange
  repeat' (first | with_reducible assumption | with_reducible apply next_kept | with_reducible apply fault_kept | with_reducible apply done_kept | with_reducible apply fenceChange_kept | with_reducible apply emit_kept | with_reducible intro _ | dsimp only | with_reducible apply ite_kept | with_reducible apply iteO_kept | split)

theorem rtCheck_kept (s : State) (src : Src) (beyond : List (Nat × Nat)) (hκ : Kept κ ζ s) : Kept κ ζ (rtCheck s src beyond) := by
  unfold rtCheck
  repeat' (first | with_reducible assumption | with_reducible apply setReg_kept | with_reducible apply logUnit_kept | with_reducible apply logAccepted_kept | with_reducible apply filter_keeps | with_reducible apply filter_spad_keeps | with_reducible intro _ | dsimp only | with_reducible apply ite_kept | with_reducible apply iteO_kept | split)

theorem execSprRtCheck_kept (src : Src) (beyond : List (Nat × Nat)) (s : State) (hκ : Kept κ ζ s) : KeptO κ ζ (execSprRtCheck src beyond s) := by
  unfold execSprRtCheck
  repeat' (first | with_reducible assumption | with_reducible apply next_kept | with_reducible apply fault_kept | with_reducible apply done_kept | with_reducible apply rtCheck_kept | with_reducible apply emit_kept | with_reducible intro _ | dsimp only | with_reducible apply ite_kept | with_reducible apply iteO_kept | split)

theorem rtAccess_kept (s : State) (src : Src) (write : Bool) (v : Nat) (hκ : Kept κ ζ s) : Kept κ ζ (rtAccess s src write v) := by
  unfold rtAccess
  repeat' (first | with_reducible assumption | with_reducible apply withSprues_kept | with_reducible apply logAccepted_kept | with_reducible apply logUnit_kept | with_reducible apply logDiscard_kept | with_reducible apply emit_kept | with_reducible apply setReg_kept | with_reducible intro _ | dsimp only | with_reducible apply ite_kept | with_reducible apply iteO_kept | split)

theorem execSprRtDataAccess_kept (src : Src) (write : Bool) (v : Word) (s : State) (hκ : Kept κ ζ s) : KeptO κ ζ (execSprRtDataAccess src write v s) := by
  unfold execSprRtDataAccess
  repeat' (first | with_reducible assumption | with_reducible apply next_kept | with_reducible apply fault_kept | with_reducible apply done_kept | with_reducible apply rtAccess_kept | with_reducible apply emit_kept | with_reducible intro _ | dsimp only | with_reducible apply ite_kept | with_reducible apply iteO_kept | split)

theorem takeover_kept (s : State) (src : Src) (v : Nat) (hκ : Kept κ ζ s) : Kept κ ζ (takeover s src v) := by
  unfold takeover
  repeat' (first | with_reducible assumption | with_reducible apply reroute_kept | with_reducible apply logUnit_kept | with_reducible apply setReg_kept | with_reducible apply logAccepted_kept | with_reducible intro _ | dsimp only | with_reducible apply ite_kept | with_reducible apply iteO_kept | split)

theorem execSprTakeover_kept (src : Src) (v : Word) (s : State) (hκ : Kept κ ζ s) : KeptO κ ζ (execSprTakeover src v s) := by
  unfold execSprTakeover
  repeat' (first | with_reducible assumption | with_reducible apply next_kept | with_reducible apply fault_kept | with_reducible apply done_kept | with_reducible apply takeover_kept | with_reducible apply emit_kept | with_reducible intro _ | dsimp only | with_reducible apply ite_kept | with_reducible apply iteO_kept | split)

end Sys2Proof.Machine
end

