-- ==== Sys2Proof/Laws/Kept/Integrity.lean ====
section
/-! SUPPORT. What the operations of Machine/Integrity.lean keep. -/
set_option linter.all false
set_option simprocs false
namespace Sys2Proof.Machine
variable {κ : List Instr} {ζ : Bool × List Byte × Bool}

theorem setFtl_kept (s : State) (p n : Nat) (hκ : Kept κ ζ s) : Kept κ ζ (setFtl s p n) := by
  unfold setFtl
  repeat' (first | with_reducible assumption | with_reducible apply withInteg_kept | with_reducible intro _ | dsimp only | with_reducible apply ite_kept | with_reducible apply iteO_kept | split)

theorem beginTest_kept (s : State) (p : Nat) (hκ : Kept κ ζ s) : Kept κ ζ (beginTest s p) := by
  unfold beginTest
  repeat' (first | with_reducible assumption | with_reducible apply setCru_kept | with_reducible apply setFtl_kept | with_reducible intro _ | dsimp only | with_reducible apply ite_kept | with_reducible apply iteO_kept | split)

theorem orderDue_kept (n : Nat) (s : State) (k : Nat) (hκ : Kept κ ζ s) : Kept κ ζ (orderDue n s k) := by
  induction n generalizing s k with
  | zero => exact hκ
  | succ n ih =>
    unfold orderDue
    repeat' (first | with_reducible assumption | with_reducible apply ih | with_reducible apply orderMove_kept | with_reducible apply setFtl_kept | with_reducible apply beginTest_kept | dsimp only | split)

theorem fettleOrder_kept (s : State) (k : Nat) (hκ : Kept κ ζ s) : Kept κ ζ (fettleOrder s k) := by
  unfold fettleOrder
  repeat' (first | with_reducible assumption | with_reducible apply orderDue_kept | with_reducible intro _ | dsimp only | with_reducible apply ite_kept | with_reducible apply iteO_kept | split)

theorem execFettleDue_kept (p : Nat) (s : State) (hκ : Kept κ ζ s) : KeptO κ ζ (execFettleDue p s) := by
  unfold execFettleDue
  repeat' (first | with_reducible assumption | with_reducible apply next_kept | with_reducible apply fault_kept | with_reducible apply done_kept | with_reducible apply setFtl_kept | with_reducible apply fettleOrder_kept | with_reducible apply beginTest_kept | with_reducible intro _ | dsimp only | with_reducible apply ite_kept | with_reducible apply iteO_kept | split)

theorem execFettleDefer_kept (p : Nat) (s : State) (hκ : Kept κ ζ s) : KeptO κ ζ (execFettleDefer p s) := by
  unfold execFettleDefer
  repeat' (first | with_reducible assumption | with_reducible apply next_kept | with_reducible apply fault_kept | with_reducible apply done_kept | with_reducible apply cntAdd_kept | with_reducible apply riskAdd_kept | with_reducible apply logUnit_kept | with_reducible apply withInteg_kept | with_reducible apply withTnd_kept | with_reducible apply filter_keeps | with_reducible apply filter_spad_keeps | with_reducible intro _ | dsimp only | with_reducible apply ite_kept | with_reducible apply iteO_kept | split)

theorem execFettleRetry_kept (p : Nat) (s : State) (hκ : Kept κ ζ s) : KeptO κ ζ (execFettleRetry p s) := by
  unfold execFettleRetry
  repeat' (first | with_reducible assumption | with_reducible apply next_kept | with_reducible apply fault_kept | with_reducible apply done_kept | with_reducible apply fettleOrder_kept | with_reducible intro _ | dsimp only | with_reducible apply ite_kept | with_reducible apply iteO_kept | split)

theorem execFettleDeadline_kept (p : Nat) (s : State) (hκ : Kept κ ζ s) : KeptO κ ζ (execFettleDeadline p s) := by
  unfold execFettleDeadline
  repeat' (first | with_reducible assumption | with_reducible apply next_kept | with_reducible apply fault_kept | with_reducible apply done_kept | with_reducible apply withInteg_kept | with_reducible apply cntAdd_kept | with_reducible apply beginTest_kept | with_reducible apply saveQueues_kept | with_reducible apply orderMove_kept | with_reducible apply withTnd_kept | with_reducible apply setFtl_kept | with_reducible apply logUnit_kept | with_reducible apply arbitrate_kept | with_reducible intro _ | dsimp only | with_reducible apply ite_kept | with_reducible apply iteO_kept | split)

theorem clearSpad_kept (s : State) (p : Nat) (hκ : Kept κ ζ s) : Kept κ ζ (clearSpad s p) := by
  unfold clearSpad
  repeat' (first | with_reducible assumption | with_reducible apply withSpad_kept | with_reducible apply filter_keeps | with_reducible apply filter_spad_keeps | with_reducible intro _ | dsimp only | with_reducible apply ite_kept | with_reducible apply iteO_kept | split)

theorem serveUnavailable_kept (s : State) (k : Nat) (hκ : Kept κ ζ s) : Kept κ ζ (serveUnavailable s k) := by
  unfold serveUnavailable
  repeat' (first | with_reducible assumption | with_reducible apply arbitrate_kept | with_reducible apply foldl_kept | with_reducible apply foldl_kept1 | with_reducible apply foldl_kept11 | with_reducible intro _ | dsimp only | with_reducible apply ite_kept | with_reducible apply iteO_kept | split)

theorem execFettleTestEnd_kept (p : Nat) (pass : Bool) (phase signature : Nat) (s : State) (hκ : Kept κ ζ s) :
    KeptO κ ζ (execFettleTestEnd p pass phase signature s) := by
  unfold execFettleTestEnd
  split
  · exact next_kept hκ
  · split
    · exact next_kept hκ
    · extract_lets k c inPlace src1 s1 src2 s2 s3 s4 src5 s5 s6 s4' s5' s6' s7
      clear_value k c inPlace
      have h1 : Kept κ ζ s1 := clearSpad_kept _ _ (cntAdd_kept _ _ _ (setCru_kept _ _ _ hκ))
      clear_value s1
      have h2 : Kept κ ζ s2 := withInteg_kept _ _ h1
      clear_value s2
      have h3 : Kept κ ζ s3 := by
        simp only [s3]
        repeat' (first | with_reducible assumption | with_reducible apply logUnit_kept | split)
      clear_value s3
      split
      · have h4 : Kept κ ζ s4 := logUnit_kept _ _ _ _ h3
        clear_value s4
        have h5 : Kept κ ζ s5 := setReg64_kept _ _ _ (withInteg_kept _ _ h4)
        clear_value s5
        have h6 : Kept κ ζ s6 := by
          simp only [s6]
          repeat' (first | with_reducible assumption | with_reducible apply beginSwitch_kept | split)
        clear_value s6
        exact next_kept (fettleOrder_kept _ _ (serveUnavailable_kept _ _ h6))
      · have h4 : Kept κ ζ s4' := logUnit_kept _ _ _ _ h3
        clear_value s4'
        have h5 : Kept κ ζ s5' := satAdd_kept _ _ _ (cntAdd_kept _ _ _ (setFtl_kept _ _ _ h4))
        clear_value s5'
        have h6 : Kept κ ζ s6' := riskAdd_kept _ _ _ h5
        clear_value s6'
        have h7 : Kept κ ζ s7 := by
          simp only [s7]
          repeat' (first | with_reducible assumption | with_reducible apply taint_kept | split)
        clear_value s7
        split
        · exact next_kept h7
        · exact next_kept (orderMove_kept _ _ _ h7)

theorem setVerify_kept (s : State) (src : Src) (on_ : Bool) (note : Bool) (hκ : Kept κ ζ s) : Kept κ ζ (setVerify s src on_ note) := by
  unfold setVerify
  repeat' (first | with_reducible assumption | with_reducible apply setReg_kept | with_reducible apply logAccIf_kept | with_reducible intro _ | dsimp only | with_reducible apply ite_kept | with_reducible apply iteO_kept | split)

theorem execCupIntCtrlVerify_kept (src : Src) (on_ : Bool) (s : State) (hκ : Kept κ ζ s) : KeptO κ ζ (execCupIntCtrlVerify src on_ s) := by
  unfold execCupIntCtrlVerify
  repeat' (first | with_reducible assumption | with_reducible apply next_kept | with_reducible apply fault_kept | with_reducible apply done_kept | with_reducible apply setVerify_kept | with_reducible apply emit_kept | with_reducible intro _ | dsimp only | with_reducible apply ite_kept | with_reducible apply iteO_kept | split)

theorem zeroChoices_kept (s : State) (hκ : Kept κ ζ s) : Kept κ ζ (zeroChoices s) := by
  unfold zeroChoices
  repeat' (first | with_reducible assumption | with_reducible apply withInteg_kept | with_reducible apply setReg64_kept | with_reducible apply setReg_kept | with_reducible apply foldl_kept | with_reducible apply foldl_kept1 | with_reducible apply foldl_kept11 | with_reducible intro _ | dsimp only | with_reducible apply ite_kept | with_reducible apply iteO_kept | split)

theorem clearChoice_kept (s : State) (src : Src) (note : Bool) (hκ : Kept κ ζ s) : Kept κ ζ (clearChoice s src note) := by
  unfold clearChoice
  repeat' (first | with_reducible assumption | with_reducible apply logAccIf_kept | with_reducible apply zeroChoices_kept | with_reducible intro _ | dsimp only | with_reducible apply ite_kept | with_reducible apply iteO_kept | split)

theorem execClrChoice_kept (src : Src) (s : State) (hκ : Kept κ ζ s) : KeptO κ ζ (execClrChoice src s) := by
  unfold execClrChoice
  repeat' (first | with_reducible assumption | with_reducible apply next_kept | with_reducible apply fault_kept | with_reducible apply done_kept | with_reducible apply clearChoice_kept | with_reducible apply emit_kept | with_reducible intro _ | dsimp only | with_reducible apply ite_kept | with_reducible apply iteO_kept | split)

theorem taintClear_kept (s : State) (src : Src) (v : Nat) (hκ : Kept κ ζ s) : Kept κ ζ (taintClear s src v) := by
  unfold taintClear
  repeat' (first | with_reducible assumption | with_reducible apply logUnit_kept | with_reducible apply setReg_kept | with_reducible apply logAccepted_kept | with_reducible intro _ | dsimp only | with_reducible apply ite_kept | with_reducible apply iteO_kept | split)

theorem execCupIntTaintClear_kept (src : Src) (v : Word) (s : State) (hκ : Kept κ ζ s) : KeptO κ ζ (execCupIntTaintClear src v s) := by
  unfold execCupIntTaintClear
  repeat' (first | with_reducible assumption | with_reducible apply next_kept | with_reducible apply fault_kept | with_reducible apply done_kept | with_reducible apply taintClear_kept | with_reducible apply emit_kept | with_reducible intro _ | dsimp only | with_reducible apply ite_kept | with_reducible apply iteO_kept | split)

theorem execDigestRecord_kept (key digest : Nat) (s : State) (hκ : Kept κ ζ s) : KeptO κ ζ (execDigestRecord key digest s) := by
  unfold execDigestRecord
  repeat' (first | with_reducible assumption | with_reducible apply next_kept | with_reducible apply fault_kept | with_reducible apply done_kept | with_reducible apply withInteg_kept | with_reducible apply matchDigest_kept | with_reducible intro _ | dsimp only | with_reducible apply ite_kept | with_reducible apply iteO_kept | split)

theorem execCopeUnmatchedTimeout_kept (s : State) (hκ : Kept κ ζ s) : KeptO κ ζ (execCopeUnmatchedTimeout s) := by
  unfold execCopeUnmatchedTimeout
  repeat' (first | with_reducible assumption | with_reducible apply next_kept | with_reducible apply fault_kept | with_reducible apply done_kept | with_reducible apply withInteg_kept | with_reducible apply logUnit_kept | with_reducible apply foldl_kept | with_reducible apply foldl_kept1 | with_reducible apply foldl_kept11 | with_reducible intro _ | dsimp only | with_reducible apply ite_kept | with_reducible apply iteO_kept | split)

end Sys2Proof.Machine
end

