-- ==== Sys2Proof/Laws/Kept/Ingot.lean ====
section
/-! SUPPORT. What the operations of Machine/Ingot.lean keep. -/
set_option linter.all false
set_option simprocs false
namespace Sys2Proof.Machine
variable {κ : List Instr} {ζ : Bool × List Byte × Bool}

theorem clearMap_kept (s : State) (hκ : Kept κ ζ s) : Kept κ ζ (clearMap s) := by
  unfold clearMap
  repeat' (first | with_reducible assumption | with_reducible apply withIngot_kept | with_reducible apply withMem_kept | with_reducible apply filter_keeps | with_reducible apply filter_spad_keeps | with_reducible intro _ | dsimp only | with_reducible apply ite_kept | with_reducible apply iteO_kept | split)

theorem ingEnable_kept (s : State) (src : Src) (v : Nat) (note : Bool) (hκ : Kept κ ζ s) : Kept κ ζ (ingEnable s src v note) := by
  unfold ingEnable
  repeat' (first | with_reducible assumption | with_reducible apply withIngot_kept | with_reducible apply clearMap_kept | with_reducible apply logCup_kept | with_reducible apply setReg_kept | with_reducible apply logAccIf_kept | with_reducible intro _ | dsimp only | with_reducible apply ite_kept | with_reducible apply iteO_kept | split)

theorem execCupIngEnable_kept (src : Src) (v : Word) (s : State) (hκ : Kept κ ζ s) : KeptO κ ζ (execCupIngEnable src v s) := by
  unfold execCupIngEnable
  repeat' (first | with_reducible assumption | with_reducible apply next_kept | with_reducible apply fault_kept | with_reducible apply done_kept | with_reducible apply ingEnable_kept | with_reducible apply emit_kept | with_reducible intro _ | dsimp only | with_reducible apply ite_kept | with_reducible apply iteO_kept | split)

theorem cutWrite_kept (s : State) (src : Src) (note : Bool) (hκ : Kept κ ζ s) : Kept κ ζ (cutWrite s src note) := by
  unfold cutWrite
  repeat' (first | with_reducible assumption | with_reducible apply logAccIf_kept | with_reducible apply requestCut_kept | with_reducible intro _ | dsimp only | with_reducible apply ite_kept | with_reducible apply iteO_kept | split)

theorem execCut_kept (src : Src) (s : State) (hκ : Kept κ ζ s) : KeptO κ ζ (execCut src s) := by
  unfold execCut
  repeat' (first | with_reducible assumption | with_reducible apply next_kept | with_reducible apply fault_kept | with_reducible apply done_kept | with_reducible apply cutWrite_kept | with_reducible apply emit_kept | with_reducible intro _ | dsimp only | with_reducible apply ite_kept | with_reducible apply iteO_kept | split)

theorem abandonWrite_kept (s : State) (src : Src) (note : Bool) (hκ : Kept κ ζ s) : Kept κ ζ (abandonWrite s src note) := by
  unfold abandonWrite
  repeat' (first | with_reducible assumption | with_reducible apply withIngot_kept | with_reducible apply logCup_kept | with_reducible apply logAccIf_kept | with_reducible intro _ | dsimp only | with_reducible apply ite_kept | with_reducible apply iteO_kept | split)

theorem execAbandon_kept (src : Src) (s : State) (hκ : Kept κ ζ s) : KeptO κ ζ (execAbandon src s) := by
  unfold execAbandon
  repeat' (first | with_reducible assumption | with_reducible apply next_kept | with_reducible apply fault_kept | with_reducible apply done_kept | with_reducible apply abandonWrite_kept | with_reducible apply emit_kept | with_reducible intro _ | dsimp only | with_reducible apply ite_kept | with_reducible apply iteO_kept | split)

theorem cutQueue_kept (s : State) (k : Nat) (hκ : Kept κ ζ s) : Kept κ ζ (cutQueue s k) := by
  unfold cutQueue
  repeat' (first | with_reducible assumption | with_reducible apply setReg_kept | with_reducible apply setQ_kept | with_reducible intro _ | dsimp only | with_reducible apply ite_kept | with_reducible apply iteO_kept | split)

theorem startDrain_kept (s : State) (hκ : Kept κ ζ s) : Kept κ ζ (startDrain s) := by
  unfold startDrain
  repeat' (first | with_reducible assumption | with_reducible apply cntAdd_kept | with_reducible apply sendMsg_kept | with_reducible apply withIngot_kept | with_reducible apply logCup_kept | with_reducible apply foldl_kept | with_reducible apply foldl_kept1 | with_reducible apply foldl_kept11 | with_reducible intro _ | dsimp only | with_reducible apply ite_kept | with_reducible apply iteO_kept | split)

theorem takeCut_kept (s : State) (kind step since : Nat) (hκ : Kept κ ζ s) : Kept κ ζ (takeCut s kind step since) := by
  unfold takeCut
  repeat' (first | with_reducible assumption | with_reducible apply logCup_kept | with_reducible apply startDrain_kept | with_reducible apply withMem_kept | with_reducible apply withIngot_kept | with_reducible apply cntAdd_kept | with_reducible apply setReg_kept | with_reducible apply setReg64_kept | with_reducible apply foldl_kept | with_reducible apply foldl_kept1 | with_reducible apply foldl_kept11 | with_reducible apply putBytes_keeps | with_reducible apply putBytes_spad_keeps | with_reducible intro _ | dsimp only | with_reducible apply ite_kept | with_reducible apply iteO_kept | split)

theorem execCutTake_kept (peers : List Nat) (s : State) (hκ : Kept κ ζ s) : KeptO κ ζ (execCutTake peers s) := by
  unfold execCutTake
  repeat' (first | with_reducible assumption | with_reducible apply next_kept | with_reducible apply fault_kept | with_reducible apply done_kept | with_reducible apply takeCut_kept | with_reducible intro _ | dsimp only | with_reducible apply ite_kept | with_reducible apply iteO_kept | split)

theorem execChillAnnounce_kept (pos : Nat) (s : State) (hκ : Kept κ ζ s) : KeptO κ ζ (execChillAnnounce pos s) := by
  unfold execChillAnnounce
  repeat' (first | with_reducible assumption | with_reducible apply next_kept | with_reducible apply fault_kept | with_reducible apply done_kept | with_reducible apply withIngot_kept | with_reducible apply dropArrival_kept | with_reducible intro _ | dsimp only | with_reducible apply ite_kept | with_reducible apply iteO_kept | split)

theorem execDrainPacket_kept (src epoch n addr : Nat) (data : List Byte) (s : State) (hκ : Kept κ ζ s) : KeptO κ ζ (execDrainPacket src epoch n addr data s) := by
  unfold execDrainPacket
  repeat' (first | with_reducible assumption | with_reducible apply next_kept | with_reducible apply fault_kept | with_reducible apply done_kept | with_reducible apply sendMsg_kept | with_reducible apply withIngot_kept | with_reducible apply withMem_kept | with_reducible apply logCup_kept | with_reducible apply dropArrival_kept | with_reducible apply putBytes_keeps | with_reducible apply putBytes_spad_keeps | with_reducible intro _ | dsimp only | with_reducible apply ite_kept | with_reducible apply iteO_kept | split)

theorem execSealRecord_kept (src epoch _step pages digest : Nat) (s : State) (hκ : Kept κ ζ s) : KeptO κ ζ (execSealRecord src epoch _step pages digest s) := by
  unfold execSealRecord
  repeat' (first | with_reducible assumption | with_reducible apply next_kept | with_reducible apply fault_kept | with_reducible apply done_kept | with_reducible apply setReg_kept | with_reducible apply withIngot_kept | with_reducible apply sendMsg_kept | with_reducible apply logCup_kept | with_reducible apply dropArrival_kept | with_reducible intro _ | dsimp only | with_reducible apply ite_kept | with_reducible apply iteO_kept | split)

theorem dropCopies_kept (s : State) (gone : Nat → Bool) (hκ : Kept κ ζ s) : Kept κ ζ (dropCopies s gone) := by
  unfold dropCopies
  repeat' (first | with_reducible assumption | with_reducible apply withIngot_kept | with_reducible apply setMapHalf_kept | with_reducible apply foldl_kept | with_reducible apply foldl_kept1 | with_reducible apply foldl_kept11 | with_reducible intro _ | dsimp only | with_reducible apply ite_kept | with_reducible apply iteO_kept | split)

theorem sealCut_kept (s : State) (e : Nat) (hκ : Kept κ ζ s) : Kept κ ζ (sealCut s e) := by
  unfold sealCut
  repeat' (first | with_reducible assumption | with_reducible apply withIngot_kept | with_reducible apply setReg_kept | with_reducible apply dropCopies_kept | with_reducible apply filter_keeps | with_reducible apply filter_spad_keeps | with_reducible intro _ | dsimp only | with_reducible apply ite_kept | with_reducible apply iteO_kept | split)

theorem execSealed_kept (src epoch result : Nat) (s : State) (hκ : Kept κ ζ s) : KeptO κ ζ (execSealed src epoch result s) := by
  unfold execSealed
  repeat' (first | with_reducible assumption | with_reducible apply next_kept | with_reducible apply fault_kept | with_reducible apply done_kept | with_reducible apply withIngot_kept | with_reducible apply sealCut_kept | with_reducible apply logCup_kept | with_reducible apply dropArrival_kept | with_reducible intro _ | dsimp only | with_reducible apply ite_kept | with_reducible apply iteO_kept | split)

theorem execDrainRetry_kept (s : State) (hκ : Kept κ ζ s) : KeptO κ ζ (execDrainRetry s) := by
  unfold execDrainRetry
  repeat' (first | with_reducible assumption | with_reducible apply next_kept | with_reducible apply fault_kept | with_reducible apply done_kept | with_reducible apply startDrain_kept | with_reducible intro _ | dsimp only | with_reducible apply ite_kept | with_reducible apply iteO_kept | split)

theorem zeroRanges_kept (s : State) (hκ : Kept κ ζ s) : Kept κ ζ (zeroRanges s) := by
  unfold zeroRanges
  repeat' (first | with_reducible assumption | with_reducible apply withMem_kept | with_reducible apply filter_keeps | with_reducible apply filter_spad_keeps | with_reducible intro _ | dsimp only | with_reducible apply ite_kept | with_reducible apply iteO_kept | split)

theorem restoreImage_kept (s : State) (im : List (Nat × Nat)) (hκ : Kept κ ζ s) : Kept κ ζ (restoreImage s im) := by
  unfold restoreImage
  repeat' (first | with_reducible assumption | with_reducible apply setGrp_kept | with_reducible apply setQ_kept | with_reducible apply setReg_kept | with_reducible apply withRegs_kept | with_reducible apply foldl_kept | with_reducible apply foldl_kept1 | with_reducible apply foldl_kept11 | with_reducible apply filter_keeps | with_reducible apply filter_spad_keeps | with_reducible intro _ | dsimp only | with_reducible apply ite_kept | with_reducible apply iteO_kept | split)

theorem restoreContexts_kept (s : State) (hκ : Kept κ ζ s) : Kept κ ζ (restoreContexts s) := by
  unfold restoreContexts
  repeat' (first | with_reducible assumption | with_reducible apply reserveSlice_kept | with_reducible apply setReg_kept | with_reducible apply setCtxState_kept | with_reducible apply withTnd_kept | with_reducible apply foldl_kept | with_reducible apply foldl_kept1 | with_reducible apply foldl_kept11 | with_reducible apply filter_keeps | with_reducible apply filter_spad_keeps | with_reducible intro _ | dsimp only | with_reducible apply ite_kept | with_reducible apply iteO_kept | split)

theorem endRollback_kept (s : State) (e : Nat) (hκ : Kept κ ζ s) : Kept κ ζ (endRollback s e) := by
  unfold endRollback
  repeat' (first | with_reducible assumption | with_reducible apply setReg_kept | with_reducible apply endStream_kept | with_reducible apply foldl_kept | with_reducible apply foldl_kept1 | with_reducible apply foldl_kept11 | with_reducible intro _ | dsimp only | with_reducible apply ite_kept | with_reducible apply iteO_kept | split)

theorem writeBack_kept (s : State) (t : Nat) (hκ : Kept κ ζ s) : Kept κ ζ (writeBack s t).1 := by
  unfold writeBack
  repeat' (first | with_reducible assumption | with_reducible apply copyPage_kept | with_reducible apply foldl_kept | with_reducible apply foldl_kept1 | with_reducible apply foldl_kept11 | with_reducible apply filter_keeps | with_reducible apply filter_spad_keeps | with_reducible intro _ | dsimp only | with_reducible apply ite_kept | with_reducible apply iteO_kept | split)

theorem restoreWrite_kept (s : State) (src : Src) (note : Bool) (hκ : Kept κ ζ s) : Kept κ ζ (restoreWrite s src note) := by
  unfold restoreWrite
  repeat' (first | with_reducible assumption | with_reducible apply withIngot_kept | with_reducible apply restoreContexts_kept | with_reducible apply withFlask_kept | with_reducible apply restoreImage_kept | with_reducible apply endRollback_kept | with_reducible apply dropCopies_kept | with_reducible apply zeroRanges_kept | with_reducible apply writeBack_kept | with_reducible apply logCup_kept | with_reducible apply logDiscard_kept | with_reducible apply logAccIf_kept | with_reducible apply filter_keeps | with_reducible apply filter_spad_keeps | with_reducible intro _ | dsimp only | with_reducible apply ite_kept | with_reducible apply iteO_kept | split)

theorem execRestore_kept (src : Src) (s : State) (hκ : Kept κ ζ s) : KeptO κ ζ (execRestore src s) := by
  unfold execRestore
  repeat' (first | with_reducible assumption | with_reducible apply next_kept | with_reducible apply fault_kept | with_reducible apply done_kept | with_reducible apply restoreWrite_kept | with_reducible apply emit_kept | with_reducible intro _ | dsimp only | with_reducible apply ite_kept | with_reducible apply iteO_kept | split)

theorem execRestoreComplete_kept (s : State) (hκ : Kept κ ζ s) : KeptO κ ζ (execRestoreComplete s) := by
  unfold execRestoreComplete
  repeat' (first | with_reducible assumption | with_reducible apply next_kept | with_reducible apply fault_kept | with_reducible apply done_kept | with_reducible apply withIngot_kept | with_reducible apply logCup_kept | with_reducible intro _ | dsimp only | with_reducible apply ite_kept | with_reducible apply iteO_kept | split)

theorem loadWrite_kept (s : State) (src : Src) (note : Bool) (hκ : Kept κ ζ s) : Kept κ ζ (loadWrite s src note) := by
  unfold loadWrite
  repeat' (first | with_reducible assumption | with_reducible apply sendMsg_kept | with_reducible apply withIngot_kept | with_reducible apply logCup_kept | with_reducible apply logAccIf_kept | with_reducible apply logDiscard_kept | with_reducible apply foldl_kept | with_reducible apply foldl_kept1 | with_reducible apply foldl_kept11 | with_reducible apply filter_keeps | with_reducible apply filter_spad_keeps | with_reducible intro _ | dsimp only | with_reducible apply ite_kept | with_reducible apply iteO_kept | split)

theorem execLoad_kept (src : Src) (s : State) (hκ : Kept κ ζ s) : KeptO κ ζ (execLoad src s) := by
  unfold execLoad
  repeat' (first | with_reducible assumption | with_reducible apply next_kept | with_reducible apply fault_kept | with_reducible apply done_kept | with_reducible apply loadWrite_kept | with_reducible apply emit_kept | with_reducible intro _ | dsimp only | with_reducible apply ite_kept | with_reducible apply iteO_kept | split)

theorem execLoadComplete_kept (fail : Option (Nat × Nat)) (image : List (Nat × Nat)) (pages : List (Nat × List Byte)) (lines : List (Nat × Bool × List Byte)) (s : State) (hκ : Kept κ ζ s) : KeptO κ ζ (execLoadComplete fail image pages lines s) := by
  unfold execLoadComplete
  repeat' (first | with_reducible assumption | with_reducible apply next_kept | with_reducible apply fault_kept | with_reducible apply done_kept | with_reducible apply restoreContexts_kept | with_reducible apply withFlask_kept | with_reducible apply endRollback_kept | with_reducible apply setReg_kept | with_reducible apply restoreImage_kept | with_reducible apply zeroRanges_kept | with_reducible apply dropCopies_kept | with_reducible apply withMem_kept | with_reducible apply setPoison_kept | with_reducible apply logCup_kept | with_reducible apply withIngot_kept | with_reducible apply foldl_kept | with_reducible apply foldl_kept1 | with_reducible apply foldl_kept11 | with_reducible apply putBytes_keeps | with_reducible apply putBytes_spad_keeps | with_reducible apply filter_keeps | with_reducible apply filter_spad_keeps | with_reducible intro _ | dsimp only | with_reducible apply ite_kept | with_reducible apply iteO_kept | split)

end Sys2Proof.Machine
end

