-- ==== Sys2Proof/Laws/Kept/Quench.lean ====
section
/-! SUPPORT. What the operations of Machine/Quench.lean keep. -/
set_option linter.all false
set_option simprocs false
namespace Sys2Proof.Machine
variable {κ : List Instr} {ζ : Bool × List Byte × Bool}

theorem withCup_kept (s : State) (c : Cupola) (hk : Keeps κ ζ s.pending (c.fused, c.fuseHash, c.require) s.mem s.spad s.hlog) :
    Kept κ ζ (s.withCup c) := hk

theorem quenchArm_kept (s : State) (src : Src) (v : Nat) (hκ : Kept κ ζ s) : Kept κ ζ (quenchArm s src v) := by
  unfold quenchArm
  repeat' (first | with_reducible assumption | with_reducible apply withCup_kept | with_reducible apply logAccepted_kept | with_reducible apply setReg_kept | with_reducible apply logDiscard_kept | with_reducible intro _ | dsimp only | with_reducible apply ite_kept | with_reducible apply iteO_kept | split)

theorem execCupQuenchArm_kept (src : Src) (v : Word) (s : State) (hκ : Kept κ ζ s) : KeptO κ ζ (execCupQuenchArm src v s) := by
  unfold execCupQuenchArm
  repeat' (first | with_reducible assumption | with_reducible apply next_kept | with_reducible apply fault_kept | with_reducible apply done_kept | with_reducible apply quenchArm_kept | with_reducible apply emit_kept | with_reducible intro _ | dsimp only | with_reducible apply ite_kept | with_reducible apply iteO_kept | split)

theorem quenchIngot_kept (s : State) (hκ : Kept κ ζ s) : Kept κ ζ (quenchIngot s) := by
  unfold quenchIngot
  repeat' (first | with_reducible assumption | with_reducible apply withIngot_kept | with_reducible intro _ | dsimp only | with_reducible apply ite_kept | with_reducible apply iteO_kept | split)

theorem dropTaint_kept (s : State) (hκ : Kept κ ζ s) : Kept κ ζ (dropTaint s) := by
  unfold dropTaint
  repeat' (first | with_reducible assumption | with_reducible apply setReg_kept | with_reducible apply logUnit_kept | with_reducible intro _ | dsimp only | with_reducible apply ite_kept | with_reducible apply iteO_kept | split)

theorem quenchStop_kept (s : State) (hκ : Kept κ ζ s) : Kept κ ζ (quenchStop s) := by
  unfold quenchStop
  repeat' (first | with_reducible assumption | with_reducible apply reserveSlice_kept | with_reducible apply setReg_kept | with_reducible apply withRegs_kept | with_reducible apply dropTaint_kept | with_reducible apply zeroChoices_kept | with_reducible apply quenchIngot_kept | with_reducible apply foldl_kept | with_reducible apply foldl_kept1 | with_reducible apply foldl_kept11 | with_reducible apply filter_keeps | with_reducible apply filter_spad_keeps | with_reducible intro _ | dsimp only | with_reducible apply ite_kept | with_reducible apply iteO_kept | split)

theorem beginQuench_kept (s : State) (cause profile : Nat) (shake : Bool) (src : Src) (hκ : Kept κ ζ s) : Kept κ ζ (beginQuench s cause profile shake src) := by
  unfold beginQuench
  repeat' (first | with_reducible assumption | with_reducible apply quenchStop_kept | with_reducible apply withCup_kept | with_reducible intro _ | dsimp only | with_reducible apply ite_kept | with_reducible apply iteO_kept | split)

theorem quenchGo_kept (s : State) (src : Src) (v : Nat) (hκ : Kept κ ζ s) : Kept κ ζ (quenchGo s src v) := by
  unfold quenchGo
  repeat' (first | with_reducible assumption | with_reducible apply logAccepted_kept | with_reducible apply beginQuench_kept | with_reducible apply logDiscard_kept | with_reducible intro _ | dsimp only | with_reducible apply ite_kept | with_reducible apply iteO_kept | split)

theorem execCupQuenchGo_kept (src : Src) (v : Word) (s : State) (hκ : Kept κ ζ s) : KeptO κ ζ (execCupQuenchGo src v s) := by
  unfold execCupQuenchGo
  repeat' (first | with_reducible assumption | with_reducible apply next_kept | with_reducible apply fault_kept | with_reducible apply done_kept | with_reducible apply quenchGo_kept | with_reducible apply emit_kept | with_reducible intro _ | dsimp only | with_reducible apply ite_kept | with_reducible apply iteO_kept | split)

theorem writeShakeout_kept (s : State) (cause absent : Nat) (hκ : Kept κ ζ s) : Kept κ ζ (writeShakeout s cause absent) := by
  unfold writeShakeout
  repeat' (first | with_reducible assumption | with_reducible apply setReg_kept | with_reducible apply logCup_kept | with_reducible apply withMem_kept | with_reducible apply foldl_kept | with_reducible apply foldl_kept1 | with_reducible apply foldl_kept11 | with_reducible apply putBytes_keeps | with_reducible apply putBytes_spad_keeps | with_reducible apply filter_keeps | with_reducible apply filter_spad_keeps | with_reducible intro _ | dsimp only | with_reducible apply ite_kept | with_reducible apply iteO_kept | split)

theorem execShakeoutEnd_kept (absent : Nat) (s : State) (hκ : Kept κ ζ s) : KeptO κ ζ (execShakeoutEnd absent s) := by
  unfold execShakeoutEnd
  repeat' (first | with_reducible assumption | with_reducible apply next_kept | with_reducible apply fault_kept | with_reducible apply done_kept | with_reducible apply withCup_kept | with_reducible apply quenchStop_kept | with_reducible apply writeShakeout_kept | with_reducible intro _ | dsimp only | with_reducible apply ite_kept | with_reducible apply iteO_kept | split)

end Sys2Proof.Machine
end

