-- ==== Sys2Proof/Laws/Kept/Meters.lean ====
section
/-! SUPPORT. What the operations of Machine/Meters.lean keep. -/
set_option linter.all false
set_option simprocs false
namespace Sys2Proof.Machine
variable {κ : List Instr} {ζ : Bool × List Byte × Bool}

theorem withMeters_kept (s : State) (m : Meters) (hκ : Kept κ ζ s) : Kept κ ζ (State.withMeters s m) := by
  unfold State.withMeters
  repeat' (first | with_reducible assumption | with_reducible intro _ | dsimp only | with_reducible apply ite_kept | with_reducible apply iteO_kept | split)

theorem closeInterval_kept (s : State) (late : Bool) (b w gen endAt : Nat) (ends : Sparse Nat) (hκ : Kept κ ζ s) : Kept κ ζ (closeInterval s late b w gen endAt ends) := by
  unfold closeInterval
  repeat' (first | with_reducible assumption | with_reducible apply setReg_kept | with_reducible apply logCup_kept | with_reducible apply withMeters_kept | with_reducible apply setReg64_kept | with_reducible apply foldl_kept | with_reducible apply foldl_kept1 | with_reducible apply foldl_kept11 | with_reducible intro _ | dsimp only | with_reducible apply ite_kept | with_reducible apply iteO_kept | split)

theorem mapGo_kept (s : State) (src : Src) (hκ : Kept κ ζ s) : Kept κ ζ (mapGo s src) := by
  unfold mapGo
  repeat' (first | with_reducible assumption | with_reducible apply withMeters_kept | with_reducible apply logSrc_kept | with_reducible apply logAccepted_kept | with_reducible apply setReg_kept | with_reducible intro _ | dsimp only | with_reducible apply ite_kept | with_reducible apply iteO_kept | split)

theorem execMtrMapGo_kept (src : Src) (s : State) (hκ : Kept κ ζ s) : KeptO κ ζ (execMtrMapGo src s) := by
  unfold execMtrMapGo
  repeat' (first | with_reducible assumption | with_reducible apply next_kept | with_reducible apply fault_kept | with_reducible apply done_kept | with_reducible apply mapGo_kept | with_reducible apply emit_kept | with_reducible intro _ | dsimp only | with_reducible apply ite_kept | with_reducible apply iteO_kept | split)

theorem closeGo_kept (s0 : State) (src : Src) (hκ : Kept κ ζ s0) : Kept κ ζ (closeGo s0 src) := by
  unfold closeGo
  repeat' (first | with_reducible assumption | with_reducible apply setReg64_kept | with_reducible apply closeInterval_kept | with_reducible apply withMeters_kept | with_reducible apply logSrc_kept | with_reducible apply logAccepted_kept | with_reducible intro _ | dsimp only | with_reducible apply ite_kept | with_reducible apply iteO_kept | split)

theorem execMtrCloseGo_kept (src : Src) (s : State) (hκ : Kept κ ζ s) : KeptO κ ζ (execMtrCloseGo src s) := by
  unfold execMtrCloseGo
  repeat' (first | with_reducible assumption | with_reducible apply next_kept | with_reducible apply fault_kept | with_reducible apply done_kept | with_reducible apply closeGo_kept | with_reducible apply emit_kept | with_reducible intro _ | dsimp only | with_reducible apply ite_kept | with_reducible apply iteO_kept | split)

theorem closeArmed_kept (s : State) (hκ : Kept κ ζ s) : Kept κ ζ (closeArmed s) := by
  unfold closeArmed
  repeat' (first | with_reducible assumption | with_reducible apply closeInterval_kept | with_reducible intro _ | dsimp only | with_reducible apply ite_kept | with_reducible apply iteO_kept | split)

theorem execMtrIntervalClose_kept (s : State) (hκ : Kept κ ζ s) : KeptO κ ζ (execMtrIntervalClose s) := by
  unfold execMtrIntervalClose
  repeat' (first | with_reducible assumption | with_reducible apply next_kept | with_reducible apply fault_kept | with_reducible apply done_kept | with_reducible apply closeArmed_kept | with_reducible intro _ | dsimp only | with_reducible apply ite_kept | with_reducible apply iteO_kept | split)

theorem plainWrite_kept (s : State) (src : Src) (off v : Nat) (hκ : Kept κ ζ s) : Kept κ ζ (plainWrite s src off v) := by
  unfold plainWrite
  repeat' (first | with_reducible assumption | with_reducible apply setReg_kept | with_reducible apply logAccepted_kept | with_reducible intro _ | dsimp only | with_reducible apply ite_kept | with_reducible apply iteO_kept | split)

theorem execMtrAckWrite_kept (src : Src) (v : Word) (s : State) (hκ : Kept κ ζ s) : KeptO κ ζ (execMtrAckWrite src v s) := by
  unfold execMtrAckWrite
  repeat' (first | with_reducible assumption | with_reducible apply next_kept | with_reducible apply fault_kept | with_reducible apply done_kept | with_reducible apply plainWrite_kept | with_reducible apply emit_kept | with_reducible intro _ | dsimp only | with_reducible apply ite_kept | with_reducible apply iteO_kept | split)

theorem execMtrRangeTick_kept (s : State) (hκ : Kept κ ζ s) : KeptO κ ζ (execMtrRangeTick s) := by
  unfold execMtrRangeTick
  repeat' (first | with_reducible assumption | with_reducible apply next_kept | with_reducible apply fault_kept | with_reducible apply done_kept | with_reducible apply withMeters_kept | with_reducible apply cntAdd_kept | with_reducible apply foldl_kept | with_reducible apply foldl_kept1 | with_reducible apply foldl_kept11 | with_reducible intro _ | dsimp only | with_reducible apply ite_kept | with_reducible apply iteO_kept | split)

end Sys2Proof.Machine
end

