-- ==== Sys2Proof/Laws/Kept/Cupola.lean ====
section
/-! SUPPORT. What the operations of Machine/Cupola.lean keep. -/
set_option linter.all false
set_option simprocs false
namespace Sys2Proof.Machine
variable {κ : List Instr} {ζ : Bool × List Byte × Bool}

theorem withClock_kept (s : State) (c : Clock) (hκ : Kept κ ζ s) : Kept κ ζ (State.withClock s c) := by
  unfold State.withClock
  repeat' (first | with_reducible assumption | with_reducible intro _ | dsimp only | with_reducible apply ite_kept | with_reducible apply iteO_kept | split)

theorem beginChange_kept (s : State) (hκ : Kept κ ζ s) : Kept κ ζ (beginChange s) := by
  unfold beginChange
  repeat' (first | with_reducible assumption | with_reducible apply withClock_kept | with_reducible intro _ | dsimp only | with_reducible apply ite_kept | with_reducible apply iteO_kept | split)

theorem setTarget_kept (s : State) (k : Nat) (hκ : Kept κ ζ s) : Kept κ ζ (setTarget s k) := by
  unfold setTarget
  repeat' (first | with_reducible assumption | with_reducible apply withClock_kept | with_reducible apply beginChange_kept | with_reducible intro _ | dsimp only | with_reducible apply ite_kept | with_reducible apply iteO_kept | split)

theorem execRootPointChangeEnd_kept (s : State) (hκ : Kept κ ζ s) : KeptO κ ζ (execRootPointChangeEnd s) := by
  unfold execRootPointChangeEnd
  repeat' (first | with_reducible assumption | with_reducible apply next_kept | with_reducible apply fault_kept | with_reducible apply done_kept | with_reducible apply withClock_kept | with_reducible apply cntAdd_kept | with_reducible apply beginChange_kept | with_reducible intro _ | dsimp only | with_reducible apply ite_kept | with_reducible apply iteO_kept | split)

theorem holdEvent_kept (s : State) (cause : Nat) (asserted : Bool) (hκ : Kept κ ζ s) : Kept κ ζ (holdEvent s cause asserted) := by
  unfold holdEvent
  repeat' (first | with_reducible assumption | with_reducible apply riskAdd_kept | with_reducible apply logCup_kept | with_reducible intro _ | dsimp only | with_reducible apply ite_kept | with_reducible apply iteO_kept | split)

theorem execInputOverLimit_kept (s : State) (hκ : Kept κ ζ s) : KeptO κ ζ (execInputOverLimit s) := by
  unfold execInputOverLimit
  repeat' (first | with_reducible assumption | with_reducible apply next_kept | with_reducible apply fault_kept | with_reducible apply done_kept | with_reducible apply withCup_kept | with_reducible apply holdEvent_kept | with_reducible intro _ | dsimp only | with_reducible apply ite_kept | with_reducible apply iteO_kept | split)

theorem safetyHolds_kept (s : State) (hκ : Kept κ ζ s) : Kept κ ζ (safetyHolds s) := by
  unfold safetyHolds
  repeat' (first | with_reducible assumption | with_reducible apply withCup_kept | with_reducible apply holdEvent_kept | with_reducible intro _ | dsimp only | with_reducible apply ite_kept | with_reducible apply iteO_kept | split)

theorem vfLoop_kept (s : State) (hκ : Kept κ ζ s) : Kept κ ζ (vfLoop s) := by
  unfold vfLoop
  repeat' (first | with_reducible assumption | with_reducible apply setTarget_kept | with_reducible apply cntAdd_kept | with_reducible apply logCup_kept | with_reducible apply withCup_kept | with_reducible apply safetyHolds_kept | with_reducible intro _ | dsimp only | with_reducible apply ite_kept | with_reducible apply iteO_kept | split)

theorem compareUnit_kept (s : State) (i : Nat) (lost : Bool) (hκ : Kept κ ζ s) : Kept κ ζ (compareUnit s i lost) := by
  unfold compareUnit
  repeat' (first | with_reducible assumption | with_reducible apply cntAdd_kept | with_reducible apply logCup_kept | with_reducible apply withCup_kept | with_reducible intro _ | dsimp only | with_reducible apply ite_kept | with_reducible apply iteO_kept | split)

theorem compareUnits_kept (s : State) (lost : List Nat) (hκ : Kept κ ζ s) : Kept κ ζ (compareUnits s lost) := by
  unfold compareUnits
  repeat' (first | with_reducible assumption | with_reducible apply compareUnit_kept | with_reducible apply tableError_kept | with_reducible apply foldl_kept | with_reducible apply foldl_kept1 | with_reducible apply foldl_kept11 | with_reducible intro _ | dsimp only | with_reducible apply ite_kept | with_reducible apply iteO_kept | split)

theorem distanceLoop_kept (s : State) (n : Nat) (hκ : Kept κ ζ s) : Kept κ ζ (distanceLoop s n) := by
  unfold distanceLoop
  repeat' (first | with_reducible assumption | with_reducible apply setStream_kept | with_reducible intro _ | dsimp only | with_reducible apply ite_kept | with_reducible apply iteO_kept | split)

theorem sampleCoolant_kept (s : State) (inlet outlet : Nat) (hκ : Kept κ ζ s) : Kept κ ζ (sampleCoolant s inlet outlet) := by
  unfold sampleCoolant
  repeat' (first | with_reducible assumption | with_reducible apply logCup_kept | with_reducible intro _ | dsimp only | with_reducible apply ite_kept | with_reducible apply iteO_kept | split)

theorem sampleTiers_kept (s : State) (temps : List (Nat × Bool)) (hκ : Kept κ ζ s) : Kept κ ζ (sampleTiers s temps) := by
  unfold sampleTiers
  repeat' (first | with_reducible assumption | with_reducible apply withCup_kept | with_reducible apply foldl_kept | with_reducible apply foldl_kept1 | with_reducible apply foldl_kept11 | with_reducible apply filter_keeps | with_reducible apply filter_spad_keeps | with_reducible intro _ | dsimp only | with_reducible apply ite_kept | with_reducible apply iteO_kept | split)

theorem execSupervisionPass_kept (p10 tj : Nat) (temps : List (Nat × Bool)) (inlet outlet : Nat) (lost : List Nat) (s : State) (hκ : Kept κ ζ s) : KeptO κ ζ (execSupervisionPass p10 tj temps inlet outlet lost s) := by
  unfold execSupervisionPass
  repeat' (first | with_reducible assumption | with_reducible apply next_kept | with_reducible apply fault_kept | with_reducible apply done_kept | with_reducible apply setReg_kept | with_reducible apply distanceLoop_kept | with_reducible apply closeArmed_kept | with_reducible apply sampleCoolant_kept | with_reducible apply vfLoop_kept | with_reducible apply compareUnits_kept | with_reducible apply withCup_kept | with_reducible apply sampleTiers_kept | with_reducible apply foldl_kept | with_reducible apply foldl_kept1 | with_reducible apply foldl_kept11 | with_reducible intro _ | dsimp only | with_reducible apply ite_kept | with_reducible apply iteO_kept | split)

theorem scorePart_kept (s : State) (u : Nat) (hκ : Kept κ ζ s) : Kept κ ζ (scorePart s u) := by
  unfold scorePart
  repeat' (first | with_reducible assumption | with_reducible apply logCup_kept | with_reducible apply withCup_kept | with_reducible apply setReg_kept | with_reducible intro _ | dsimp only | with_reducible apply ite_kept | with_reducible apply iteO_kept | split)

theorem laneLoop_kept (s : State) (h lane corrected total : Nat) (hκ : Kept κ ζ s) : Kept κ ζ (laneLoop s h lane corrected total) := by
  unfold laneLoop
  repeat' (first | with_reducible assumption | with_reducible apply enterRetrain_kept | with_reducible apply setLink_kept | with_reducible apply withCup_kept | with_reducible apply cntAdd_kept | with_reducible apply logLink_kept | with_reducible intro _ | dsimp only | with_reducible apply ite_kept | with_reducible apply iteO_kept | split)

theorem execRiskUpdate_kept (lanes : List (Nat × Nat × Nat × Nat)) (s : State) (hκ : Kept κ ζ s) : KeptO κ ζ (execRiskUpdate lanes s) := by
  unfold execRiskUpdate
  repeat' (first | with_reducible assumption | with_reducible apply next_kept | with_reducible apply fault_kept | with_reducible apply done_kept | with_reducible apply laneLoop_kept | with_reducible apply scorePart_kept | with_reducible apply withCup_kept | with_reducible apply foldl_kept | with_reducible apply foldl_kept1 | with_reducible apply foldl_kept11 | with_reducible intro _ | dsimp only | with_reducible apply ite_kept | with_reducible apply iteO_kept | split)

theorem execRiskDecay_kept (s : State) (hκ : Kept κ ζ s) : KeptO κ ζ (execRiskDecay s) := by
  unfold execRiskDecay
  repeat' (first | with_reducible assumption | with_reducible apply next_kept | with_reducible apply fault_kept | with_reducible apply done_kept | with_reducible apply setReg_kept | with_reducible apply withCup_kept | with_reducible apply foldl_kept | with_reducible apply foldl_kept1 | with_reducible apply foldl_kept11 | with_reducible intro _ | dsimp only | with_reducible apply ite_kept | with_reducible apply iteO_kept | split)

theorem vfLimitWrite_kept (s : State) (src : Src) (ceil : Bool) (v : Nat) (hκ : Kept κ ζ s) : Kept κ ζ (vfLimitWrite s src ceil v) := by
  unfold vfLimitWrite
  repeat' (first | with_reducible assumption | with_reducible apply plainWrite_kept | with_reducible apply logDiscard_kept | with_reducible intro _ | dsimp only | with_reducible apply ite_kept | with_reducible apply iteO_kept | split)

theorem execCupVfLimitWrite_kept (src : Src) (ceil : Bool) (v : Word) (s : State) (hκ : Kept κ ζ s) : KeptO κ ζ (execCupVfLimitWrite src ceil v s) := by
  unfold execCupVfLimitWrite
  repeat' (first | with_reducible assumption | with_reducible apply next_kept | with_reducible apply fault_kept | with_reducible apply done_kept | with_reducible apply vfLimitWrite_kept | with_reducible apply emit_kept | with_reducible intro _ | dsimp only | with_reducible apply ite_kept | with_reducible apply iteO_kept | split)

theorem execCupRiskAccWrite_kept (src : Src) (u : Nat) (v : Word) (s : State) (hκ : Kept κ ζ s) : KeptO κ ζ (execCupRiskAccWrite src u v s) := by
  unfold execCupRiskAccWrite
  repeat' (first | with_reducible assumption | with_reducible apply next_kept | with_reducible apply fault_kept | with_reducible apply done_kept | with_reducible apply plainWrite_kept | with_reducible apply logDiscard_kept | with_reducible apply emit_kept | with_reducible intro _ | dsimp only | with_reducible apply ite_kept | with_reducible apply iteO_kept | split)

end Sys2Proof.Machine
end

