-- ==== Sys2Proof/Laws/Kept/RegWrite.lean ====
section
/-! SUPPORT. What the operations of Machine/RegWrite.lean keep. -/
set_option linter.all false
set_option simprocs false
namespace Sys2Proof.Machine
variable {κ : List Instr} {ζ : Bool × List Byte × Bool}

theorem refuseWrite_kept (s : State) (src : Src) (off : Nat) (hκ : Kept κ ζ s) : Kept κ ζ (refuseWrite s src off) := by
  unfold refuseWrite
  repeat' (first | with_reducible assumption | with_reducible apply logDiscard_kept | with_reducible intro _ | dsimp only | with_reducible apply ite_kept | with_reducible apply iteO_kept | split)

theorem checkedWrite_kept (s : State) (src : Src) (off v : Nat) (ok : Bool) (hκ : Kept κ ζ s) : Kept κ ζ (checkedWrite s src off v ok) := by
  unfold checkedWrite
  repeat' (first | with_reducible assumption | with_reducible apply refuseWrite_kept | with_reducible apply plainWrite_kept | with_reducible intro _ | dsimp only | with_reducible apply ite_kept | with_reducible apply iteO_kept | split)

theorem qCtrlWrite_kept (s : State) (src : Src) (k v : Nat) (hκ : Kept κ ζ s) : Kept κ ζ (qCtrlWrite s src k v) := by
  unfold qCtrlWrite
  repeat' (first | with_reducible assumption | with_reducible apply resume_kept | with_reducible apply orderReset_kept | with_reducible apply setReg_kept | with_reducible apply logAccIf_kept | with_reducible apply queueDisable_kept | with_reducible apply queueEnable_kept | with_reducible apply logAccepted_kept | with_reducible apply refuseWrite_kept | with_reducible intro _ | dsimp only | with_reducible apply ite_kept | with_reducible apply iteO_kept | split)

theorem writeCru_kept (s : State) (src : Src) (off v : Nat) (hκ : Kept κ ζ s) : Kept κ ζ (writeCru s src off v) := by
  unfold writeCru
  repeat' (first | with_reducible assumption | with_reducible apply cqHeadWrite_kept | with_reducible apply checkedWrite_kept | with_reducible apply plainWrite_kept | with_reducible apply flush_kept | with_reducible apply qCtrlWrite_kept | with_reducible apply semWrite_kept | with_reducible intro _ | dsimp only | with_reducible apply ite_kept | with_reducible apply iteO_kept | split)

theorem ftlWrite_kept (s : State) (src : Src) (off v : Nat) (hκ : Kept κ ζ s) : Kept κ ζ (ftlWrite s src off v) := by
  unfold ftlWrite
  repeat' (first | with_reducible assumption | with_reducible apply checkedWrite_kept | with_reducible intro _ | dsimp only | with_reducible apply ite_kept | with_reducible apply iteO_kept | split)

theorem ingCtrlWrite_kept (s : State) (src : Src) (v : Nat) (hκ : Kept κ ζ s) : Kept κ ζ (ingCtrlWrite s src v) := by
  unfold ingCtrlWrite
  repeat' (first | with_reducible assumption | with_reducible apply loadWrite_kept | with_reducible apply restoreWrite_kept | with_reducible apply cutWrite_kept | with_reducible apply abandonWrite_kept | with_reducible apply ingEnable_kept | with_reducible apply logAccepted_kept | with_reducible apply refuseWrite_kept | with_reducible intro _ | dsimp only | with_reducible apply ite_kept | with_reducible apply iteO_kept | split)

theorem intCtrlWrite_kept (s : State) (src : Src) (v : Nat) (hκ : Kept κ ζ s) : Kept κ ζ (intCtrlWrite s src v) := by
  unfold intCtrlWrite
  repeat' (first | with_reducible assumption | with_reducible apply clearChoice_kept | with_reducible apply setVerify_kept | with_reducible apply logAccepted_kept | with_reducible intro _ | dsimp only | with_reducible apply ite_kept | with_reducible apply iteO_kept | split)

theorem writeCup_kept (s : State) (src : Src) (off v : Nat) (hκ : Kept κ ζ s) : Kept κ ζ (writeCup s src off v) := by
  unfold writeCup
  repeat' (first | with_reducible assumption | with_reducible apply quenchGo_kept | with_reducible apply quenchArm_kept | with_reducible apply plainWrite_kept | with_reducible apply ingCtrlWrite_kept | with_reducible apply ftlWrite_kept | with_reducible apply taintClear_kept | with_reducible apply intCtrlWrite_kept | with_reducible apply checkedWrite_kept | with_reducible apply vfLimitWrite_kept | with_reducible intro _ | dsimp only | with_reducible apply ite_kept | with_reducible apply iteO_kept | split)

theorem writeHlg_kept (s : State) (src : Src) (off v : Nat) (hκ : Kept κ ζ s) : Kept κ ζ (writeHlg s src off v) := by
  unfold writeHlg
  repeat' (first | with_reducible assumption | with_reducible apply setReg_kept | with_reducible apply clearLog_kept | with_reducible apply logAccepted_kept | with_reducible apply refuseWrite_kept | with_reducible apply plainWrite_kept | with_reducible intro _ | dsimp only | with_reducible apply ite_kept | with_reducible apply iteO_kept | split)

theorem ctxCtrlWrite_kept (s : State) (src : Src) (x v : Nat) (hκ : Kept κ ζ s) : Kept κ ζ (ctxCtrlWrite s src x v) := by
  unfold ctxCtrlWrite
  repeat' (first | with_reducible assumption | with_reducible apply applyCset_kept | with_reducible apply ctxDisable_kept | with_reducible apply ctxEnable_kept | with_reducible apply ctxUnstop_kept | with_reducible apply ctxStop_kept | with_reducible apply setReg_kept | with_reducible apply logAccepted_kept | with_reducible apply refuseWrite_kept | with_reducible intro _ | dsimp only | with_reducible apply ite_kept | with_reducible apply iteO_kept | split)

theorem csetStage_kept (s : State) (src : Src) (x w v : Nat) (hκ : Kept κ ζ s) : Kept κ ζ (csetStage s src x w v) := by
  unfold csetStage
  repeat' (first | with_reducible assumption | with_reducible apply withTnd_kept | with_reducible apply logAccepted_kept | with_reducible intro _ | dsimp only | with_reducible apply ite_kept | with_reducible apply iteO_kept | split)

theorem schedCtrlWrite_kept (s : State) (src : Src) (v : Nat) (hκ : Kept κ ζ s) : Kept κ ζ (schedCtrlWrite s src v) := by
  unfold schedCtrlWrite
  repeat' (first | with_reducible assumption | with_reducible apply setReg_kept | with_reducible apply logAccepted_kept | with_reducible intro _ | dsimp only | with_reducible apply ite_kept | with_reducible apply iteO_kept | split)

theorem writeCtx_kept (s : State) (src : Src) (off v : Nat) (hκ : Kept κ ζ s) : Kept κ ζ (writeCtx s src off v) := by
  unfold writeCtx
  extract_lets x r
  clear_value x r
  repeat' (first | with_reducible assumption | with_reducible apply plainWrite_kept | with_reducible apply ctxCtrlWrite_kept | with_reducible apply csetStage_kept | with_reducible apply checkedWrite_kept | with_reducible apply btFlip_kept | with_reducible apply ite_kept)

theorem writeTnd_kept (s : State) (src : Src) (off v : Nat) (hκ : Kept κ ζ s) : Kept κ ζ (writeTnd s src off v) := by
  unfold writeTnd
  repeat' (first | with_reducible assumption | with_reducible apply ssemWrite_kept | with_reducible apply plainWrite_kept | with_reducible apply setReg_kept | with_reducible apply logAccepted_kept | with_reducible apply orderMove_kept | with_reducible apply checkedWrite_kept | with_reducible apply writeCtx_kept | with_reducible apply schedCtrlWrite_kept | with_reducible intro _ | dsimp only | with_reducible apply ite_kept | with_reducible apply iteO_kept | split)

theorem grpDiscard_kept (s : State) (src : Src) (g off : Nat) (hκ : Kept κ ζ s) : Kept κ ζ (grpDiscard s src g off) := by
  unfold grpDiscard
  repeat' (first | with_reducible assumption | with_reducible apply logSrc_kept | with_reducible apply refuseWrite_kept | with_reducible intro _ | dsimp only | with_reducible apply ite_kept | with_reducible apply iteO_kept | split)

theorem grpCtrlWrite_kept (s : State) (src : Src) (g v : Nat) (hκ : Kept κ ζ s) : Kept κ ζ (grpCtrlWrite s src g v) := by
  unfold grpCtrlWrite
  repeat' (first | with_reducible assumption | with_reducible apply plainWrite_kept | with_reducible apply grpEnable_kept | with_reducible apply grpDisable_kept | with_reducible apply grpAbort_kept | with_reducible apply grpCancelWrite_kept | with_reducible apply logAccepted_kept | with_reducible apply grpDiscard_kept | with_reducible apply refuseWrite_kept | with_reducible intro _ | dsimp only | with_reducible apply ite_kept | with_reducible apply iteO_kept | split)

theorem writeAly_kept (s : State) (src : Src) (off v : Nat) (hκ : Kept κ ζ s) : Kept κ ζ (writeAly s src off v) := by
  unfold writeAly
  repeat' (first | with_reducible assumption | with_reducible apply checkedWrite_kept | with_reducible apply plainWrite_kept | with_reducible apply grpDiscard_kept | with_reducible apply grpCtrlWrite_kept | with_reducible intro _ | dsimp only | with_reducible apply ite_kept | with_reducible apply iteO_kept | split)

theorem scaleWrite_kept (s : State) (src : Src) (v : Nat) (hκ : Kept κ ζ s) : Kept κ ζ (scaleWrite s src v) := by
  unfold scaleWrite
  repeat' (first | with_reducible assumption | with_reducible apply refuseWrite_kept | with_reducible apply plainWrite_kept | with_reducible intro _ | dsimp only | with_reducible apply ite_kept | with_reducible apply iteO_kept | split)

theorem writeSweep_kept (s : State) (src : Src) (off v : Nat) (hκ : Kept κ ζ s) : Kept κ ζ (writeSweep s src off v) := by
  unfold writeSweep
  repeat' (first | with_reducible assumption | with_reducible apply checkedWrite_kept | with_reducible apply scaleWrite_kept | with_reducible apply plainWrite_kept | with_reducible apply discardBusy_kept | with_reducible apply scaleMaxWrite_kept | with_reducible intro _ | dsimp only | with_reducible apply ite_kept | with_reducible apply iteO_kept | split)

theorem writeSlag_kept (s : State) (src : Src) (off v : Nat) (hκ : Kept κ ζ s) : Kept κ ζ (writeSlag s src off v) := by
  unfold writeSlag
  repeat' (first | with_reducible assumption | with_reducible apply plainWrite_kept | with_reducible apply checkedWrite_kept | with_reducible apply discardBusy_kept | with_reducible apply slagNfClear_kept | with_reducible intro _ | dsimp only | with_reducible apply ite_kept | with_reducible apply iteO_kept | split)

theorem writeLdl_kept (s : State) (src : Src) (off v : Nat) (hκ : Kept κ ζ s) : Kept κ ζ (writeLdl s src off v) := by
  unfold writeLdl
  repeat' (first | with_reducible assumption | with_reducible apply writeSlag_kept | with_reducible apply writeSweep_kept | with_reducible apply discardBusy_kept | with_reducible apply plainWrite_kept | with_reducible apply checkedWrite_kept | with_reducible intro _ | dsimp only | with_reducible apply ite_kept | with_reducible apply iteO_kept | split)

theorem writeFlk_kept (s : State) (src : Src) (off v : Nat) (hκ : Kept κ ζ s) : Kept κ ζ (writeFlk s src off v) := by
  unfold writeFlk
  repeat' (first | with_reducible assumption | with_reducible apply checkedWrite_kept | with_reducible apply trigWrite_kept | with_reducible apply plainWrite_kept | with_reducible apply winEnable_kept | with_reducible intro _ | dsimp only | with_reducible apply ite_kept | with_reducible apply iteO_kept | split)

theorem writeMtr_kept (s : State) (src : Src) (off v : Nat) (hκ : Kept κ ζ s) : Kept κ ζ (writeMtr s src off v) := by
  unfold writeMtr
  repeat' (first | with_reducible assumption | with_reducible apply plainWrite_kept | with_reducible apply closeGo_kept | with_reducible apply mapGo_kept | with_reducible intro _ | dsimp only | with_reducible apply ite_kept | with_reducible apply iteO_kept | split)

theorem sprCtrlWrite_kept (s : State) (src : Src) (h v : Nat) (hκ : Kept κ ζ s) : Kept κ ζ (sprCtrlWrite s src h v) := by
  unfold sprCtrlWrite
  repeat' (first | with_reducible assumption | with_reducible apply enterRetrain_kept | with_reducible apply linkEnable_kept | with_reducible apply setReg_kept | with_reducible apply logAccepted_kept | with_reducible apply refuseWrite_kept | with_reducible intro _ | dsimp only | with_reducible apply ite_kept | with_reducible apply iteO_kept | split)

theorem rtCtrlWrite_kept (s : State) (src : Src) (v : Nat) (hκ : Kept κ ζ s) : Kept κ ζ (rtCtrlWrite s src v) := by
  unfold rtCtrlWrite
  repeat' (first | with_reducible assumption | with_reducible apply plainWrite_kept | with_reducible apply setReg_kept | with_reducible apply rtCheck_kept | with_reducible intro _ | dsimp only | with_reducible apply ite_kept | with_reducible apply iteO_kept | split)

theorem writeSpr_kept (s : State) (src : Src) (off v : Nat) (hκ : Kept κ ζ s) : Kept κ ζ (writeSpr s src off v) := by
  unfold writeSpr
  repeat' (first | with_reducible assumption | with_reducible apply plainWrite_kept | with_reducible apply rtAccess_kept | with_reducible apply rtCtrlWrite_kept | with_reducible apply takeover_kept | with_reducible apply checkedWrite_kept | with_reducible apply fenceChange_kept | with_reducible apply sprCtrlWrite_kept | with_reducible intro _ | dsimp only | with_reducible apply ite_kept | with_reducible apply iteO_kept | split)

theorem writeLocked_kept (s : State) (src : Src) (off v mask : Nat) (hκ : Kept κ ζ s) : Kept κ ζ (writeLocked s src off v mask) := by
  unfold writeLocked
  repeat' (first | with_reducible assumption | with_reducible apply checkedWrite_kept | with_reducible apply logDiscard_kept | with_reducible intro _ | dsimp only | with_reducible apply ite_kept | with_reducible apply iteO_kept | split)

theorem writeBlock_kept (s : State) (src : Src) (off v mask : Nat) (hκ : Kept κ ζ s) : Kept κ ζ (writeBlock s src off v mask) := by
  unfold writeBlock
  repeat' (first | with_reducible assumption | with_reducible apply writeCru_kept | with_reducible apply writeSpr_kept | with_reducible apply writeMtr_kept | with_reducible apply writeFlk_kept | with_reducible apply checkedWrite_kept | with_reducible apply writeLdl_kept | with_reducible apply writeAly_kept | with_reducible apply writeTnd_kept | with_reducible apply writeHlg_kept | with_reducible apply writeCup_kept | with_reducible apply plainWrite_kept | with_reducible intro _ | dsimp only | with_reducible apply ite_kept | with_reducible apply iteO_kept | split)

theorem regWrite_kept (s : State) (src : Src) (off v : Nat) (hκ : Kept κ ζ s) : Kept κ ζ (regWrite s src off v) := by
  unfold regWrite
  repeat' (first | with_reducible assumption | with_reducible apply writeBlock_kept | with_reducible apply writeLocked_kept | with_reducible apply logDiscard_kept | with_reducible intro _ | dsimp only | with_reducible apply ite_kept | with_reducible apply iteO_kept | split)

end Sys2Proof.Machine
end

