-- ==== Sys2Proof/Laws/Kept/RegAccess.lean ====
section
/-! SUPPORT. What the operations of Machine/RegAccess.lean keep. -/
set_option linter.all false
set_option simprocs false
namespace Sys2Proof.Machine
variable {κ : List Instr} {ζ : Bool × List Byte × Bool}

theorem regRead4_kept (s : State) (src : Src) (off : Nat) (hκ : Kept κ ζ s) : Kept κ ζ (regRead4 s src off).1 := by
  unfold regRead4
  repeat' (first | with_reducible assumption | with_reducible apply setReg_kept | with_reducible intro _ | dsimp only | with_reducible apply ite_kept | with_reducible apply iteO_kept | split)

theorem regReadWords_kept (n : Nat) (s : State) (src : Src) (off : Nat) (hκ : Kept κ ζ s) :
    Kept κ ζ (regReadWords n s src off).1 := by
  induction n generalizing s off with
  | zero => exact hκ
  | succ n ih =>
    unfold regReadWords
    exact ih _ _ (regRead4_kept s src off hκ)

theorem regRead_kept (s : State) (src : Src) (off width : Nat) (hκ : Kept κ ζ s) : Kept κ ζ (regRead s src off width).1 := by
  unfold regRead
  repeat' (first | with_reducible assumption | with_reducible apply regReadWords_kept | with_reducible apply regRead4_kept | with_reducible apply logDiscard_kept | with_reducible intro _ | dsimp only | with_reducible apply ite_kept | with_reducible apply iteO_kept | split)

theorem regWriteWords_kept (n : Nat) (s : State) (src : Src) (off v : Nat) (hκ : Kept κ ζ s) :
    Kept κ ζ (regWriteWords n s src off v) := by
  induction n generalizing s off v with
  | zero => exact hκ
  | succ n ih =>
    unfold regWriteWords
    repeat' (first | with_reducible assumption | with_reducible apply ih | with_reducible apply regWrite_kept | dsimp only | split)

theorem regWriteAny_kept (s : State) (src : Src) (off width v : Nat) (hκ : Kept κ ζ s) : Kept κ ζ (regWriteAny s src off width v) := by
  unfold regWriteAny
  repeat' (first | with_reducible assumption | with_reducible apply regWriteWords_kept | with_reducible apply logDiscard_kept | with_reducible intro _ | dsimp only | with_reducible apply ite_kept | with_reducible apply iteO_kept | split)

theorem unmaskMsix_kept (s : State) (n : Nat) (hκ : Kept κ ζ s) : Kept κ ζ (unmaskMsix s n) := by
  unfold unmaskMsix
  repeat' (first | with_reducible assumption | with_reducible apply toHost_kept | with_reducible intro _ | dsimp only | with_reducible apply ite_kept | with_reducible apply iteO_kept | split)

theorem bar4Word_kept (s : State) (src : Src) (off v : Nat) (hκ : Kept κ ζ s) : Kept κ ζ (bar4Word s src off v) := by
  unfold bar4Word
  repeat' (first | with_reducible assumption | with_reducible apply logDiscard_kept | with_reducible apply unmaskMsix_kept | with_reducible intro _ | dsimp only | with_reducible apply ite_kept | with_reducible apply iteO_kept | split)

theorem bar4Write_kept (s : State) (src : Src) (off width v : Nat) (hκ : Kept κ ζ s) : Kept κ ζ (bar4Write s src off width v) := by
  unfold bar4Write
  repeat' (first | with_reducible assumption | with_reducible apply bar4Word_kept | with_reducible apply logDiscard_kept | with_reducible apply doorbellWrite_kept | with_reducible apply foldl_kept | with_reducible apply foldl_kept1 | with_reducible apply foldl_kept11 | with_reducible intro _ | dsimp only | with_reducible apply ite_kept | with_reducible apply iteO_kept | split)

theorem execRegisterWrite_kept (src : Src) (bar4 : Bool) (off width v : Nat) (s : State) (hκ : Kept κ ζ s) : KeptO κ ζ (execRegisterWrite src bar4 off width v s) := by
  unfold execRegisterWrite
  repeat' (first | with_reducible assumption | with_reducible apply next_kept | with_reducible apply fault_kept | with_reducible apply done_kept | with_reducible apply regWriteAny_kept | with_reducible apply bar4Write_kept | with_reducible apply orWait_kept | with_reducible apply emit_kept | with_reducible intro _ | dsimp only | with_reducible apply ite_kept | with_reducible apply iteO_kept | split)

theorem execCounterLoRead_kept (src : Src) (off : Nat) (s : State) (hκ : Kept κ ζ s) : KeptO κ ζ (execCounterLoRead src off s) := by
  unfold execCounterLoRead
  repeat' (first | with_reducible assumption | with_reducible apply next_kept | with_reducible apply fault_kept | with_reducible apply done_kept | with_reducible apply regRead_kept | with_reducible apply emit_kept | with_reducible intro _ | dsimp only | with_reducible apply ite_kept | with_reducible apply iteO_kept | split)

theorem execCounterHiRead_kept (src : Src) (off : Nat) (s : State) (hκ : Kept κ ζ s) : KeptO κ ζ (execCounterHiRead src off s) := by
  unfold execCounterHiRead
  repeat' (first | with_reducible assumption | with_reducible apply next_kept | with_reducible apply fault_kept | with_reducible apply done_kept | with_reducible apply regRead_kept | with_reducible apply emit_kept | with_reducible intro _ | dsimp only | with_reducible apply ite_kept | with_reducible apply iteO_kept | split)

theorem execCounterPairRead_kept (src : Src) (off : Nat) (s : State) (hκ : Kept κ ζ s) : KeptO κ ζ (execCounterPairRead src off s) := by
  unfold execCounterPairRead
  repeat' (first | with_reducible assumption | with_reducible apply next_kept | with_reducible apply fault_kept | with_reducible apply done_kept | with_reducible apply regRead_kept | with_reducible apply emit_kept | with_reducible intro _ | dsimp only | with_reducible apply ite_kept | with_reducible apply iteO_kept | split)

theorem execRcRead_kept (src : Src) (off : Nat) (s : State) (hκ : Kept κ ζ s) : KeptO κ ζ (execRcRead src off s) := by
  unfold execRcRead
  repeat' (first | with_reducible assumption | with_reducible apply next_kept | with_reducible apply fault_kept | with_reducible apply done_kept | with_reducible apply setReg_kept | with_reducible apply regRead_kept | with_reducible apply emit_kept | with_reducible intro _ | dsimp only | with_reducible apply ite_kept | with_reducible apply iteO_kept | split)

theorem hostRequest_kept (s : State) (src : Src) (tag kind a n : Nat) (data : List Byte) (hκ : Kept κ ζ s) : Kept κ ζ (hostRequest s src tag kind a n data) := by
  unfold hostRequest
  repeat' (first | with_reducible assumption | with_reducible apply withLadle_kept | with_reducible intro _ | dsimp only | with_reducible apply ite_kept | with_reducible apply iteO_kept | split)

theorem hostRead_kept (s : State) (src : Src) (tag a n : Nat) (hκ : Kept κ ζ s) : Kept κ ζ (hostRead s src tag a n) := by
  unfold hostRead
  repeat' (first | with_reducible assumption | with_reducible apply answerHost_kept | with_reducible apply devRead_kept | with_reducible apply hostRequest_kept | with_reducible apply foldl_kept | with_reducible apply foldl_kept1 | with_reducible apply foldl_kept11 | with_reducible intro _ | dsimp only | with_reducible apply ite_kept | with_reducible apply iteO_kept | split)

theorem hostWrite_kept (s : State) (src : Src) (a : Nat) (bs : List Byte) (hκ : Kept κ ζ s) : Kept κ ζ (hostWrite s src a bs) := by
  unfold hostWrite
  repeat' (first | with_reducible assumption | with_reducible apply logDiscard_kept | with_reducible apply devWrite_kept | with_reducible apply hostRequest_kept | with_reducible apply foldl_kept | with_reducible apply foldl_kept1 | with_reducible apply foldl_kept11 | with_reducible intro _ | dsimp only | with_reducible apply ite_kept | with_reducible apply iteO_kept | split)

theorem execBar2Read_kept (off n : Nat) (s : State) (hκ : Kept κ ζ s) : KeptO κ ζ (execBar2Read off n s) := by
  unfold execBar2Read
  repeat' (first | with_reducible assumption | with_reducible apply next_kept | with_reducible apply fault_kept | with_reducible apply done_kept | with_reducible apply hostRead_kept | with_reducible apply orWait_kept | with_reducible apply logDiscard_kept | with_reducible apply emit_kept | with_reducible intro _ | dsimp only | with_reducible apply ite_kept | with_reducible apply iteO_kept | split)

theorem execBar2Write_kept (off : Nat) (data : List (Option Byte)) (s : State) (hκ : Kept κ ζ s) : KeptO κ ζ (execBar2Write off data s) := by
  unfold execBar2Write
  repeat' (first | with_reducible assumption | with_reducible apply next_kept | with_reducible apply fault_kept | with_reducible apply done_kept | with_reducible apply hostWrite_kept | with_reducible apply orWait_kept | with_reducible apply logSrc_kept | with_reducible apply logDiscard_kept | with_reducible apply emit_kept | with_reducible apply foldl_kept | with_reducible apply foldl_kept1 | with_reducible apply foldl_kept11 | with_reducible intro _ | dsimp only | with_reducible apply ite_kept | with_reducible apply iteO_kept | split)

theorem execGlbBar2BaseWrite_kept (src : Src) (v : Word) (s : State) (hκ : Kept κ ζ s) : KeptO κ ζ (execGlbBar2BaseWrite src v s) := by
  unfold execGlbBar2BaseWrite
  repeat' (first | with_reducible assumption | with_reducible apply next_kept | with_reducible apply fault_kept | with_reducible apply done_kept | with_reducible apply plainWrite_kept | with_reducible apply emit_kept | with_reducible intro _ | dsimp only | with_reducible apply ite_kept | with_reducible apply iteO_kept | split)

end Sys2Proof.Machine
end

