-- ==== Sys2Proof/Laws/Kept/Profile.lean ====
section
/-! SUPPORT. What the operations of Machine/Profile.lean keep. -/
set_option linter.all false
set_option simprocs false
namespace Sys2Proof.Machine
variable {κ : List Instr} {ζ : Bool × List Byte × Bool}

theorem unlockRegs_kept (s : State) (hκ : Kept κ ζ s) : Kept κ ζ (unlockRegs s) := by
  unfold unlockRegs
  repeat' (first | with_reducible assumption | with_reducible apply withCup_kept | with_reducible apply setReg_kept | with_reducible apply foldl_kept | with_reducible apply foldl_kept1 | with_reducible apply foldl_kept11 | with_reducible intro _ | dsimp only | with_reducible apply ite_kept | with_reducible apply iteO_kept | split)

theorem movePoint_kept (s : State) (k : Nat) (hκ : Kept κ ζ s) : Kept κ ζ (movePoint s k) := by
  unfold movePoint
  extract_lets
  refine ite_kept hκ ?_
  exact withClock_kept (cntAdd s _ _) _ (cntAdd_kept _ _ _ hκ)

theorem loadLimits_kept (s : State) (b : ImageBytes) (o : Nat) (hκ : Kept κ ζ s) : Kept κ ζ (loadLimits s b o) := by
  unfold loadLimits
  repeat' (first | with_reducible assumption | with_reducible apply movePoint_kept | with_reducible apply setReg_kept | with_reducible intro _ | dsimp only | with_reducible apply ite_kept | with_reducible apply iteO_kept | split)

theorem loadTemplates_kept (s : State) (b : ImageBytes) (o : Nat) (hκ : Kept κ ζ s) : Kept κ ζ (loadTemplates s b o) := by
  unfold loadTemplates
  repeat' (first | with_reducible assumption | with_reducible apply withTnd_kept | with_reducible apply setReg_kept | with_reducible apply foldl_kept | with_reducible apply foldl_kept1 | with_reducible apply foldl_kept11 | with_reducible apply filter_keeps | with_reducible apply filter_spad_keeps | with_reducible intro _ | dsimp only | with_reducible apply ite_kept | with_reducible apply iteO_kept | split)

theorem loadEarly_kept (s : State) (b : ImageBytes) (o : Nat) (hκ : Kept κ ζ s) : Kept κ ζ (loadEarly s b o) := by
  unfold loadEarly
  repeat' (first | with_reducible assumption | with_reducible apply withLadle_kept | with_reducible intro _ | dsimp only | with_reducible apply ite_kept | with_reducible apply iteO_kept | split)

theorem runProgram_kept (s : State) (b : ImageBytes) (o : Nat) (hκ : Kept κ ζ s) : Kept κ ζ (runProgram s b o) := by
  unfold runProgram
  repeat' (first | with_reducible assumption | with_reducible apply regWrite_kept | with_reducible apply foldl_kept | with_reducible apply foldl_kept1 | with_reducible apply foldl_kept11 | with_reducible intro _ | dsimp only | with_reducible apply ite_kept | with_reducible apply iteO_kept | split)

theorem applyCope_kept (s : State) (partner : Bool) (hκ : Kept κ ζ s) : Kept κ ζ (applyCope s partner) := by
  unfold applyCope
  repeat' (first | with_reducible assumption | with_reducible apply setReg_kept | with_reducible apply logUnit_kept | with_reducible apply withInteg_kept | with_reducible intro _ | dsimp only | with_reducible apply ite_kept | with_reducible apply iteO_kept | split)

theorem lockProfile_kept (s : State) (b : ImageBytes) (o : Nat) (partner : Bool) (hκ : Kept κ ζ s) : Kept κ ζ (lockProfile s b o partner) := by
  unfold lockProfile
  repeat' (first | with_reducible assumption | with_reducible apply withCup_kept | with_reducible apply applyCope_kept | with_reducible apply movePoint_kept | with_reducible apply setReg_kept | with_reducible apply withInteg_kept | with_reducible apply foldl_kept | with_reducible apply foldl_kept1 | with_reducible apply foldl_kept11 | with_reducible intro _ | dsimp only | with_reducible apply ite_kept | with_reducible apply iteO_kept | split)

theorem loadProfile_kept (s : State) (ix : Nat) (partner : Bool) (hκ : Kept κ ζ s) : Kept κ ζ (loadProfile s ix partner) := by
  unfold loadProfile
  repeat' (first | with_reducible assumption | with_reducible apply withCup_kept | with_reducible apply loadEarly_kept | with_reducible apply runProgram_kept | with_reducible apply lockProfile_kept | with_reducible apply unlockRegs_kept | with_reducible apply loadLimits_kept | with_reducible apply loadTemplates_kept | with_reducible intro _ | dsimp only | with_reducible apply ite_kept | with_reducible apply iteO_kept | split)

theorem applyProfile_kept (s : State) (ix lost : Nat) (partner : Bool) (hκ : Kept κ ζ s) : Kept κ ζ (applyProfile s ix lost partner).1 := by
  unfold applyProfile
  repeat' (first | with_reducible assumption | with_reducible apply unlockRegs_kept | with_reducible apply logCup_kept | with_reducible apply loadProfile_kept | with_reducible intro _ | dsimp only | with_reducible apply ite_kept | with_reducible apply iteO_kept | split)

theorem release_kept (s : State) (hκ : Kept κ ζ s) : Kept κ ζ (release s) := by
  unfold release
  repeat' (first | with_reducible assumption | with_reducible apply startDrain_kept | with_reducible apply setReg64_kept | with_reducible intro _ | dsimp only | with_reducible apply ite_kept | with_reducible apply iteO_kept | split)

theorem execQuenchComplete_kept (lost : Nat) (partner : Bool) (s : State) (hκ : Kept κ ζ s) : KeptO κ ζ (execQuenchComplete lost partner s) := by
  unfold execQuenchComplete
  repeat' (first | with_reducible assumption | with_reducible apply next_kept | with_reducible apply fault_kept | with_reducible apply done_kept | with_reducible apply logCup_kept | with_reducible apply release_kept | with_reducible apply setReg64_kept | with_reducible apply setReg_kept | with_reducible apply withCup_kept | with_reducible apply applyProfile_kept | with_reducible intro _ | dsimp only | with_reducible apply ite_kept | with_reducible apply iteO_kept | split)

end Sys2Proof.Machine
end

