-- ==== Sys2Proof/Laws/Kept/ColdStart.lean ====
section
/-! SUPPORT. What the operations of Machine/ColdStart.lean keep. -/
set_option linter.all false
set_option simprocs false
namespace Sys2Proof.Machine
variable {κ : List Instr} {ζ : Bool × List Byte × Bool}

theorem withModule_kept (s : State) (m : Module) (hκ : Kept κ ζ s) : Kept κ ζ (State.withModule s m) := by
  unfold State.withModule
  repeat' (first | with_reducible assumption | with_reducible intro _ | dsimp only | with_reducible apply ite_kept | with_reducible apply iteO_kept | split)

/-- The recorder after reset is in order. -/
theorem reset_sound : HeatLog.sound State.reset.hlog := by
  refine ⟨by decide, by decide, by decide, ?_, ?_, by decide, ?_, ?_⟩
  · intro e he
    cases he
  · intro e he
    cases he
  · intro _
    decide
  · intro i hi
    exact absurd hi (Nat.not_lt_zero i)

theorem mainReset_kept (s : State) (hκ : Kept κ ζ s) : Kept κ ζ (mainReset s) :=
  ⟨hκ.1, hκ.2.1, rfl, rfl, reset_sound⟩

theorem railsOff_kept (s : State) (cause : Nat) (hκ : Kept κ ζ s) : Kept κ ζ (railsOff s cause) := by
  unfold railsOff
  repeat' (first | with_reducible assumption | with_reducible apply withModule_kept | with_reducible apply mainReset_kept | with_reducible apply setReg_kept | with_reducible intro _ | dsimp only | with_reducible apply ite_kept | with_reducible apply iteO_kept | split)

theorem latchEvent_kept (s : State) (code : Nat) (data : List Nat) (t : Nat) (hκ : Kept κ ζ s) : Kept κ ζ (latchEvent s code data t) := by
  unfold latchEvent
  repeat' (first | with_reducible assumption | with_reducible apply withModule_kept | with_reducible intro _ | dsimp only | with_reducible apply ite_kept | with_reducible apply iteO_kept | split)

theorem advance_kept (s : State) (n : Nat) (hκ : Kept κ ζ s) : Kept κ ζ (advance s n) := by
  obtain ⟨h1, h2, h3, h4, h0, h5, h6, h7, h8, h9⟩ := hκ
  refine ⟨h1, h2, h3, h4, h0, h5, h6, h7, ?_, h9⟩
  intro e he
  simpa using (List.mem_filter.1 he).2

theorem coldShut_kept (s : State) (cause : Nat) (hκ : Kept κ ζ s) : Kept κ ζ (coldShut s cause) := by
  unfold coldShut
  repeat' (first | with_reducible assumption | with_reducible apply withCup_kept | with_reducible apply logCup_kept | with_reducible intro _ | dsimp only | with_reducible apply ite_kept | with_reducible apply iteO_kept | split)

theorem cacheImage_kept (s : State) (b : ImageBytes) (hκ : Kept κ ζ s) : Kept κ ζ (cacheImage s b) := by
  unfold cacheImage
  repeat' (first | with_reducible assumption | with_reducible apply withCup_kept | with_reducible apply setReg_kept | with_reducible apply foldl_kept | with_reducible apply foldl_kept1 | with_reducible apply foldl_kept11 | with_reducible apply filter_keeps | with_reducible apply filter_spad_keeps | with_reducible intro _ | dsimp only | with_reducible apply ite_kept | with_reducible apply iteO_kept | split)

theorem applySystem_kept (s : State) (b : ImageBytes) (hκ : Kept κ ζ s) : Kept κ ζ (applySystem s b) := by
  unfold applySystem
  repeat' (first | with_reducible assumption | with_reducible apply setReg_kept | with_reducible apply foldl_kept | with_reducible apply foldl_kept1 | with_reducible apply foldl_kept11 | with_reducible intro _ | dsimp only | with_reducible apply ite_kept | with_reducible apply iteO_kept | split)

theorem loadRouting_kept (s : State) (b : ImageBytes) (hκ : Kept κ ζ s) : Kept κ ζ (loadRouting s b) := by
  unfold loadRouting
  repeat' (first | with_reducible assumption | with_reducible apply withSprues_kept | with_reducible apply filter_keeps | with_reducible apply filter_spad_keeps | with_reducible intro _ | dsimp only | with_reducible apply ite_kept | with_reducible apply iteO_kept | split)

theorem checkBanks_kept (s : State) (routes : List (Nat × Nat × Nat)) (hκ : Kept κ ζ s) : Kept κ ζ (checkBanks s routes) := by
  unfold checkBanks
  repeat' (first | with_reducible assumption | with_reducible apply setReg_kept | with_reducible apply logUnit_kept | with_reducible apply foldl_kept | with_reducible apply foldl_kept1 | with_reducible apply foldl_kept11 | with_reducible intro _ | dsimp only | with_reducible apply ite_kept | with_reducible apply iteO_kept | split)

theorem startSprues_kept (s : State) (hκ : Kept κ ζ s) : Kept κ ζ (startSprues s) := by
  unfold startSprues
  repeat' (first | with_reducible assumption | with_reducible apply setLinkState_kept | with_reducible apply foldl_kept | with_reducible apply foldl_kept1 | with_reducible apply foldl_kept11 | with_reducible intro _ | dsimp only | with_reducible apply ite_kept | with_reducible apply iteO_kept | split)

theorem coldTest_kept (failed : List (Nat × Nat × Nat)) (s : State) (p : Nat) (hκ : Kept κ ζ s) : Kept κ ζ (coldTest failed s p) := by
  unfold coldTest
  repeat' (first | with_reducible assumption | with_reducible apply cntAdd_kept | with_reducible apply satAdd_kept | with_reducible apply riskAdd_kept | with_reducible apply setFtl_kept | with_reducible apply logUnit_kept | with_reducible apply setReg64_kept | with_reducible intro _ | dsimp only | with_reducible apply ite_kept | with_reducible apply iteO_kept | split)

theorem coldFettle_kept (s : State) (failed : List (Nat × Nat × Nat)) (hκ : Kept κ ζ s) : Kept κ ζ (coldFettle s failed) := by
  unfold coldFettle
  repeat' (first | with_reducible assumption | with_reducible apply drawNat_kept | with_reducible apply coldTest_kept | with_reducible apply cntAdd_kept | with_reducible apply foldl_kept | with_reducible apply foldl_kept1 | with_reducible apply foldl_kept11 | with_reducible intro _ | dsimp only | with_reducible apply ite_kept | with_reducible apply iteO_kept | split)

theorem coldFinish_kept (s : State) (b : ImageBytes) (c : ColdStart) (hκ : Kept κ ζ s) : Kept κ ζ (coldFinish s b c) := by
  unfold coldFinish
  repeat' (first | with_reducible assumption | with_reducible apply withModule_kept | with_reducible apply hlogPut_kept | with_reducible apply logCup_kept | with_reducible apply setReg_kept | with_reducible apply release_kept | with_reducible apply drawWord_kept | with_reducible apply applyProfile_kept | with_reducible apply coldFettle_kept | with_reducible apply applySystem_kept | with_reducible apply loadRouting_kept | with_reducible apply checkBanks_kept | with_reducible apply startSprues_kept | with_reducible apply foldl_kept | with_reducible apply foldl_kept1 | with_reducible apply foldl_kept11 | with_reducible intro _ | dsimp only | with_reducible apply ite_kept | with_reducible apply iteO_kept | split)

theorem latchStraps_kept (s : State) (c : ColdStart) (hκ : Kept κ ζ s) : Kept κ ζ (latchStraps s c) := by
  unfold latchStraps
  repeat' (first | with_reducible assumption | with_reducible apply setReg_kept | with_reducible apply logCup_kept | with_reducible apply foldl_kept | with_reducible apply foldl_kept1 | with_reducible apply foldl_kept11 | with_reducible apply filter_keeps | with_reducible apply filter_spad_keeps | with_reducible intro _ | dsimp only | with_reducible apply ite_kept | with_reducible apply iteO_kept | split)

theorem coldRun_kept (s : State) (c : ColdStart) (hκ : Kept κ ζ s) : Kept κ ζ (coldRun s c) := by
  unfold coldRun
  repeat' (first | with_reducible assumption | with_reducible apply cacheImage_kept | with_reducible apply coldFinish_kept | with_reducible apply logCup_kept | with_reducible apply withCup_kept | with_reducible apply coldShut_kept | with_reducible intro _ | dsimp only | with_reducible apply ite_kept | with_reducible apply iteO_kept | split)

theorem execColdStart_kept (c : ColdStart) (s : State) (hκ : Kept κ ζ s) : KeptO κ ζ (execColdStart c s) := by
  unfold execColdStart
  repeat' (first | with_reducible assumption | with_reducible apply next_kept | with_reducible apply fault_kept | with_reducible apply done_kept | with_reducible apply coldRun_kept | with_reducible apply latchStraps_kept | with_reducible apply railsOff_kept | with_reducible apply latchEvent_kept | with_reducible apply withModule_kept | with_reducible apply advance_kept | with_reducible apply mainReset_kept | with_reducible intro _ | dsimp only | with_reducible apply ite_kept | with_reducible apply iteO_kept | split)

end Sys2Proof.Machine
end

