-- ==== Sys2Proof/Laws/Kept/Management.lean ====
section
/-! SUPPORT. What the operations of Machine/Management.lean keep. -/
set_option linter.all false
set_option simprocs false
namespace Sys2Proof.Machine
variable {κ : List Instr} {ζ : Bool × List Byte × Bool}

theorem manage_kept (s : State) (src : Src) (ok : Bool) (tag cmd : Nat) (acts : Bool) (run : State → State)
    (hκ : Kept κ ζ s) (hrun : ∀ t, Kept κ ζ t → Kept κ ζ (run t)) : Kept κ ζ (manage s src ok tag cmd acts run) := by
  unfold manage
  repeat' (first | with_reducible assumption | with_reducible apply hrun | with_reducible apply respond_kept | with_reducible apply logDiscard_kept | dsimp only | with_reducible apply ite_kept | split)

theorem status_kept (s : State) (src : Src) (tag cmd n : Nat) (hκ : Kept κ ζ s) : Kept κ ζ (status s src tag cmd n) := by
  unfold status
  repeat' (first | with_reducible assumption | with_reducible apply respond_kept | with_reducible intro _ | dsimp only | with_reducible apply ite_kept | with_reducible apply iteO_kept | split)

theorem refuseMemory_kept (s : State) (src : Src) (tag cmd a n : Nat) (hκ : Kept κ ζ s) : Kept κ ζ (refuseMemory s src tag cmd a n) := by
  unfold refuseMemory
  repeat' (first | with_reducible assumption | with_reducible apply logDiscard_kept | with_reducible apply status_kept | with_reducible intro _ | dsimp only | with_reducible apply ite_kept | with_reducible apply iteO_kept | split)

theorem manageRead_kept (s : State) (src : Src) (tag space width a : Nat) (hκ : Kept κ ζ s) : Kept κ ζ (manageRead s src tag space width a) := by
  unfold manageRead
  repeat' (first | with_reducible assumption | with_reducible apply hostRead_kept | with_reducible apply orWait_kept | with_reducible apply refuseMemory_kept | with_reducible apply respond_kept | with_reducible apply regRead_kept | with_reducible intro _ | dsimp only | with_reducible apply ite_kept | with_reducible apply iteO_kept | split)

theorem execRead_kept (src : Src) (ok : Bool) (tag space width addr : Nat) (s : State) (hκ : Kept κ ζ s) : KeptO κ ζ (execRead src ok tag space width addr s) := by
  unfold execRead
  repeat' (first | with_reducible assumption | with_reducible apply next_kept | with_reducible apply fault_kept | with_reducible apply done_kept | with_reducible apply manageRead_kept | with_reducible apply manage_kept | with_reducible intro _ | dsimp only | with_reducible apply ite_kept | with_reducible apply iteO_kept | split)

theorem writeMemory_kept (s : State) (src : Src) (width a v : Nat) (hκ : Kept κ ζ s) : Kept κ ζ (writeMemory s src width a v).1 := by
  unfold writeMemory
  repeat' (first | with_reducible assumption | with_reducible apply logAccepted_kept | with_reducible apply hostWrite_kept | with_reducible apply logDiscard_kept | with_reducible apply logSrc_kept | with_reducible intro _ | dsimp only | with_reducible apply ite_kept | with_reducible apply iteO_kept | split)

theorem manageWrite_kept (s : State) (src : Src) (tag space width a v : Nat) (hκ : Kept κ ζ s) : Kept κ ζ (manageWrite s src tag space width a v) := by
  unfold manageWrite
  repeat' (first | with_reducible assumption | with_reducible apply orWait_kept | with_reducible apply writeMemory_kept | with_reducible apply refuseMemory_kept | with_reducible apply status_kept | with_reducible apply regWriteAny_kept | with_reducible intro _ | dsimp only | with_reducible apply ite_kept | with_reducible apply iteO_kept | split)

theorem execWrite_kept (src : Src) (ok : Bool) (tag space width addr v : Nat) (s : State) (hκ : Kept κ ζ s) : KeptO κ ζ (execWrite src ok tag space width addr v s) := by
  unfold execWrite
  repeat' (first | with_reducible assumption | with_reducible apply next_kept | with_reducible apply fault_kept | with_reducible apply done_kept | with_reducible apply manageWrite_kept | with_reducible apply manage_kept | with_reducible intro _ | dsimp only | with_reducible apply ite_kept | with_reducible apply iteO_kept | split)

theorem execUnitRead_kept (src : Src) (ok : Bool) (tag u : Nat) (s : State) (hκ : Kept κ ζ s) : KeptO κ ζ (execUnitRead src ok tag u s) := by
  unfold execUnitRead
  repeat' (first | with_reducible assumption | with_reducible apply next_kept | with_reducible apply fault_kept | with_reducible apply done_kept | with_reducible apply respond_kept | with_reducible apply manage_kept | with_reducible intro _ | dsimp only | with_reducible apply ite_kept | with_reducible apply iteO_kept | split)

theorem setUnit_kept (s : State) (u order state : Nat) (hκ : Kept κ ζ s) : Kept κ ζ (setUnit s u order state) := by
  unfold setUnit
  repeat' (first | with_reducible assumption | with_reducible apply withCup_kept | with_reducible intro _ | dsimp only | with_reducible apply ite_kept | with_reducible apply iteO_kept | split)

theorem orderDown_kept (s : State) (src : Src) (h : Nat) (hκ : Kept κ ζ s) : Kept κ ζ (orderDown s src h) := by
  unfold orderDown
  repeat' (first | with_reducible assumption | with_reducible apply setLinkState_kept | with_reducible apply linkDown_kept | with_reducible apply drawNat_kept | with_reducible apply linkEnable_kept | with_reducible intro _ | dsimp only | with_reducible apply ite_kept | with_reducible apply iteO_kept | split)

theorem orderAct_kept (s : State) (src : Src) (u action : Nat) (hκ : Kept κ ζ s) : Kept κ ζ (orderAct s src u action) := by
  unfold orderAct
  repeat' (first | with_reducible assumption | with_reducible apply cutWrite_kept | with_reducible apply linkEnable_kept | with_reducible apply orderDown_kept | with_reducible apply enterRetrain_kept | with_reducible apply grpDisable_kept | with_reducible apply orderMove_kept | with_reducible apply ctxDisable_kept | with_reducible apply ctxUnstop_kept | with_reducible apply ctxStop_kept | with_reducible intro _ | dsimp only | with_reducible apply ite_kept | with_reducible apply iteO_kept | split)

theorem order_kept (s : State) (src : Src) (tag action u : Nat) (hκ : Kept κ ζ s) : Kept κ ζ (order s src tag action u) := by
  unfold order
  repeat' (first | with_reducible assumption | with_reducible apply orderAct_kept | with_reducible apply logSrc_kept | with_reducible apply setUnit_kept | with_reducible apply status_kept | with_reducible intro _ | dsimp only | with_reducible apply ite_kept | with_reducible apply iteO_kept | split)

theorem orderFrame_kept (s : State) (src : Src) (ok : Bool) (tag action u : Nat) (hκ : Kept κ ζ s) : KeptO κ ζ (orderFrame s src ok tag action u) := by
  unfold orderFrame
  repeat' (first | with_reducible assumption | with_reducible apply next_kept | with_reducible apply fault_kept | with_reducible apply done_kept | with_reducible apply order_kept | with_reducible apply manage_kept | with_reducible intro _ | dsimp only | with_reducible apply ite_kept | with_reducible apply iteO_kept | split)

theorem execOrderStop_kept (src : Src) (ok : Bool) (tag u : Nat) (s : State) (hκ : Kept κ ζ s) : KeptO κ ζ (execOrderStop src ok tag u s) := by
  unfold execOrderStop
  repeat' (first | with_reducible assumption | with_reducible apply next_kept | with_reducible apply fault_kept | with_reducible apply done_kept | with_reducible apply orderFrame_kept | with_reducible intro _ | dsimp only | with_reducible apply ite_kept | with_reducible apply iteO_kept | split)

theorem execOrderResume_kept (src : Src) (ok : Bool) (tag u : Nat) (s : State) (hκ : Kept κ ζ s) : KeptO κ ζ (execOrderResume src ok tag u s) := by
  unfold execOrderResume
  repeat' (first | with_reducible assumption | with_reducible apply next_kept | with_reducible apply fault_kept | with_reducible apply done_kept | with_reducible apply orderFrame_kept | with_reducible intro _ | dsimp only | with_reducible apply ite_kept | with_reducible apply iteO_kept | split)

theorem execOrderDisableContext_kept (src : Src) (ok : Bool) (tag u : Nat) (s : State) (hκ : Kept κ ζ s) : KeptO κ ζ (execOrderDisableContext src ok tag u s) := by
  unfold execOrderDisableContext
  repeat' (first | with_reducible assumption | with_reducible apply next_kept | with_reducible apply fault_kept | with_reducible apply done_kept | with_reducible apply orderFrame_kept | with_reducible intro _ | dsimp only | with_reducible apply ite_kept | with_reducible apply iteO_kept | split)

theorem execOrderMove_kept (src : Src) (ok : Bool) (tag u : Nat) (s : State) (hκ : Kept κ ζ s) : KeptO κ ζ (execOrderMove src ok tag u s) := by
  unfold execOrderMove
  repeat' (first | with_reducible assumption | with_reducible apply next_kept | with_reducible apply fault_kept | with_reducible apply done_kept | with_reducible apply orderFrame_kept | with_reducible intro _ | dsimp only | with_reducible apply ite_kept | with_reducible apply iteO_kept | split)

theorem execOrderDisableGroup_kept (src : Src) (ok : Bool) (tag u : Nat) (s : State) (hκ : Kept κ ζ s) : KeptO κ ζ (execOrderDisableGroup src ok tag u s) := by
  unfold execOrderDisableGroup
  repeat' (first | with_reducible assumption | with_reducible apply next_kept | with_reducible apply fault_kept | with_reducible apply done_kept | with_reducible apply orderFrame_kept | with_reducible intro _ | dsimp only | with_reducible apply ite_kept | with_reducible apply iteO_kept | split)

theorem execOrderRetrain_kept (src : Src) (ok : Bool) (tag u : Nat) (s : State) (hκ : Kept κ ζ s) : KeptO κ ζ (execOrderRetrain src ok tag u s) := by
  unfold execOrderRetrain
  repeat' (first | with_reducible assumption | with_reducible apply next_kept | with_reducible apply fault_kept | with_reducible apply done_kept | with_reducible apply orderFrame_kept | with_reducible intro _ | dsimp only | with_reducible apply ite_kept | with_reducible apply iteO_kept | split)

theorem execOrderDown_kept (src : Src) (ok : Bool) (tag u : Nat) (s : State) (hκ : Kept κ ζ s) : KeptO κ ζ (execOrderDown src ok tag u s) := by
  unfold execOrderDown
  repeat' (first | with_reducible assumption | with_reducible apply next_kept | with_reducible apply fault_kept | with_reducible apply done_kept | with_reducible apply orderFrame_kept | with_reducible intro _ | dsimp only | with_reducible apply ite_kept | with_reducible apply iteO_kept | split)

theorem execOrderUp_kept (src : Src) (ok : Bool) (tag u : Nat) (s : State) (hκ : Kept κ ζ s) : KeptO κ ζ (execOrderUp src ok tag u s) := by
  unfold execOrderUp
  repeat' (first | with_reducible assumption | with_reducible apply next_kept | with_reducible apply fault_kept | with_reducible apply done_kept | with_reducible apply orderFrame_kept | with_reducible intro _ | dsimp only | with_reducible apply ite_kept | with_reducible apply iteO_kept | split)

theorem execOrderCut_kept (src : Src) (ok : Bool) (tag u : Nat) (s : State) (hκ : Kept κ ζ s) : KeptO κ ζ (execOrderCut src ok tag u s) := by
  unfold execOrderCut
  repeat' (first | with_reducible assumption | with_reducible apply next_kept | with_reducible apply fault_kept | with_reducible apply done_kept | with_reducible apply orderFrame_kept | with_reducible intro _ | dsimp only | with_reducible apply ite_kept | with_reducible apply iteO_kept | split)

theorem execOrderApply_kept (u : Nat) (s : State) (hκ : Kept κ ζ s) : KeptO κ ζ (execOrderApply u s) := by
  unfold execOrderApply
  repeat' (first | with_reducible assumption | with_reducible apply next_kept | with_reducible apply fault_kept | with_reducible apply done_kept | with_reducible apply orderAct_kept | with_reducible apply logCup_kept | with_reducible apply setUnit_kept | with_reducible apply drawNat_kept | with_reducible intro _ | dsimp only | with_reducible apply ite_kept | with_reducible apply iteO_kept | split)

theorem execImageBegin_kept (src : Src) (ok : Bool) (tag len : Nat) (program : Bool) (s : State) (hκ : Kept κ ζ s) : KeptO κ ζ (execImageBegin src ok tag len program s) := by
  unfold execImageBegin
  repeat' (first | with_reducible assumption | with_reducible apply next_kept | with_reducible apply fault_kept | with_reducible apply done_kept | with_reducible apply withCup_kept | with_reducible apply status_kept | with_reducible apply manage_kept | with_reducible intro _ | dsimp only | with_reducible apply ite_kept | with_reducible apply iteO_kept | split)

theorem execImageData_kept (src : Src) (ok : Bool) (tag off : Nat) (data : List Byte) (s : State) (hκ : Kept κ ζ s) : KeptO κ ζ (execImageData src ok tag off data s) := by
  unfold execImageData
  repeat' (first | with_reducible assumption | with_reducible apply next_kept | with_reducible apply fault_kept | with_reducible apply done_kept | with_reducible apply withCup_kept | with_reducible apply status_kept | with_reducible apply manage_kept | with_reducible intro _ | dsimp only | with_reducible apply ite_kept | with_reducible apply iteO_kept | split)

theorem beginProgram_kept (s : State) (len : Nat) (hκ : Kept κ ζ s) : Kept κ ζ (beginProgram s len) := by
  unfold beginProgram
  repeat' (first | with_reducible assumption | with_reducible apply withCup_kept | with_reducible apply setReg_kept | with_reducible intro _ | dsimp only | with_reducible apply ite_kept | with_reducible apply iteO_kept | split)

theorem imageUse_kept (s : State) (b : ImageBytes) (len : Nat) (program : Bool) (c : ColdStart) (hκ : Kept κ ζ s) : Kept κ ζ (imageUse s b len program c) := by
  unfold imageUse
  repeat' (first | with_reducible assumption | with_reducible apply cacheImage_kept | with_reducible apply advance_kept | with_reducible apply coldFinish_kept | with_reducible apply beginProgram_kept | with_reducible apply coldShut_kept | with_reducible intro _ | dsimp only | with_reducible apply ite_kept | with_reducible apply iteO_kept | split)

theorem imageEnd_kept (s : State) (src : Src) (tag : Nat) (c : ColdStart) (hκ : Kept κ ζ s) : Kept κ ζ (imageEnd s src tag c) := by
  unfold imageEnd
  repeat' (first | with_reducible assumption | with_reducible apply imageUse_kept | with_reducible apply logSrc_kept | with_reducible apply respond_kept | with_reducible apply withCup_kept | with_reducible apply status_kept | with_reducible intro _ | dsimp only | with_reducible apply ite_kept | with_reducible apply iteO_kept | split)

theorem execImageEnd_kept (src : Src) (ok : Bool) (tag : Nat) (c : ColdStart) (s : State) (hκ : Kept κ ζ s) : KeptO κ ζ (execImageEnd src ok tag c s) := by
  unfold execImageEnd
  repeat' (first | with_reducible assumption | with_reducible apply next_kept | with_reducible apply fault_kept | with_reducible apply done_kept | with_reducible apply imageEnd_kept | with_reducible apply manage_kept | with_reducible intro _ | dsimp only | with_reducible apply ite_kept | with_reducible apply iteO_kept | split)

theorem execImageStatus_kept (src : Src) (ok : Bool) (tag : Nat) (s : State) (hκ : Kept κ ζ s) : KeptO κ ζ (execImageStatus src ok tag s) := by
  unfold execImageStatus
  repeat' (first | with_reducible assumption | with_reducible apply next_kept | with_reducible apply fault_kept | with_reducible apply done_kept | with_reducible apply respond_kept | with_reducible apply manage_kept | with_reducible intro _ | dsimp only | with_reducible apply ite_kept | with_reducible apply iteO_kept | split)

/-- FUSE_KEY keeps the fuses once they are programmed. -/
theorem execFuseKey_kept (src : Src) (ok : Bool) (tag : Nat) (hash : List Byte) (require : Bool) (s : State)
    (hκ : Kept κ ζ s) (hz : ζ.1 = true) : KeptO κ ζ (execFuseKey src ok tag hash require s) := by
  have hf : s.cup.fused = true := by
    rw [← hz, ← hκ.2.1]
  unfold execFuseKey
  refine next_kept ?_
  unfold manage
  simp only [hf, Bool.not_true, Bool.and_false, Bool.false_and, Bool.not_false, if_true]
  repeat' (first | with_reducible assumption | with_reducible apply respond_kept | with_reducible apply logDiscard_kept | dsimp only | with_reducible apply ite_kept | split)

/-- FUSE_KEY keeps everything but the fuses. -/
theorem execFuseKey_any (src : Src) (ok : Bool) (tag : Nat) (hash : List Byte) (require : Bool) (s t : State)
    (hκ : Kept κ ζ s) (h : execFuseKey src ok tag hash require s = .next t) : ∃ ζ', Kept κ ζ' t := by
  unfold execFuseKey manage status at h
  injection h with h
  subst h
  have h1 : Kept κ (true, hash, require) (s.withCup { s.cup with fused := true, fuseHash := hash, require := require }) :=
    ⟨hκ.1, rfl, hκ.2.2⟩
  split
  · exact ⟨_, hκ⟩
  · split
    · exact ⟨_, respond_kept _ _ _ _ _ _ hκ⟩
    · split
      · exact ⟨_, respond_kept _ _ _ _ _ _ hκ⟩
      · exact ⟨_, respond_kept _ _ _ _ _ _ h1⟩

theorem execHlogRead_kept (src : Src) (ok : Bool) (tag first count : Nat) (s : State) (hκ : Kept κ ζ s) : KeptO κ ζ (execHlogRead src ok tag first count s) := by
  unfold execHlogRead
  repeat' (first | with_reducible assumption | with_reducible apply next_kept | with_reducible apply fault_kept | with_reducible apply done_kept | with_reducible apply respond_kept | with_reducible apply manage_kept | with_reducible intro _ | dsimp only | with_reducible apply ite_kept | with_reducible apply iteO_kept | split)

theorem execNvmProgramDone_kept (diffs : List (Nat × Byte)) (s : State) (hκ : Kept κ ζ s) : KeptO κ ζ (execNvmProgramDone diffs s) := by
  unfold execNvmProgramDone
  repeat' (first | with_reducible assumption | with_reducible apply next_kept | with_reducible apply fault_kept | with_reducible apply done_kept | with_reducible apply withCup_kept | with_reducible apply setReg_kept | with_reducible apply logCup_kept | with_reducible apply filter_keeps | with_reducible apply filter_spad_keeps | with_reducible intro _ | dsimp only | with_reducible apply ite_kept | with_reducible apply iteO_kept | split)

end Sys2Proof.Machine
end

