-- ==== Sys2Proof/Laws/Kept/Module.lean ====
section
/-! SUPPORT. What the operations of Machine/Module.lean keep. -/
set_option linter.all false
set_option simprocs false
namespace Sys2Proof.Machine
variable {κ : List Instr} {ζ : Bool × List Byte × Bool}

theorem logModule_kept (s : State) (code : Nat) (data : List Nat) (hκ : Kept κ ζ s) : Kept κ ζ (logModule s code data) := by
  unfold logModule
  repeat' (first | with_reducible assumption | with_reducible apply logCup_kept | with_reducible intro _ | dsimp only | with_reducible apply ite_kept | with_reducible apply iteO_kept | split)

theorem auxLost_kept (s : State) (hκ : Kept κ ζ s) : Kept κ ζ (auxLost s) := by
  unfold auxLost
  repeat' (first | with_reducible assumption | with_reducible apply withModule_kept | with_reducible apply withRegs_kept | with_reducible apply mainReset_kept | with_reducible intro _ | dsimp only | with_reducible apply ite_kept | with_reducible apply iteO_kept | split)

theorem underVoltage_kept (s : State) (hκ : Kept κ ζ s) : Kept κ ζ (underVoltage s) := by
  unfold underVoltage
  repeat' (first | with_reducible assumption | with_reducible apply withModule_kept | with_reducible apply railsOff_kept | with_reducible apply latchEvent_kept | with_reducible intro _ | dsimp only | with_reducible apply ite_kept | with_reducible apply iteO_kept | split)

theorem overVoltage_kept (s : State) (mV : Nat) (hκ : Kept κ ζ s) : Kept κ ζ (overVoltage s mV) := by
  unfold overVoltage
  repeat' (first | with_reducible assumption | with_reducible apply withModule_kept | with_reducible apply railsOff_kept | with_reducible apply latchEvent_kept | with_reducible apply setReg64_kept | with_reducible intro _ | dsimp only | with_reducible apply ite_kept | with_reducible apply iteO_kept | split)

theorem noteVoltage_kept (s : State) (mV : Int) (amps : Nat) (hκ : Kept κ ζ s) : Kept κ ζ (noteVoltage s mV amps) := by
  unfold noteVoltage
  repeat' (first | with_reducible assumption | with_reducible apply withModule_kept | with_reducible intro _ | dsimp only | with_reducible apply ite_kept | with_reducible apply iteO_kept | split)

theorem raiseRails_kept (s : State) (hκ : Kept κ ζ s) : Kept κ ζ (raiseRails s) := by
  unfold raiseRails
  repeat' (first | with_reducible assumption | with_reducible apply withModule_kept | with_reducible intro _ | dsimp only | with_reducible apply ite_kept | with_reducible apply iteO_kept | split)

theorem execInputVoltageChange_kept (mV : Int) (amps : Nat) (s : State) (hκ : Kept κ ζ s) : KeptO κ ζ (execInputVoltageChange mV amps s) := by
  unfold execInputVoltageChange
  repeat' (first | with_reducible assumption | with_reducible apply next_kept | with_reducible apply fault_kept | with_reducible apply done_kept | with_reducible apply logModule_kept | with_reducible apply raiseRails_kept | with_reducible apply underVoltage_kept | with_reducible apply auxLost_kept | with_reducible apply overVoltage_kept | with_reducible apply withModule_kept | with_reducible apply noteVoltage_kept | with_reducible intro _ | dsimp only | with_reducible apply ite_kept | with_reducible apply iteO_kept | split)

theorem execOverVoltageReconnect_kept (s : State) (hκ : Kept κ ζ s) : KeptO κ ζ (execOverVoltageReconnect s) := by
  unfold execOverVoltageReconnect
  repeat' (first | with_reducible assumption | with_reducible apply next_kept | with_reducible apply fault_kept | with_reducible apply done_kept | with_reducible apply withModule_kept | with_reducible apply raiseRails_kept | with_reducible intro _ | dsimp only | with_reducible apply ite_kept | with_reducible apply iteO_kept | split)

theorem execMainRailHoldExpiry_kept (s : State) (hκ : Kept κ ζ s) : KeptO κ ζ (execMainRailHoldExpiry s) := by
  unfold execMainRailHoldExpiry
  repeat' (first | with_reducible assumption | with_reducible apply next_kept | with_reducible apply fault_kept | with_reducible apply done_kept | with_reducible apply underVoltage_kept | with_reducible intro _ | dsimp only | with_reducible apply ite_kept | with_reducible apply iteO_kept | split)

theorem execPwrEnAssert_kept (cool : Bool) (s : State) (hκ : Kept κ ζ s) : KeptO κ ζ (execPwrEnAssert cool s) := by
  unfold execPwrEnAssert
  repeat' (first | with_reducible assumption | with_reducible apply next_kept | with_reducible apply fault_kept | with_reducible apply done_kept | with_reducible apply withModule_kept | with_reducible intro _ | dsimp only | with_reducible apply ite_kept | with_reducible apply iteO_kept | split)

theorem execPwrEnDeassert_kept (s : State) (hκ : Kept κ ζ s) : KeptO κ ζ (execPwrEnDeassert s) := by
  unfold execPwrEnDeassert
  repeat' (first | with_reducible assumption | with_reducible apply next_kept | with_reducible apply fault_kept | with_reducible apply done_kept | with_reducible apply withModule_kept | with_reducible apply railsOff_kept | with_reducible intro _ | dsimp only | with_reducible apply ite_kept | with_reducible apply iteO_kept | split)

theorem execModRstNAssert_kept (s : State) (hκ : Kept κ ζ s) : KeptO κ ζ (execModRstNAssert s) := by
  unfold execModRstNAssert
  repeat' (first | with_reducible assumption | with_reducible apply next_kept | with_reducible apply fault_kept | with_reducible apply done_kept | with_reducible apply withModule_kept | with_reducible apply mainReset_kept | with_reducible intro _ | dsimp only | with_reducible apply ite_kept | with_reducible apply iteO_kept | split)

theorem execPerstN_kept (s : State) (hκ : Kept κ ζ s) : KeptO κ ζ (execPerstN s) := by
  unfold execPerstN
  repeat' (first | with_reducible assumption | with_reducible apply next_kept | with_reducible apply fault_kept | with_reducible apply done_kept | with_reducible apply logModule_kept | with_reducible apply drawNat_kept | with_reducible intro _ | dsimp only | with_reducible apply ite_kept | with_reducible apply iteO_kept | split)

theorem execPcieLinkUp_kept (width rate : Nat) (s : State) (hκ : Kept κ ζ s) : KeptO κ ζ (execPcieLinkUp width rate s) := by
  unfold execPcieLinkUp
  repeat' (first | with_reducible assumption | with_reducible apply next_kept | with_reducible apply fault_kept | with_reducible apply done_kept | with_reducible apply logModule_kept | with_reducible apply withModule_kept | with_reducible apply drawNat_kept | with_reducible intro _ | dsimp only | with_reducible apply ite_kept | with_reducible apply iteO_kept | split)

theorem monitorQuench_kept (s : State) (part measured : Nat) (hκ : Kept κ ζ s) : Kept κ ζ (monitorQuench s part measured) := by
  unfold monitorQuench
  repeat' (first | with_reducible assumption | with_reducible apply beginQuench_kept | with_reducible apply railsOff_kept | with_reducible apply latchEvent_kept | with_reducible apply withModule_kept | with_reducible apply cntAdd_kept | with_reducible apply logCup_kept | with_reducible intro _ | dsimp only | with_reducible apply ite_kept | with_reducible apply iteO_kept | split)

theorem execRailFault_kept (rail measured : Nat) (s : State) (hκ : Kept κ ζ s) : KeptO κ ζ (execRailFault rail measured s) := by
  unfold execRailFault
  repeat' (first | with_reducible assumption | with_reducible apply next_kept | with_reducible apply fault_kept | with_reducible apply done_kept | with_reducible apply monitorQuench_kept | with_reducible apply withModule_kept | with_reducible apply withRegs_kept | with_reducible apply filter_keeps | with_reducible apply filter_spad_keeps | with_reducible intro _ | dsimp only | with_reducible apply ite_kept | with_reducible apply iteO_kept | split)

theorem execPllLockLoss_kept (pll : Nat) (s : State) (hκ : Kept κ ζ s) : KeptO κ ζ (execPllLockLoss pll s) := by
  unfold execPllLockLoss
  repeat' (first | with_reducible assumption | with_reducible apply next_kept | with_reducible apply fault_kept | with_reducible apply done_kept | with_reducible apply monitorQuench_kept | with_reducible apply drawNat_kept | with_reducible intro _ | dsimp only | with_reducible apply ite_kept | with_reducible apply iteO_kept | split)

theorem execRefclkFault_kept (cause : Nat) (s : State) (hκ : Kept κ ζ s) : KeptO κ ζ (execRefclkFault cause s) := by
  unfold execRefclkFault
  repeat' (first | with_reducible assumption | with_reducible apply next_kept | with_reducible apply fault_kept | with_reducible apply done_kept | with_reducible apply withModule_kept | with_reducible apply logModule_kept | with_reducible intro _ | dsimp only | with_reducible apply ite_kept | with_reducible apply iteO_kept | split)

theorem execRefclkRestored_kept (s : State) (hκ : Kept κ ζ s) : KeptO κ ζ (execRefclkRestored s) := by
  unfold execRefclkRestored
  repeat' (first | with_reducible assumption | with_reducible apply next_kept | with_reducible apply fault_kept | with_reducible apply done_kept | with_reducible apply withModule_kept | with_reducible apply logModule_kept | with_reducible intro _ | dsimp only | with_reducible apply ite_kept | with_reducible apply iteO_kept | split)

theorem execThermalTrip_kept (sensor temp : Nat) (s : State) (hκ : Kept κ ζ s) : KeptO κ ζ (execThermalTrip sensor temp s) := by
  unfold execThermalTrip
  repeat' (first | with_reducible assumption | with_reducible apply next_kept | with_reducible apply fault_kept | with_reducible apply done_kept | with_reducible apply withModule_kept | with_reducible apply railsOff_kept | with_reducible apply latchEvent_kept | with_reducible intro _ | dsimp only | with_reducible apply ite_kept | with_reducible apply iteO_kept | split)

theorem execStatusPinReadback_kept (low : Nat) (s : State) (hκ : Kept κ ζ s) : KeptO κ ζ (execStatusPinReadback low s) := by
  unfold execStatusPinReadback
  repeat' (first | with_reducible assumption | with_reducible apply next_kept | with_reducible apply fault_kept | with_reducible apply done_kept | with_reducible apply logModule_kept | with_reducible apply withModule_kept | with_reducible apply foldl_kept | with_reducible apply foldl_kept1 | with_reducible apply foldl_kept11 | with_reducible apply filter_keeps | with_reducible apply filter_spad_keeps | with_reducible intro _ | dsimp only | with_reducible apply ite_kept | with_reducible apply iteO_kept | split)

theorem execI3cLineHeldLow_kept (line : Nat) (s : State) (hκ : Kept κ ζ s) : KeptO κ ζ (execI3cLineHeldLow line s) := by
  unfold execI3cLineHeldLow
  repeat' (first | with_reducible assumption | with_reducible apply next_kept | with_reducible apply fault_kept | with_reducible apply done_kept | with_reducible apply withModule_kept | with_reducible apply logModule_kept | with_reducible intro _ | dsimp only | with_reducible apply ite_kept | with_reducible apply iteO_kept | split)

theorem execI3cLinesReleased_kept (s : State) (hκ : Kept κ ζ s) : KeptO κ ζ (execI3cLinesReleased s) := by
  unfold execI3cLinesReleased
  repeat' (first | with_reducible assumption | with_reducible apply next_kept | with_reducible apply fault_kept | with_reducible apply done_kept | with_reducible apply withModule_kept | with_reducible apply logModule_kept | with_reducible intro _ | dsimp only | with_reducible apply ite_kept | with_reducible apply iteO_kept | split)

theorem execJtagInstruction_kept (kind : Nat) (s : State) (hκ : Kept κ ζ s) : KeptO κ ζ (execJtagInstruction kind s) := by
  unfold execJtagInstruction
  repeat' (first | with_reducible assumption | with_reducible apply next_kept | with_reducible apply fault_kept | with_reducible apply done_kept | with_reducible apply logDiscard_kept | with_reducible intro _ | dsimp only | with_reducible apply ite_kept | with_reducible apply iteO_kept | split)

end Sys2Proof.Machine
end

