-- ==== Sys2Proof/Laws/Kept/Tick.lean ====
section
/-! SUPPORT. What the operations of Machine/Tick.lean keep. -/
set_option linter.all false
set_option simprocs false
namespace Sys2Proof.Machine
variable {κ : List Instr} {ζ : Bool × List Byte × Bool}

theorem tickCrucible_kept (s : State) (p : Nat) (hκ : Kept κ ζ s) : Kept κ ζ (tickCrucible s p) := by
  unfold tickCrucible
  repeat' (first | with_reducible assumption | with_reducible apply cntAdd_kept | with_reducible intro _ | dsimp only | with_reducible apply ite_kept | with_reducible apply iteO_kept | split)

theorem tickWaits_kept (s : State) (half0 : Nat) (hκ : Kept κ ζ s) : Kept κ ζ (tickWaits s half0) := by
  unfold tickWaits
  repeat' (first | with_reducible assumption | with_reducible apply cntAdd_kept | with_reducible apply foldl_kept | with_reducible apply foldl_kept1 | with_reducible apply foldl_kept11 | with_reducible intro _ | dsimp only | with_reducible apply ite_kept | with_reducible apply iteO_kept | split)

theorem tickCycle_kept (s : State) (hκ : Kept κ ζ s) : Kept κ ζ (tickCycle s) := by
  unfold tickCycle
  repeat' (first | with_reducible assumption | with_reducible apply cntAdd_kept | with_reducible intro _ | dsimp only | with_reducible apply ite_kept | with_reducible apply iteO_kept | split)

theorem tickBoundary_kept (s : State) (hκ : Kept κ ζ s) : Kept κ ζ (tickBoundary s) := by
  unfold tickBoundary
  repeat' (first | with_reducible assumption | with_reducible apply withMeters_kept | with_reducible intro _ | dsimp only | with_reducible apply ite_kept | with_reducible apply iteO_kept | split)

theorem tickModule_kept (s : State) (hκ : Kept κ ζ s) : Kept κ ζ (tickModule s) := by
  unfold tickModule
  repeat' (first | with_reducible assumption | with_reducible apply cntAdd_kept | with_reducible apply withModule_kept | with_reducible intro _ | dsimp only | with_reducible apply ite_kept | with_reducible apply iteO_kept | split)

theorem tickReady_kept (s : State) (half0 : Nat) (hκ : Kept κ ζ s) : Kept κ ζ (tickReady s half0) := by
  unfold tickReady
  repeat' (first | with_reducible assumption | with_reducible apply homePump_kept | with_reducible apply cntAdd_kept | with_reducible apply tickWaits_kept | with_reducible apply tickCycle_kept | with_reducible apply tickCrucible_kept | with_reducible apply foldl_kept | with_reducible apply foldl_kept1 | with_reducible apply foldl_kept11 | with_reducible intro _ | dsimp only | with_reducible apply ite_kept | with_reducible apply iteO_kept | split)

theorem tick_kept (s : State) (hκ : Kept κ ζ s) : Kept κ ζ (tick s) := by
  unfold tick
  repeat' (first | with_reducible assumption | with_reducible apply tickReady_kept | with_reducible apply tickBoundary_kept | with_reducible apply cntAdd_kept | with_reducible apply withClock_kept | with_reducible apply tickModule_kept | with_reducible intro _ | dsimp only | with_reducible apply ite_kept | with_reducible apply iteO_kept | split)

end Sys2Proof.Machine
end

