-- ==== Sys2Proof/Laws/Kept/Step.lean ====
section
/-! SUPPORT. What a command keeps: the queue behind it, the fuses once programmed, the canonical form of memory,
and the order of the Heat Log. -/
namespace Sys2Proof.Machine
variable {κ : List Instr} {ζ : Bool × List Byte × Bool}

/-- What every command keeps, whichever state it starts from. -/
theorem exec_kept (i : Instr) (s t : State) (hκ : Kept κ ζ s) (hx : exec i s = .next t) :
    ∃ ζ', Kept κ ζ' t ∧ (ζ.1 = true → ζ' = ζ) := by
  cases i with
  | doorbell src off width value => exact ⟨ζ, execDoorbell_kept src off width value s hκ _ hx, fun _ => rfl⟩
  | itemAccept c x q itemParity => exact ⟨ζ, execItemAccept_kept c x q itemParity s hκ _ hx, fun _ => rfl⟩
  | itemComplete c x q idx => exact ⟨ζ, execItemComplete_kept c x q idx s hκ _ hx, fun _ => rfl⟩
  | nop c x q => exact ⟨ζ, execNop_kept c x q s hκ _ hx, fun _ => rfl⟩
  | step c x q => exact ⟨ζ, execStep_kept c x q s hκ _ hx, fun _ => rfl⟩
  | mma c x q => exact ⟨ζ, execMma_kept c x q s hκ _ hx, fun _ => rfl⟩
  | turn c x q err => exact ⟨ζ, execTurn_kept c x q err s hκ _ hx, fun _ => rfl⟩
  | semSignal c x q => exact ⟨ζ, execSemSignal_kept c x q s hκ _ hx, fun _ => rfl⟩
  | semSet c x q => exact ⟨ζ, execSemSet_kept c x q s hκ _ hx, fun _ => rfl⟩
  | semWait c x q => exact ⟨ζ, execSemWait_kept c x q s hκ _ hx, fun _ => rfl⟩
  | semWaitSatisfied c x q => exact ⟨ζ, execSemWaitSatisfied_kept c x q s hκ _ hx, fun _ => rfl⟩
  | semWaitShared c x q => exact ⟨ζ, execSemWaitShared_kept c x q s hκ _ hx, fun _ => rfl⟩
  | ssemWaitSatisfied c x q => exact ⟨ζ, execSsemWaitSatisfied_kept c x q s hκ _ hx, fun _ => rfl⟩
  | lendReturn c => exact ⟨ζ, execLendReturn_kept c s hκ _ hx, fun _ => rfl⟩
  | add c x q err => exact ⟨ζ, execAdd_kept c x q err s hκ _ hx, fun _ => rfl⟩
  | mul c x q err => exact ⟨ζ, execMul_kept c x q err s hκ _ hx, fun _ => rfl⟩
  | fma c x q err => exact ⟨ζ, execFma_kept c x q err s hκ _ hx, fun _ => rfl⟩
  | axpb c x q err => exact ⟨ζ, execAxpb_kept c x q err s hκ _ hx, fun _ => rfl⟩
  | axpby c x q err => exact ⟨ζ, execAxpby_kept c x q err s hκ _ hx, fun _ => rfl⟩
  | max c x q err => exact ⟨ζ, execMax_kept c x q err s hκ _ hx, fun _ => rfl⟩
  | min c x q err => exact ⟨ζ, execMin_kept c x q err s hκ _ hx, fun _ => rfl⟩
  | exp c x q err => exact ⟨ζ, execExp_kept c x q err s hκ _ hx, fun _ => rfl⟩
  | log c x q err => exact ⟨ζ, execLog_kept c x q err s hκ _ hx, fun _ => rfl⟩
  | recip c x q err => exact ⟨ζ, execRecip_kept c x q err s hκ _ hx, fun _ => rfl⟩
  | rsqrt c x q err => exact ⟨ζ, execRsqrt_kept c x q err s hκ _ hx, fun _ => rfl⟩
  | sum c x q err => exact ⟨ζ, execSum_kept c x q err s hκ _ hx, fun _ => rfl⟩
  | sumsq c x q err => exact ⟨ζ, execSumsq_kept c x q err s hκ _ hx, fun _ => rfl⟩
  | amax c x q err => exact ⟨ζ, execAmax_kept c x q err s hκ _ hx, fun _ => rfl⟩
  | cvt c x q err => exact ⟨ζ, execCvt_kept c x q err s hκ _ hx, fun _ => rfl⟩
  | passStart p a stalls waits err => exact ⟨ζ, execPassStart_kept p a stalls waits err s hκ _ hx, fun _ => rfl⟩
  | planeFill p a err => exact ⟨ζ, execPlaneFill_kept p a err s hκ _ hx, fun _ => rfl⟩
  | runnerRefillRequest p a n => exact ⟨ζ, execRunnerRefillRequest_kept p a n s hκ _ hx, fun _ => rfl⟩
  | runnerRefillReturn p a n => exact ⟨ζ, execRunnerRefillReturn_kept p a n s hκ _ hx, fun _ => rfl⟩
  | tileDrain p a err => exact ⟨ζ, execTileDrain_kept p a err s hκ _ hx, fun _ => rfl⟩
  | cruQFlush src c x q wr => exact ⟨ζ, execCruQFlush_kept src c x q wr s hκ _ hx, fun _ => rfl⟩
  | cruQEnable src c x q size => exact ⟨ζ, execCruQEnable_kept src c x q size s hκ _ hx, fun _ => rfl⟩
  | cruQDisable src c x q => exact ⟨ζ, execCruQDisable_kept src c x q s hκ _ hx, fun _ => rfl⟩
  | cruQReset src c x q => exact ⟨ζ, execCruQReset_kept src c x q s hκ _ hx, fun _ => rfl⟩
  | cruQResetAct c x q => exact ⟨ζ, execCruQResetAct_kept c x q s hκ _ hx, fun _ => rfl⟩
  | cruQResume src c x q => exact ⟨ζ, execCruQResume_kept src c x q s hκ _ hx, fun _ => rfl⟩
  | cruQCqHeadWrite src c x q v => exact ⟨ζ, execCruQCqHeadWrite_kept src c x q v s hκ _ hx, fun _ => rfl⟩
  | cruSemWrite src c x sem value => exact ⟨ζ, execCruSemWrite_kept src c x sem value s hκ _ hx, fun _ => rfl⟩
  | copy c x q err => exact ⟨ζ, execCopy_kept c x q err s hκ _ hx, fun _ => rfl⟩
  | copy2d c x q err => exact ⟨ζ, execCopy2d_kept c x q err s hκ _ hx, fun _ => rfl⟩
  | fill c x q err => exact ⟨ζ, execFill_kept c x q err s hκ _ hx, fun _ => rfl⟩
  | convert c x q err => exact ⟨ζ, execConvert_kept c x q err s hκ _ hx, fun _ => rfl⟩
  | gather c x q err => exact ⟨ζ, execGather_kept c x q err s hκ _ hx, fun _ => rfl⟩
  | scatter c x q err => exact ⟨ζ, execScatter_kept c x q err s hκ _ hx, fun _ => rfl⟩
  | spill c x q err => exact ⟨ζ, execSpill_kept c x q err s hκ _ hx, fun _ => rfl⟩
  | fetch c x q err => exact ⟨ζ, execFetch_kept c x q err s hκ _ hx, fun _ => rfl⟩
  | free c x q err => exact ⟨ζ, execFree_kept c x q err s hκ _ hx, fun _ => rfl⟩
  | pin c x q err => exact ⟨ζ, execPin_kept c x q err s hκ _ hx, fun _ => rfl⟩
  | unpin c x q err => exact ⟨ζ, execUnpin_kept c x q err s hκ _ hx, fun _ => rfl⟩
  | kvSpillSweep x => exact ⟨ζ, execKvSpillSweep_kept x s hκ _ hx, fun _ => rfl⟩
  | pageMoveEnd x pg => exact ⟨ζ, execPageMoveEnd_kept x pg s hκ _ hx, fun _ => rfl⟩
  | arm c x q => exact ⟨ζ, execArm_kept c x q s hκ _ hx, fun _ => rfl⟩
  | runaheadCancel c x q => exact ⟨ζ, execRunaheadCancel_kept c x q s hκ _ hx, fun _ => rfl⟩
  | runaheadFetch n => exact ⟨ζ, execRunaheadFetch_kept n s hκ _ hx, fun _ => rfl⟩
  | runaheadLineArrive n addr => exact ⟨ζ, execRunaheadLineArrive_kept n addr s hκ _ hx, fun _ => rfl⟩
  | peekAgeLimit n addr => exact ⟨ζ, execPeekAgeLimit_kept n addr s hκ _ hx, fun _ => rfl⟩
  | ladleRequestIssue id => exact ⟨ζ, execLadleRequestIssue_kept id s hκ _ hx, fun _ => rfl⟩
  | ladleResponse id code detail data => exact ⟨ζ, execLadleResponse_kept id code detail data s hκ _ hx, fun _ => rfl⟩
  | memoryRequest write addr symbols data => exact ⟨ζ, execMemoryRequest_kept write addr symbols data s hκ _ hx, fun _ => rfl⟩
  | scrubUnit addr symbols last => exact ⟨ζ, execScrubUnit_kept addr symbols last s hκ _ hx, fun _ => rfl⟩
  | sweep c x q err => exact ⟨ζ, execSweep_kept c x q err s hκ _ hx, fun _ => rfl⟩
  | lossScaleLoop => exact ⟨ζ, execLossScaleLoop_kept s hκ _ hx, fun _ => rfl⟩
  | stage c x q err => exact ⟨ζ, execStage_kept c x q err s hκ _ hx, fun _ => rfl⟩
  | swcheck c x q err => exact ⟨ζ, execSwcheck_kept c x q err s hκ _ hx, fun _ => rfl⟩
  | atomic c x q err => exact ⟨ζ, execAtomic_kept c x q err s hκ _ hx, fun _ => rfl⟩
  | trigger c x q => exact ⟨ζ, execTrigger_kept c x q s hκ _ hx, fun _ => rfl⟩
  | assaychk c x q err => exact ⟨ζ, execAssaychk_kept c x q err s hκ _ hx, fun _ => rfl⟩
  | prov c x q err => exact ⟨ζ, execProv_kept c x q err s hκ _ hx, fun _ => rfl⟩
  | ldlSwpScaleMaxWrite src v => exact ⟨ζ, execLdlSwpScaleMaxWrite_kept src v s hκ _ hx, fun _ => rfl⟩
  | ldlSlagNfClear src x => exact ⟨ζ, execLdlSlagNfClear_kept src x s hκ _ hx, fun _ => rfl⟩
  | barrier c x q => exact ⟨ζ, execBarrier_kept c x q s hκ _ hx, fun _ => rfl⟩
  | phase c x q => exact ⟨ζ, execPhase_kept c x q s hκ _ hx, fun _ => rfl⟩
  | scalar c x q err => exact ⟨ζ, execScalar_kept c x q err s hκ _ hx, fun _ => rfl⟩
  | reduce c x q err => exact ⟨ζ, execReduce_kept c x q err s hκ _ hx, fun _ => rfl⟩
  | bcast c x q err => exact ⟨ζ, execBcast_kept c x q err s hκ _ hx, fun _ => rfl⟩
  | cancel c x q => exact ⟨ζ, execCancel_kept c x q s hκ _ hx, fun _ => rfl⟩
  | upPacket g seq sender sig aop crit dim fault residue vals => exact ⟨ζ, execUpPacket_kept g seq sender sig aop crit dim fault residue vals s hκ _ hx, fun _ => rfl⟩
  | downPacket g seq sender sig aop crit dim fault vals => exact ⟨ζ, execDownPacket_kept g seq sender sig aop crit dim fault vals s hκ _ hx, fun _ => rfl⟩
  | readyNotice g seq sender sig aop pour stage addr fault => exact ⟨ζ, execReadyNotice_kept g seq sender sig aop pour stage addr fault s hκ _ hx, fun _ => rfl⟩
  | doneNotice g seq sender sig pour stage crit dim fault residue => exact ⟨ζ, execDoneNotice_kept g seq sender sig pour stage crit dim fault residue s hκ _ hx, fun _ => rfl⟩
  | lanePartials g seq sender sig stage crit dim flag fault residue lanes => exact ⟨ζ, execLanePartials_kept g seq sender sig stage crit dim flag fault residue lanes s hκ _ hx, fun _ => rfl⟩
  | bcastChunk g seq sender sig chunk dim data => exact ⟨ζ, execBcastChunk_kept g seq sender sig chunk dim data s hκ _ hx, fun _ => rfl⟩
  | void g seq sender sig => exact ⟨ζ, execVoid_kept g seq sender sig s hκ _ hx, fun _ => rfl⟩
  | alyGrpEnable src g v => exact ⟨ζ, execAlyGrpEnable_kept src g v s hκ _ hx, fun _ => rfl⟩
  | alyGrpDisable src g => exact ⟨ζ, execAlyGrpDisable_kept src g s hκ _ hx, fun _ => rfl⟩
  | alyGrpAbort src g => exact ⟨ζ, execAlyGrpAbort_kept src g s hκ _ hx, fun _ => rfl⟩
  | alyGrpCancel src g => exact ⟨ζ, execAlyGrpCancel_kept src g s hκ _ hx, fun _ => rfl⟩
  | alloyTest => exact ⟨ζ, execAlloyTest_kept s hκ _ hx, fun _ => rfl⟩
  | alloyTestEnd pass => exact ⟨ζ, execAlloyTestEnd_kept pass s hκ _ hx, fun _ => rfl⟩
  | tndCtxEnable src x => exact ⟨ζ, execTndCtxEnable_kept src x s hκ _ hx, fun _ => rfl⟩
  | tndCtxDisable src x => exact ⟨ζ, execTndCtxDisable_kept src x s hκ _ hx, fun _ => rfl⟩
  | tndCtxStop src x => exact ⟨ζ, execTndCtxStop_kept src x s hκ _ hx, fun _ => rfl⟩
  | tndCtxUnstop src x => exact ⟨ζ, execTndCtxUnstop_kept src x s hκ _ hx, fun _ => rfl⟩
  | applyCset src x => exact ⟨ζ, execApplyCset_kept src x s hκ _ hx, fun _ => rfl⟩
  | arbitration c => exact ⟨ζ, execArbitration_kept c s hκ _ hx, fun _ => rfl⟩
  | contextSwitchEnd c => exact ⟨ζ, execContextSwitchEnd_kept c s hκ _ hx, fun _ => rfl⟩
  | quantumExpiry c => exact ⟨ζ, execQuantumExpiry_kept c s hκ _ hx, fun _ => rfl⟩
  | slotGuardOpen slot => exact ⟨ζ, execSlotGuardOpen_kept slot s hκ _ hx, fun _ => rfl⟩
  | slotStart slot ecc => exact ⟨ζ, execSlotStart_kept slot ecc s hκ _ hx, fun _ => rfl⟩
  | slotEnd slot => exact ⟨ζ, execSlotEnd_kept slot s hκ _ hx, fun _ => rfl⟩
  | tndSchedSwap src => exact ⟨ζ, execTndSchedSwap_kept src s hκ _ hx, fun _ => rfl⟩
  | schedSwapApply => exact ⟨ζ, execSchedSwapApply_kept s hκ _ hx, fun _ => rfl⟩
  | tndMoveReq src c => exact ⟨ζ, execTndMoveReq_kept src c s hκ _ hx, fun _ => rfl⟩
  | moveEnd c => exact ⟨ζ, execMoveEnd_kept c s hκ _ hx, fun _ => rfl⟩
  | tndSsemValWrite src sem v => exact ⟨ζ, execTndSsemValWrite_kept src sem v s hκ _ hx, fun _ => rfl⟩
  | tndCtxBtFlip src x b => exact ⟨ζ, execTndCtxBtFlip_kept src x b s hκ _ hx, fun _ => rfl⟩
  | btFlipApply x => exact ⟨ζ, execBtFlipApply_kept x s hκ _ hx, fun _ => rfl⟩
  | sprueBringup h b => exact ⟨ζ, execSprueBringup_kept h b s hκ _ hx, fun _ => rfl⟩
  | bringupRetry h b => exact ⟨ζ, execBringupRetry_kept h b s hκ _ hx, fun _ => rfl⟩
  | flitReceive h ucw csym f ecc => exact ⟨ζ, execFlitReceive_kept h ucw csym f ecc s hκ _ hx, fun _ => rfl⟩
  | nak h seq => exact ⟨ζ, execNak_kept h seq s hκ _ hx, fun _ => rfl⟩
  | linkAck h seq => exact ⟨ζ, execLinkAck_kept h seq s hκ _ hx, fun _ => rfl⟩
  | ackSendTimer h => exact ⟨ζ, execAckSendTimer_kept h s hκ _ hx, fun _ => rfl⟩
  | ackTimeout h => exact ⟨ζ, execAckTimeout_kept h s hκ _ hx, fun _ => rfl⟩
  | retrain h cause lane => exact ⟨ζ, execRetrain_kept h cause lane s hκ _ hx, fun _ => rfl⟩
  | retrainEnd h ok rxFail txFail => exact ⟨ζ, execRetrainEnd_kept h ok rxFail txFail s hκ _ hx, fun _ => rfl⟩
  | linkDown h => exact ⟨ζ, execLinkDown_kept h s hκ _ hx, fun _ => rfl⟩
  | linkSeqQuery h ask last => exact ⟨ζ, execLinkSeqQuery_kept h ask last s hκ _ hx, fun _ => rfl⟩
  | partnerAnswerTimeout h => exact ⟨ζ, execPartnerAnswerTimeout_kept h s hκ _ hx, fun _ => rfl⟩
  | escapeWait h => exact ⟨ζ, execEscapeWait_kept h s hκ _ hx, fun _ => rfl⟩
  | creditReserve h slice req rsp kind cls => exact ⟨ζ, execCreditReserve_kept h slice req rsp kind cls s hκ _ hx, fun _ => rfl⟩
  | lpIdleTimer h => exact ⟨ζ, execLpIdleTimer_kept h s hκ _ hx, fun _ => rfl⟩
  | lpPropose h => exact ⟨ζ, execLpPropose_kept h s hκ _ hx, fun _ => rfl⟩
  | lpAccept h => exact ⟨ζ, execLpAccept_kept h s hκ _ hx, fun _ => rfl⟩
  | lpDecline h => exact ⟨ζ, execLpDecline_kept h s hκ _ hx, fun _ => rfl⟩
  | lpAbort h => exact ⟨ζ, execLpAbort_kept h s hκ _ hx, fun _ => rfl⟩
  | electricalIdleEntry h => exact ⟨ζ, execElectricalIdleEntry_kept h s hκ _ hx, fun _ => rfl⟩
  | lpWake h => exact ⟨ζ, execLpWake_kept h s hκ _ hx, fun _ => rfl⟩
  | lpExitDetect h => exact ⟨ζ, execLpExitDetect_kept h s hκ _ hx, fun _ => rfl⟩
  | sprEnable src h on_ => exact ⟨ζ, execSprEnable_kept src h on_ s hκ _ hx, fun _ => rfl⟩
  | sprRetrain src h => exact ⟨ζ, execSprRetrain_kept src h s hκ _ hx, fun _ => rfl⟩
  | sprFenceChange src link v => exact ⟨ζ, execSprFenceChange_kept src link v s hκ _ hx, fun _ => rfl⟩
  | sprRtCheck src beyond => exact ⟨ζ, execSprRtCheck_kept src beyond s hκ _ hx, fun _ => rfl⟩
  | sprRtDataAccess src write v => exact ⟨ζ, execSprRtDataAccess_kept src write v s hκ _ hx, fun _ => rfl⟩
  | sprTakeover src v => exact ⟨ζ, execSprTakeover_kept src v s hκ _ hx, fun _ => rfl⟩
  | rdS pos off tag slice bank cut => exact ⟨ζ, execRdS_kept pos off tag slice bank cut s hκ _ hx, fun _ => rfl⟩
  | rdX pos off tag slice bank cut => exact ⟨ζ, execRdX_kept pos off tag slice bank cut s hκ _ hx, fun _ => rfl⟩
  | rdOnce pos off tag slice bank cut => exact ⟨ζ, execRdOnce_kept pos off tag slice bank cut s hκ _ hx, fun _ => rfl⟩
  | wr pos off tag slice bank cut data => exact ⟨ζ, execWr_kept pos off tag slice bank cut data s hκ _ hx, fun _ => rfl⟩
  | atCmd pos off tag slice bank cut aop operand compare => exact ⟨ζ, execAtCmd_kept pos off tag slice bank cut aop operand compare s hκ _ hx, fun _ => rfl⟩
  | wb pos off tag slice bank cut data => exact ⟨ζ, execWb_kept pos off tag slice bank cut data s hκ _ hx, fun _ => rfl⟩
  | peek pos off tag slice bank cut => exact ⟨ζ, execPeek_kept pos off tag slice bank cut s hκ _ hx, fun _ => rfl⟩
  | check pos off tag slice bank cut version => exact ⟨ζ, execCheck_kept pos off tag slice bank cut version s hκ _ hx, fun _ => rfl⟩
  | snpInv f line slice bank => exact ⟨ζ, execSnpInv_kept f line slice bank s hκ _ hx, fun _ => rfl⟩
  | snpShr f line slice bank => exact ⟨ζ, execSnpShr_kept f line slice bank s hκ _ hx, fun _ => rfl⟩
  | snpRcl f line slice bank => exact ⟨ζ, execSnpRcl_kept f line slice bank s hκ _ hx, fun _ => rfl⟩
  | data tag version mask data => exact ⟨ζ, execData_kept tag version mask data s hκ _ hx, fun _ => rfl⟩
  | ack reply pos line tag mask data => exact ⟨ζ, execAck_kept reply pos line tag mask data s hκ _ hx, fun _ => rfl⟩
  | ackData pos line data => exact ⟨ζ, execAckData_kept pos line data s hκ _ hx, fun _ => rfl⟩
  | peekMiss tag => exact ⟨ζ, execPeekMiss_kept tag s hκ _ hx, fun _ => rfl⟩
  | checkOk tag => exact ⟨ζ, execCheckOk_kept tag s hκ _ hx, fun _ => rfl⟩
  | checkFail tag => exact ⟨ζ, execCheckFail_kept tag s hκ _ hx, fun _ => rfl⟩
  | refused tag reason => exact ⟨ζ, execRefused_kept tag reason s hκ _ hx, fun _ => rfl⟩
  | done pos line => exact ⟨ζ, execDone_kept pos line s hκ _ hx, fun _ => rfl⟩
  | remoteAccessArrive src slice bank tag kind a n data fmt cut => exact ⟨ζ, execRemoteAccessArrive_kept src slice bank tag kind a n data fmt cut s hκ _ hx, fun _ => rfl⟩
  | triggerPacket src slice bank tag t arg cut => exact ⟨ζ, execTriggerPacket_kept src slice bank tag t arg cut s hκ _ hx, fun _ => rfl⟩
  | remoteRequestTimeout id => exact ⟨ζ, execRemoteRequestTimeout_kept id s hκ _ hx, fun _ => rfl⟩
  | snoopTimeout pos line => exact ⟨ζ, execSnoopTimeout_kept pos line s hκ _ hx, fun _ => rfl⟩
  | flkTrigValid src t v => exact ⟨ζ, execFlkTrigValid_kept src t v s hκ _ hx, fun _ => rfl⟩
  | flkClrDead src => exact ⟨ζ, execFlkClrDead_kept src s hκ _ hx, fun _ => rfl⟩
  | flkWinEn src v => exact ⟨ζ, execFlkWinEn_kept src v s hκ _ hx, fun _ => rfl⟩
  | fettleDue p => exact ⟨ζ, execFettleDue_kept p s hκ _ hx, fun _ => rfl⟩
  | fettleDefer p => exact ⟨ζ, execFettleDefer_kept p s hκ _ hx, fun _ => rfl⟩
  | fettleRetry p => exact ⟨ζ, execFettleRetry_kept p s hκ _ hx, fun _ => rfl⟩
  | fettleDeadline p => exact ⟨ζ, execFettleDeadline_kept p s hκ _ hx, fun _ => rfl⟩
  | fettleTestEnd p pass phase signature => exact ⟨ζ, execFettleTestEnd_kept p pass phase signature s hκ _ hx, fun _ => rfl⟩
  | cupIntCtrlVerify src on_ => exact ⟨ζ, execCupIntCtrlVerify_kept src on_ s hκ _ hx, fun _ => rfl⟩
  | clrChoice src => exact ⟨ζ, execClrChoice_kept src s hκ _ hx, fun _ => rfl⟩
  | cupIntTaintClear src v => exact ⟨ζ, execCupIntTaintClear_kept src v s hκ _ hx, fun _ => rfl⟩
  | digestRecord key digest => exact ⟨ζ, execDigestRecord_kept key digest s hκ _ hx, fun _ => rfl⟩
  | copeUnmatchedTimeout => exact ⟨ζ, execCopeUnmatchedTimeout_kept s hκ _ hx, fun _ => rfl⟩
  | cupIngEnable src v => exact ⟨ζ, execCupIngEnable_kept src v s hκ _ hx, fun _ => rfl⟩
  | cut src => exact ⟨ζ, execCut_kept src s hκ _ hx, fun _ => rfl⟩
  | abandon src => exact ⟨ζ, execAbandon_kept src s hκ _ hx, fun _ => rfl⟩
  | cutTake peers => exact ⟨ζ, execCutTake_kept peers s hκ _ hx, fun _ => rfl⟩
  | chillAnnounce pos => exact ⟨ζ, execChillAnnounce_kept pos s hκ _ hx, fun _ => rfl⟩
  | drainPacket src epoch n addr data => exact ⟨ζ, execDrainPacket_kept src epoch n addr data s hκ _ hx, fun _ => rfl⟩
  | sealRecord src epoch step pages digest => exact ⟨ζ, execSealRecord_kept src epoch step pages digest s hκ _ hx, fun _ => rfl⟩
  | sealed src epoch result => exact ⟨ζ, execSealed_kept src epoch result s hκ _ hx, fun _ => rfl⟩
  | drainRetry => exact ⟨ζ, execDrainRetry_kept s hκ _ hx, fun _ => rfl⟩
  | restore src => exact ⟨ζ, execRestore_kept src s hκ _ hx, fun _ => rfl⟩
  | restoreComplete => exact ⟨ζ, execRestoreComplete_kept s hκ _ hx, fun _ => rfl⟩
  | load src => exact ⟨ζ, execLoad_kept src s hκ _ hx, fun _ => rfl⟩
  | loadComplete fail image pages lines => exact ⟨ζ, execLoadComplete_kept fail image pages lines s hκ _ hx, fun _ => rfl⟩
  | cupQuenchArm src v => exact ⟨ζ, execCupQuenchArm_kept src v s hκ _ hx, fun _ => rfl⟩
  | cupQuenchGo src v => exact ⟨ζ, execCupQuenchGo_kept src v s hκ _ hx, fun _ => rfl⟩
  | shakeoutEnd absent => exact ⟨ζ, execShakeoutEnd_kept absent s hκ _ hx, fun _ => rfl⟩
  | quenchComplete lost partner => exact ⟨ζ, execQuenchComplete_kept lost partner s hκ _ hx, fun _ => rfl⟩
  | coldStart c => exact ⟨ζ, execColdStart_kept c s hκ _ hx, fun _ => rfl⟩
  | supervisionPass p10 tj temps inlet outlet lost => exact ⟨ζ, execSupervisionPass_kept p10 tj temps inlet outlet lost s hκ _ hx, fun _ => rfl⟩
  | rootPointChangeEnd => exact ⟨ζ, execRootPointChangeEnd_kept s hκ _ hx, fun _ => rfl⟩
  | inputOverLimit => exact ⟨ζ, execInputOverLimit_kept s hκ _ hx, fun _ => rfl⟩
  | riskUpdate lanes => exact ⟨ζ, execRiskUpdate_kept lanes s hκ _ hx, fun _ => rfl⟩
  | riskDecay => exact ⟨ζ, execRiskDecay_kept s hκ _ hx, fun _ => rfl⟩
  | cupVfLimitWrite src ceil v => exact ⟨ζ, execCupVfLimitWrite_kept src ceil v s hκ _ hx, fun _ => rfl⟩
  | cupRiskAccWrite src u v => exact ⟨ζ, execCupRiskAccWrite_kept src u v s hκ _ hx, fun _ => rfl⟩
  | read src ok tag space width addr => exact ⟨ζ, execRead_kept src ok tag space width addr s hκ _ hx, fun _ => rfl⟩
  | write src ok tag space width addr v => exact ⟨ζ, execWrite_kept src ok tag space width addr v s hκ _ hx, fun _ => rfl⟩
  | unitRead src ok tag u => exact ⟨ζ, execUnitRead_kept src ok tag u s hκ _ hx, fun _ => rfl⟩
  | orderStop src ok tag u => exact ⟨ζ, execOrderStop_kept src ok tag u s hκ _ hx, fun _ => rfl⟩
  | orderResume src ok tag u => exact ⟨ζ, execOrderResume_kept src ok tag u s hκ _ hx, fun _ => rfl⟩
  | orderDisableContext src ok tag u => exact ⟨ζ, execOrderDisableContext_kept src ok tag u s hκ _ hx, fun _ => rfl⟩
  | orderMove src ok tag u => exact ⟨ζ, execOrderMove_kept src ok tag u s hκ _ hx, fun _ => rfl⟩
  | orderDisableGroup src ok tag u => exact ⟨ζ, execOrderDisableGroup_kept src ok tag u s hκ _ hx, fun _ => rfl⟩
  | orderRetrain src ok tag u => exact ⟨ζ, execOrderRetrain_kept src ok tag u s hκ _ hx, fun _ => rfl⟩
  | orderDown src ok tag u => exact ⟨ζ, execOrderDown_kept src ok tag u s hκ _ hx, fun _ => rfl⟩
  | orderUp src ok tag u => exact ⟨ζ, execOrderUp_kept src ok tag u s hκ _ hx, fun _ => rfl⟩
  | orderCut src ok tag u => exact ⟨ζ, execOrderCut_kept src ok tag u s hκ _ hx, fun _ => rfl⟩
  | orderApply u => exact ⟨ζ, execOrderApply_kept u s hκ _ hx, fun _ => rfl⟩
  | imageBegin src ok tag len program => exact ⟨ζ, execImageBegin_kept src ok tag len program s hκ _ hx, fun _ => rfl⟩
  | imageData src ok tag off data => exact ⟨ζ, execImageData_kept src ok tag off data s hκ _ hx, fun _ => rfl⟩
  | imageEnd src ok tag c => exact ⟨ζ, execImageEnd_kept src ok tag c s hκ _ hx, fun _ => rfl⟩
  | imageStatus src ok tag => exact ⟨ζ, execImageStatus_kept src ok tag s hκ _ hx, fun _ => rfl⟩
  | fuseKey src ok tag hash require =>
    by_cases hz : ζ.1 = true
    · exact ⟨ζ, execFuseKey_kept src ok tag hash require s hκ hz t hx, fun _ => rfl⟩
    · obtain ⟨ζ', h1⟩ := execFuseKey_any src ok tag hash require s t hκ hx
      exact ⟨ζ', h1, fun h2 => absurd h2 hz⟩
  | hlogRead src ok tag first count => exact ⟨ζ, execHlogRead_kept src ok tag first count s hκ _ hx, fun _ => rfl⟩
  | nvmProgramDone diffs => exact ⟨ζ, execNvmProgramDone_kept diffs s hκ _ hx, fun _ => rfl⟩
  | hlogTokenRefill => exact ⟨ζ, execHlogTokenRefill_kept s hκ _ hx, fun _ => rfl⟩
  | hlgClear src => exact ⟨ζ, execHlgClear_kept src s hκ _ hx, fun _ => rfl⟩
  | hlogClearEnd => exact ⟨ζ, execHlogClearEnd_kept s hκ _ hx, fun _ => rfl⟩
  | mtrMapGo src => exact ⟨ζ, execMtrMapGo_kept src s hκ _ hx, fun _ => rfl⟩
  | mtrCloseGo src => exact ⟨ζ, execMtrCloseGo_kept src s hκ _ hx, fun _ => rfl⟩
  | mtrIntervalClose => exact ⟨ζ, execMtrIntervalClose_kept s hκ _ hx, fun _ => rfl⟩
  | mtrAckWrite src v => exact ⟨ζ, execMtrAckWrite_kept src v s hκ _ hx, fun _ => rfl⟩
  | mtrRangeTick => exact ⟨ζ, execMtrRangeTick_kept s hκ _ hx, fun _ => rfl⟩
  | inputVoltageChange mV amps => exact ⟨ζ, execInputVoltageChange_kept mV amps s hκ _ hx, fun _ => rfl⟩
  | overVoltageReconnect => exact ⟨ζ, execOverVoltageReconnect_kept s hκ _ hx, fun _ => rfl⟩
  | pwrEnAssert cool => exact ⟨ζ, execPwrEnAssert_kept cool s hκ _ hx, fun _ => rfl⟩
  | pwrEnDeassert => exact ⟨ζ, execPwrEnDeassert_kept s hκ _ hx, fun _ => rfl⟩
  | modRstNAssert => exact ⟨ζ, execModRstNAssert_kept s hκ _ hx, fun _ => rfl⟩
  | perstN => exact ⟨ζ, execPerstN_kept s hκ _ hx, fun _ => rfl⟩
  | railFault rail measured => exact ⟨ζ, execRailFault_kept rail measured s hκ _ hx, fun _ => rfl⟩
  | pllLockLoss pll => exact ⟨ζ, execPllLockLoss_kept pll s hκ _ hx, fun _ => rfl⟩
  | refclkFault cause => exact ⟨ζ, execRefclkFault_kept cause s hκ _ hx, fun _ => rfl⟩
  | refclkRestored => exact ⟨ζ, execRefclkRestored_kept s hκ _ hx, fun _ => rfl⟩
  | thermalTrip sensor temp => exact ⟨ζ, execThermalTrip_kept sensor temp s hκ _ hx, fun _ => rfl⟩
  | statusPinReadback low => exact ⟨ζ, execStatusPinReadback_kept low s hκ _ hx, fun _ => rfl⟩
  | i3cLineHeldLow line => exact ⟨ζ, execI3cLineHeldLow_kept line s hκ _ hx, fun _ => rfl⟩
  | i3cLinesReleased => exact ⟨ζ, execI3cLinesReleased_kept s hκ _ hx, fun _ => rfl⟩
  | jtagInstruction kind => exact ⟨ζ, execJtagInstruction_kept kind s hκ _ hx, fun _ => rfl⟩
  | counterLoRead src off => exact ⟨ζ, execCounterLoRead_kept src off s hκ _ hx, fun _ => rfl⟩
  | counterHiRead src off => exact ⟨ζ, execCounterHiRead_kept src off s hκ _ hx, fun _ => rfl⟩
  | counterPairRead src off => exact ⟨ζ, execCounterPairRead_kept src off s hκ _ hx, fun _ => rfl⟩
  | rcRead src off => exact ⟨ζ, execRcRead_kept src off s hκ _ hx, fun _ => rfl⟩
  | registerWrite src bar4 off width v => exact ⟨ζ, execRegisterWrite_kept src bar4 off width v s hκ _ hx, fun _ => rfl⟩
  | bar2Read off n => exact ⟨ζ, execBar2Read_kept off n s hκ _ hx, fun _ => rfl⟩
  | bar2Write off data => exact ⟨ζ, execBar2Write_kept off data s hκ _ hx, fun _ => rfl⟩
  | glbBar2BaseWrite src v => exact ⟨ζ, execGlbBar2BaseWrite_kept src v s hκ _ hx, fun _ => rfl⟩
  | mainRailHoldExpiry => exact ⟨ζ, execMainRailHoldExpiry_kept s hκ _ hx, fun _ => rfl⟩
  | pcieLinkUp width rate => exact ⟨ζ, execPcieLinkUp_kept width rate s hκ _ hx, fun _ => rfl⟩

end Sys2Proof.Machine
end

