-- ==== Sys2Proof/Laws/Recorder.lean ====
section
/-! SUPPORT. What recording an event can change: one lemma for each operation of the recorder and of the counters. -/
namespace Sys2Proof.Machine
open Reg

theorem recordsOnly_refl (s : State) : recordsOnly s s := ⟨rfl, fun _ _ => rfl⟩

theorem recordsOnly_trans {s t u : State} (h : recordsOnly s t) (k : recordsOnly t u) : recordsOnly s u := by
  refine ⟨?_, fun o ho => (k.2 o ho).trans (h.2 o ho)⟩
  rw [k.1, h.1]

/-- A register outside the recorder reads as before. -/
theorem recordsOnly_rd {s t : State} (h : recordsOnly s t) (o : Nat) (ho : logReg o = false) : rd t o = rd s o := by
  unfold rd
  rw [h.2 o ho]

theorem reg_setReg_ne (s : State) (off o v : Nat) (h : o ≠ off) : reg (setReg s off v) o = reg s o :=
  spGet_spPut_ne s.regs off o (BitVec.ofNat 32 v) (regReset off) (regReset o) h

/-- A write of a register of the recorder's own. -/
theorem recordsOnly_setReg (s : State) (off v : Nat) (h : logReg off = true) : recordsOnly s (setReg s off v) := by
  refine ⟨rfl, fun o ho => reg_setReg_ne s off o v ?_⟩
  rintro rfl
  rw [h] at ho
  cases ho

theorem recordsOnly_setReg64 (s : State) (off v : Nat) (h : logReg off = true) (h4 : logReg (off + 4) = true) :
    recordsOnly s (setReg64 s off v) :=
  recordsOnly_trans (recordsOnly_setReg s off v h) (recordsOnly_setReg _ (off + 4) _ h4)

theorem recordsOnly_cntAdd (s : State) (off n : Nat) (h : logReg off = true) (h4 : logReg (off + 4) = true) :
    recordsOnly s (cntAdd s off n) := by
  unfold cntAdd
  split
  · exact recordsOnly_refl s
  · exact recordsOnly_setReg64 _ _ _ h h4

theorem recordsOnly_emit (s : State) (o : Out) : recordsOnly s (emit s o) := ⟨rfl, fun _ _ => rfl⟩

/-- A message to the host is an output, or one more write dropped. -/
theorem recordsOnly_toHost (s : State) (o : Out) : recordsOnly s (toHost s o) := by
  unfold toHost
  split
  · exact recordsOnly_emit s o
  · exact recordsOnly_cntAdd s _ _ (by decide) (by decide)

theorem recordsOnly_raiseMsix (s : State) (v : Nat) : recordsOnly s (raiseMsix s v) := by
  unfold raiseMsix
  dsimp only
  split
  · exact ⟨rfl, fun _ _ => rfl⟩
  · exact recordsOnly_toHost s _

theorem recordsOnly_hlog (s : State) (h : HeatLog) : recordsOnly s { s with hlog := h } := ⟨rfl, fun _ _ => rfl⟩

theorem recordsOnly_hlogAlert (s : State) : recordsOnly s (hlogAlert s) := by
  unfold hlogAlert
  dsimp only
  split
  · exact recordsOnly_trans (recordsOnly_trans (recordsOnly_hlog s _) (recordsOnly_raiseMsix _ _)) (recordsOnly_emit _ _)
  · exact recordsOnly_refl s

theorem recordsOnly_hlogWrite (s : State) (e : LogEvent) : recordsOnly s (hlogWrite s e) :=
  recordsOnly_trans (recordsOnly_hlog s _) (recordsOnly_hlogAlert _)

/-- The suppressed count of an event code is a register of the HLG block. -/
theorem suppReg_logReg (code : Nat) (h : code < 4096) : logReg (suppReg code) = true := by
  have h1 : 0x20000 ≤ suppReg code := by
    unfold suppReg HLG_SUPP
    omega
  have h2 : suppReg code < 0x30000 := by
    unfold suppReg HLG_SUPP
    omega
  simp [logReg, h1, h2]

theorem recordsOnly_hlogPresent (s : State) (e : LogEvent) (h : e.code < 4096) : recordsOnly s (hlogPresent s e) := by
  unfold hlogPresent
  dsimp only
  split
  · exact recordsOnly_cntAdd s _ _ (by decide) (by decide)
  · split
    · refine recordsOnly_trans ?_ (recordsOnly_cntAdd _ _ _ (by decide) (by decide))
      exact recordsOnly_trans (recordsOnly_hlog s { s.hlog with
        supp := spPut s.hlog.supp e.code (spGet s.hlog.supp e.code 0 + 1) 0 })
        (recordsOnly_setReg _ _ _ (suppReg_logReg _ h))
    · exact recordsOnly_trans (recordsOnly_hlog s _) (recordsOnly_hlogWrite _ e)

/-- Recording an event. -/
theorem recordsOnly_hlogPut (s : State) (e : LogEvent) (h : e.code < 4096) : recordsOnly s (hlogPut s e) := by
  unfold hlogPut
  split
  · split
    · exact recordsOnly_hlog s _
    · exact recordsOnly_cntAdd s _ _ (by decide) (by decide)
  · exact recordsOnly_hlogPresent s e h

theorem recordsOnly_logUnit (s : State) (code unit : Nat) (data : List Nat) (h : code < 4096) :
    recordsOnly s (logUnit s code unit data) := recordsOnly_hlogPut s _ h

theorem recordsOnly_logCtx (s : State) (code unit ctx step : Nat) (data : List Nat) (h : code < 4096) :
    recordsOnly s (logCtx s code unit ctx step data) := recordsOnly_hlogPut s _ h

theorem recordsOnly_logCup (s : State) (code : Nat) (data : List Nat) (h : code < 4096) :
    recordsOnly s (logCup s code data) := recordsOnly_hlogPut s _ h

theorem recordsOnly_logSrc (s : State) (code : Nat) (src : Src) (data : List Nat) (h : code < 4096) :
    recordsOnly s (logSrc s code src data) := recordsOnly_hlogPut s _ h

/-- A discarded access leaves its event and the model's count of refusals. -/
theorem recordsOnly_logDiscard (s : State) (src : Src) (addr width reason : Nat) :
    recordsOnly s (logDiscard s src addr width reason) :=
  recordsOnly_trans (recordsOnly_hlog s _) (recordsOnly_logSrc _ _ _ _ (by decide))

theorem recordsOnly_logAccepted (s : State) (src : Src) (space addr value : Nat) :
    recordsOnly s (logAccepted s src space addr value) := recordsOnly_logSrc s _ src _ (by decide)

theorem recordsOnly_logAccIf (note : Bool) (s : State) (src : Src) (addr value : Nat) :
    recordsOnly s (logAccIf note s src addr value) := by
  unfold logAccIf
  split
  · exact recordsOnly_logAccepted s src 0 addr value
  · exact recordsOnly_refl s

end Sys2Proof.Machine
end

