-- ==== Sys2Proof/Laws/Registers.lean ====
section
/-! SUPPORT. What pairs, counters and saturating counters read after a write, and a queue's record after an update. -/
namespace Sys2Proof.Machine

theorem rd_setReg (s : State) (off o v : Nat) : rd (setReg s off v) o = if o = off then v % 2 ^ 32 else rd s o := by
  split
  · subst o; exact rd_setReg_same s off v
  · exact rd_setReg_ne s off o v ‹_›

theorem rd_lt (s : State) (o : Nat) : rd s o < 2 ^ 32 := (reg s o).isLt

theorem rd64_lt (s : State) (o : Nat) : rd64 s o < 2 ^ 64 := by
  have := rd_lt s o
  have := rd_lt s (o + 4)
  unfold rd64
  omega

/-- A pair reads the 64-bit number last written. -/
theorem rd64_setReg64_same (s : State) (off v : Nat) : rd64 (setReg64 s off v) off = v % 2 ^ 64 := by
  simp [rd64, setReg64, rd_setReg]
  omega

theorem rd_setReg64_ne (s : State) (off o v : Nat) (h : o ≠ off) (h4 : o ≠ off + 4) : rd (setReg64 s off v) o = rd s o := by
  simp only [setReg64, rd_setReg, if_neg h, if_neg h4]

/-- A counter advances by the number added, as a 64-bit number (R501). -/
theorem rd64_cntAdd_same (s : State) (off n : Nat) : rd64 (cntAdd s off n) off = (rd64 s off + n) % 2 ^ 64 := by
  unfold cntAdd
  split
  · subst n
    have := rd64_lt s off
    omega
  · exact rd64_setReg64_same s off _

theorem rd_cntAdd_ne (s : State) (off o n : Nat) (h : o ≠ off) (h4 : o ≠ off + 4) : rd (cntAdd s off n) o = rd s o := by
  unfold cntAdd
  split
  · rfl
  · exact rd_setReg64_ne s off o _ h h4

/-- A counter changes its own two halves of the registers alone. -/
theorem cntAdd_regs (s : State) (off n : Nat) : cntAdd s off n = s.withRegs (cntAdd s off n).regs := by
  unfold cntAdd
  split <;> rfl

/-- A queue's record after it was set. -/
theorem qOf_setQ_same (s : State) (k : Nat) (q : QState) : qOf (setQ s k q) k = q :=
  spGet_spPut_same s.queues k q QState.init

/-- Another queue's record is as it was. -/
theorem qOf_setQ_ne (s : State) (k j : Nat) (q : QState) (h : j ≠ k) : qOf (setQ s k q) j = qOf s j :=
  spGet_spPut_ne s.queues k j q QState.init QState.init h

/-- A register write leaves the queues' records. -/
theorem qOf_setReg (s : State) (off v k : Nat) : qOf (setReg s off v) k = qOf s k := rfl

/-- A queue's record is no register. -/
theorem rd_setQ (s : State) (k o : Nat) (q : QState) : rd (setQ s k q) o = rd s o := rfl

end Sys2Proof.Machine
end

