-- ==== Sys2Proof/Laws/Scratchpad.lean ====
section
/-! SUPPORT. What a context's scratchpad accesses change: a read at most a counter (R92), a write the bytes and their
owner tags (R93). -/
namespace Sys2Proof.Machine

/-- A fold keeps what each of its steps keeps. -/
theorem foldl_same {f : β → α → β} {g : β → γ} (hf : ∀ b a, g (f b a) = g b) (l : List α) (b : β) :
    g (l.foldl f b) = g b := by
  induction l generalizing b with
  | nil => rfl
  | cons a t ih => rw [List.foldl_cons, ih, hf]

theorem spadReadLine_regs (s : State) (q p x off n : Nat) :
    (spadReadLine s q p x off n).1 = s.withRegs (spadReadLine s q p x off n).1.regs := by
  unfold spadReadLine
  split
  · rfl
  · exact cntAdd_regs s _ 1

/-- A scratchpad read changes registers alone: the crucible's count of foreign reads. -/
theorem spadRead_regs (s : State) (q p x off n : Nat) :
    (spadRead s q p x off n).1 = s.withRegs (spadRead s q p x off n).1.regs := by
  have h : (spadRead s q p x off n).1.withRegs [] = s.withRegs [] :=
    foldl_same (g := fun (st : State × List Byte) => st.1.withRegs [])
      (fun st e => by
        show (spadReadLine st.1 q p x e.1 e.2).1.withRegs [] = _
        rw [spadReadLine_regs]
        rfl) _ _
  have := congrArg (fun t => State.withRegs t (spadRead s q p x off n).1.regs) h
  exact this

/-- A scratchpad write changes scratchpad bytes and owner tags alone. -/
theorem spadWrite_spad (s : State) (p x off : Nat) (bs : List Byte) :
    spadWrite s p x off bs = { s with spad := (spadWrite s p x off bs).spad, tags := (spadWrite s p x off bs).tags } := by
  have h : ({ spadWrite s p x off bs with spad := [], tags := [] } : State) = { s with spad := [], tags := [] } :=
    foldl_same (g := fun (st : State) => ({ st with spad := [], tags := [] } : State))
      (fun st e => by
        show ({ spadWriteLine st p x e.1 e.2 with spad := [], tags := [] } : State) = _
        unfold spadWriteLine
        dsimp only
        split <;> rfl) _ _
  have := congrArg (fun t : State => ({ t with spad := (spadWrite s p x off bs).spad, tags := (spadWrite s p x off bs).tags } : State)) h
  exact this

end Sys2Proof.Machine
end

