-- ==== Sys2Proof/Laws/Waits.lean ====
section
/-! SUPPORT. What a command that may have to wait answers: its effect where nothing of it waits, otherwise the state as
it was with the wait noted (log entry 6). -/
namespace Sys2Proof.Machine

/-- A command none of whose effect waits has that effect. -/
theorem orWait_calm (s t : State) (h : t.calm) : orWait s t = t := by
  obtain ⟨h1, h2, h3⟩ := h
  simp [orWait, h1, h2, h3]

/-- A command that a cut holds leaves the state as it was, but for the note that something waits for the cut. -/
theorem orWait_blocked (s t : State) (h : t.ingot.blocked = true) :
    orWait s t = s.withIngot { s.ingot with waiting := true } := by
  simp [orWait, h]

/-- Recording an event opens no wait. -/
theorem recordsOnly_calm {s t : State} (h : recordsOnly s t) (hs : s.calm) : t.calm := by
  obtain ⟨h1, -⟩ := h
  rw [h1]
  exact hs

/-- A register write opens no wait. -/
theorem calm_setReg {s : State} (off v : Nat) (hs : s.calm) : (setReg s off v).calm := hs

/-- A queue update opens no wait. -/
theorem calm_setQ {s : State} (k : Nat) (q : QState) (hs : s.calm) : (setQ s k q).calm := hs

end Sys2Proof.Machine
end

