-- ==== Sys2Proof/Laws/Tiers.lean ====
section
/-! SUPPORT. What a tier controller's accesses change: a write its bytes and the unit's poison, a read no byte at all
(R184, R185). -/
namespace Sys2Proof.Machine

/-- A counter is a register. -/
theorem count_keeps_mem (s : State) (o n : Nat) : (cntAdd s o n).mem = s.mem := by
  rw [cntAdd_regs]
  rfl

theorem cntAdd_poison (s : State) (o n : Nat) : (cntAdd s o n).poison = s.poison := by
  rw [cntAdd_regs]
  rfl

theorem calm_cntAdd {s : State} (o n : Nat) (h : s.calm) : (cntAdd s o n).calm := by
  rw [cntAdd_regs]
  exact h

theorem calm_withMem {s : State} (m : List Host.Cell) (h : s.calm) : (s.withMem m).calm := h

theorem setPoison_mem (s : State) (a : Nat) (p : Bool) : (setPoison s a p).mem = s.mem := rfl

theorem calm_setPoison {s : State} (a : Nat) (p : Bool) (h : s.calm) : (setPoison s a p).calm := h

theorem isPoisoned_setPoison (s : State) (a : Nat) (p : Bool) : isPoisoned (setPoison s a p) a = p := by
  unfold isPoisoned setPoison
  dsimp only
  rw [spGet_spPut_same]
  cases p <;> rfl

/-- Recording an event changes no byte of memory. -/
theorem recordsOnly_mem {s t : State} (h : recordsOnly s t) : t.mem = s.mem := by rw [h.1]

theorem riskAdd_mem (s : State) (p n : Nat) : (riskAdd s p n).mem = s.mem := rfl

/-- An uncorrectable unit is counted and recorded, and no byte changes. -/
theorem tierUe_mem (s : State) (r : Reader) (a : Nat) : (tierUe s r a).mem = s.mem := by
  unfold tierUe
  dsimp only
  split <;> rw [recordsOnly_mem (recordsOnly_logUnit _ _ _ _ (by decide)), riskAdd_mem] <;> exact count_keeps_mem _ _ _

/-- A corrected unit is counted and recorded, and no byte changes. -/
theorem tierCe_mem (s : State) (a n : Nat) : (tierCe s a n).mem = s.mem := by
  unfold tierCe
  dsimp only
  split <;> rw [recordsOnly_mem (recordsOnly_logUnit _ _ _ _ (by decide)), riskAdd_mem] <;> exact count_keeps_mem _ _ _

/-- A write of a whole unit. -/
theorem tierWrite_whole (s : State) (r : Reader) (a : Nat) (bs : List Byte) (h : bs.length = 64) : tierWrite s r a bs =
    (setPoison ((cntAdd s (tierGroup a + 0x28) 1).withMem (putBytes s.mem a bs)) a false, 0) := by
  unfold tierWrite
  rw [if_pos h]

/-- A write within a unit that is not poisoned, which reads the unit first. -/
theorem tierWrite_part (s : State) (r : Reader) (a : Nat) (bs : List Byte) (h : ¬ bs.length = 64)
    (hp : isPoisoned s a = false) : tierWrite s r a bs =
    ((cntAdd (cntAdd s (tierGroup a + 0x28) 1) (tierGroup a + 0x20) 1).withMem (putBytes s.mem a bs), 0) := by
  unfold tierWrite
  rw [if_neg h]
  dsimp only
  rw [if_neg (by simp [hp])]

/-- A write of a whole unit, or within a unit that is not poisoned, puts its bytes, leaves the unit clean and opens no
wait. -/
theorem tierWrite_clean (s : State) (r : Reader) (a : Nat) (bs : List Byte) (hc : s.calm)
    (h : isPoisoned s a = false ∨ bs.length = 64) :
    (tierWrite s r a bs).1.mem = putBytes s.mem a bs ∧ isPoisoned (tierWrite s r a bs).1 a = false ∧
      (tierWrite s r a bs).1.calm := by
  by_cases h64 : bs.length = 64
  · rw [tierWrite_whole s r a bs h64]
    generalize hu : cntAdd s (tierGroup a + 0x28) 1 = u
    have hcu : u.calm := hu ▸ calm_cntAdd _ _ hc
    exact ⟨rfl, isPoisoned_setPoison _ _ _, hcu⟩
  · have hs : isPoisoned s a = false := h.resolve_right h64
    rw [tierWrite_part s r a bs h64 hs]
    generalize hu : cntAdd (cntAdd s (tierGroup a + 0x28) 1) (tierGroup a + 0x20) 1 = u
    have hcu : u.calm := hu ▸ calm_cntAdd _ _ (calm_cntAdd _ _ hc)
    refine ⟨rfl, ?_, hcu⟩
    have hp : u.poison = s.poison := by rw [← hu, cntAdd_poison, cntAdd_poison]
    unfold isPoisoned at hs ⊢
    rw [State.withMem_poison, hp]
    exact hs

/-- Dropping run-ahead lines changes their buffers and registers alone. -/
theorem raInvalidate_frame (s : State) (a : Nat) :
    raInvalidate s a = { s with ladle := (raInvalidate s a).ladle, regs := (raInvalidate s a).regs } := by
  unfold raInvalidate
  dsimp only
  split
  · rfl
  · rw [cntAdd_regs]
    rfl

end Sys2Proof.Machine
end

