-- ==== Sys2Proof/WellFormed.lean ====
section
/-! DEFINITION. When a command is well formed: its operands name parts that the device has (Table 0.1, R94, R457). A command
that is not well formed names nothing; the meanings are total on it all the same. -/
namespace Sys2Proof

/-- A logical crucible. -/
def cruOk (n : Nat) : Bool := decide (n < 256)
/-- A context. -/
def ctxOk (n : Nat) : Bool := decide (n < 16)
/-- A queue of a context. -/
def queueOk (n : Nat) : Bool := decide (n < 8)
/-- A physical crucible, spares included. -/
def physOk (n : Nat) : Bool := decide (n < 264)
/-- An array of a crucible. -/
def arrayOk (n : Nat) : Bool := decide (n < 8)
/-- A sprue half, 2s + h. -/
def linkOk (n : Nat) : Bool := decide (n < 36)
/-- A collective group. -/
def groupOk (n : Nat) : Bool := decide (n < 256)
/-- A schedule slot. -/
def slotOk (n : Nat) : Bool := decide (n < 256)
/-- A slice tag. -/
def sliceOk (n : Nat) : Bool := decide (n < 16)
/-- A phase bank. -/
def bankOk (n : Nat) : Bool := decide (n < 4)
/-- A flask position, the spare among them. -/
def posOk (n : Nat) : Bool := decide (n < 9)
/-- A run-ahead stream. -/
def streamOk (n : Nat) : Bool := decide (n < 64)
/-- A crucible semaphore of a context. -/
def semOk (n : Nat) : Bool := decide (n < 64)
/-- A shared semaphore. -/
def sharedOk (n : Nat) : Bool := decide (n < 1024)
/-- A buffer of the batch table. -/
def bufferOk (n : Nat) : Bool := decide (n < 2)
/-- A trigger slot. -/
def trigOk (n : Nat) : Bool := decide (n < 256)
/-- A unit of R457. -/
def unitOk (n : Nat) : Bool := decide (n < 565)
/-- A part of R453. -/
def partOk (n : Nat) : Bool := decide (n < 300)
/-- The width of an access in bytes (R500). -/
def widthOk (n : Nat) : Bool := [1, 2, 4, 8].contains n

/-- Well-formed commands. -/
def Instr.wellFormed (i : Instr) : Bool :=
  match i with
  | .doorbell _ _ width _ | .read _ _ _ _ width _ | .write _ _ _ _ width _ _ | .registerWrite _ _ _ width _ => widthOk width
  | .itemAccept c x q _ | .itemComplete c x q _ | .nop c x q | .step c x q | .mma c x q | .turn c x q _
  | .semSignal c x q | .semSet c x q | .semWait c x q | .semWaitSatisfied c x q | .semWaitShared c x q
  | .ssemWaitSatisfied c x q | .add c x q _ | .mul c x q _ | .fma c x q _ | .axpb c x q _ | .axpby c x q _
  | .max c x q _ | .min c x q _ | .exp c x q _ | .log c x q _ | .recip c x q _ | .rsqrt c x q _ | .sum c x q _
  | .sumsq c x q _ | .amax c x q _ | .cvt c x q _ | .cruQFlush _ c x q _ | .cruQEnable _ c x q _
  | .cruQDisable _ c x q | .cruQReset _ c x q | .cruQResetAct c x q | .cruQResume _ c x q
  | .cruQCqHeadWrite _ c x q _ | .copy c x q _ | .copy2d c x q _ | .fill c x q _ | .convert c x q _
  | .gather c x q _ | .scatter c x q _ | .spill c x q _ | .fetch c x q _ | .free c x q _ | .pin c x q _
  | .unpin c x q _ | .arm c x q | .runaheadCancel c x q | .sweep c x q _ | .stage c x q _ | .swcheck c x q _
  | .atomic c x q _ | .trigger c x q | .assaychk c x q _ | .prov c x q _ | .barrier c x q | .phase c x q
  | .scalar c x q _ | .reduce c x q _ | .bcast c x q _ | .cancel c x q => cruOk c && ctxOk x && queueOk q
  | .lendReturn c | .arbitration c | .contextSwitchEnd c | .quantumExpiry c | .tndMoveReq _ c | .moveEnd c => cruOk c
  | .passStart p a _ _ _ | .planeFill p a _ | .runnerRefillRequest p a _ | .runnerRefillReturn p a _
  | .tileDrain p a _ => physOk p && arrayOk a
  | .cruSemWrite _ c x sem _ => cruOk c && ctxOk x && semOk sem
  | .kvSpillSweep x | .pageMoveEnd x _ | .ldlSlagNfClear _ x | .tndCtxEnable _ x | .tndCtxDisable _ x
  | .tndCtxStop _ x | .tndCtxUnstop _ x | .applyCset _ x | .btFlipApply x => ctxOk x
  | .runaheadFetch n | .runaheadLineArrive n _ | .peekAgeLimit n _ => streamOk n
  | .ladleRequestIssue _ | .ladleResponse _ _ _ _ | .memoryRequest _ _ _ _ | .scrubUnit _ _ _ | .lossScaleLoop
  | .ldlSwpScaleMaxWrite _ _ | .alloyTest | .alloyTestEnd _ | .tndSchedSwap _ | .schedSwapApply
  | .sprFenceChange _ _ _ | .sprRtCheck _ _ | .sprRtDataAccess _ _ _ | .sprTakeover _ _ | .data _ _ _ _
  | .peekMiss _ | .checkOk _ | .checkFail _ | .refused _ _ | .remoteRequestTimeout _ | .flkClrDead _
  | .flkWinEn _ _ | .cupIntCtrlVerify _ _ | .clrChoice _ | .cupIntTaintClear _ _ | .digestRecord _ _
  | .copeUnmatchedTimeout | .cupIngEnable _ _ | .cut _ | .abandon _ | .cutTake _ | .drainPacket _ _ _ _ _
  | .sealRecord _ _ _ _ _ | .sealed _ _ _ | .drainRetry | .restore _ | .restoreComplete | .load _
  | .loadComplete _ _ _ _ | .cupQuenchArm _ _ | .cupQuenchGo _ _ | .shakeoutEnd _ | .quenchComplete _ _
  | .coldStart _ | .supervisionPass _ _ _ _ _ _ | .rootPointChangeEnd | .inputOverLimit | .riskUpdate _
  | .riskDecay | .cupVfLimitWrite _ _ _ | .imageBegin _ _ _ _ _ | .imageData _ _ _ _ _ | .imageEnd _ _ _ _
  | .imageStatus _ _ _ | .fuseKey _ _ _ _ _ | .hlogRead _ _ _ _ _ | .nvmProgramDone _ | .hlogTokenRefill
  | .hlgClear _ | .hlogClearEnd | .mtrMapGo _ | .mtrCloseGo _ | .mtrIntervalClose | .mtrAckWrite _ _
  | .mtrRangeTick | .inputVoltageChange _ _ | .overVoltageReconnect | .pwrEnAssert _ | .pwrEnDeassert
  | .modRstNAssert | .perstN | .railFault _ _ | .pllLockLoss _ | .refclkFault _ | .refclkRestored
  | .thermalTrip _ _ | .statusPinReadback _ | .i3cLineHeldLow _ | .i3cLinesReleased | .jtagInstruction _
  | .counterLoRead _ _ | .counterHiRead _ _ | .counterPairRead _ _ | .rcRead _ _ | .bar2Read _ _ | .bar2Write _ _
  | .glbBar2BaseWrite _ _ | .mainRailHoldExpiry | .pcieLinkUp _ _ => true
  | .upPacket g _ _ _ _ _ _ _ _ _ | .downPacket g _ _ _ _ _ _ _ _ | .readyNotice g _ _ _ _ _ _ _ _
  | .doneNotice g _ _ _ _ _ _ _ _ _ | .lanePartials g _ _ _ _ _ _ _ _ _ _ | .bcastChunk g _ _ _ _ _ _
  | .void g _ _ _ | .alyGrpEnable _ g _ | .alyGrpDisable _ g | .alyGrpAbort _ g | .alyGrpCancel _ g => groupOk g
  | .slotGuardOpen slot | .slotStart slot _ | .slotEnd slot => slotOk slot
  | .tndSsemValWrite _ sem _ => sharedOk sem
  | .tndCtxBtFlip _ x b => ctxOk x && bufferOk b
  | .sprueBringup h _ | .bringupRetry h _ | .flitReceive h _ _ _ _ | .nak h _ | .linkAck h _ | .ackSendTimer h
  | .ackTimeout h | .retrain h _ _ | .retrainEnd h _ _ _ | .linkDown h | .linkSeqQuery h _ _
  | .partnerAnswerTimeout h | .escapeWait h | .lpIdleTimer h | .lpPropose h | .lpAccept h | .lpDecline h
  | .lpAbort h | .electricalIdleEntry h | .lpWake h | .lpExitDetect h | .sprEnable _ h _ | .sprRetrain _ h => linkOk h
  | .creditReserve h slice _ _ _ _ => linkOk h && sliceOk slice
  | .rdS pos _ _ slice bank _ | .rdX pos _ _ slice bank _ | .rdOnce pos _ _ slice bank _
  | .wr pos _ _ slice bank _ _ | .atCmd pos _ _ slice bank _ _ _ _ | .wb pos _ _ slice bank _ _
  | .peek pos _ _ slice bank _ | .check pos _ _ slice bank _ _ => posOk pos && sliceOk slice && bankOk bank
  | .snpInv f _ slice bank | .snpShr f _ slice bank | .snpRcl f _ slice bank => posOk f && sliceOk slice && bankOk bank
  | .ack _ pos _ _ _ _ | .ackData pos _ _ | .done pos _ | .snoopTimeout pos _ | .chillAnnounce pos => posOk pos
  | .remoteAccessArrive _ slice bank _ _ _ _ _ _ _ => sliceOk slice && bankOk bank
  | .triggerPacket _ slice bank _ t _ _ => sliceOk slice && bankOk bank && trigOk t
  | .flkTrigValid _ t _ => trigOk t
  | .fettleDue p | .fettleDefer p | .fettleRetry p | .fettleDeadline p | .fettleTestEnd p _ _ _ => physOk p
  | .cupRiskAccWrite _ u _ => partOk u
  | .unitRead _ _ _ u | .orderStop _ _ _ u | .orderResume _ _ _ u | .orderDisableContext _ _ _ u
  | .orderMove _ _ _ u | .orderDisableGroup _ _ _ u | .orderRetrain _ _ _ u | .orderDown _ _ _ u
  | .orderUp _ _ _ u | .orderCut _ _ _ u | .orderApply u => unitOk u

end Sys2Proof
end

