-- ==== Sys2Proof/Tests/Slice0.lean ====
section
/-! SUPPORT. Tests: an ill-formed command for each check of WellFormed, small steps whose results are worked out from the
specification by hand, and for each statement with hypotheses a state and operands that meet them, clause by clause. -/
namespace Sys2Proof.Tests
open Sys2Proof Sys2Proof.Machine Sys2Proof.Machine.Reg
set_option Elab.async false

/-- A ready device, otherwise as after reset. -/
def up : State := { State.reset with mode := .ready }
/-- The state with registers written. -/
def put (s : State) (l : List (Nat × Nat)) : State := l.foldl (fun st e => setReg st e.1 e.2) s
/-- The state with words of memory written. -/
def words (s : State) (a : Nat) (l : List Nat) : State := s.withMem (putBytes s.mem a (l.flatMap (leBytes 4)))
/-- A ready device whose first queue is enabled with its least ring. -/
def queueUp : State := put up [(qReg 0 0, 1)]
/-- An item of words, accepted at index 0 on crucible 0. -/
def itemOf (ws : List Nat) : Item :=
  ⟨ws.map (BitVec.ofNat 32), 0, 0, 0, 0, .accepted, 0, 0, true, [], none, false, (0, 0), 0⟩
/-- A ready device with one accepted item in its first queue, whose context is active and resident. -/
def itemUp (i : Item) : State :=
  setCru (setQ (queueUp.withTnd { queueUp.tnd with states := [(0, 1)] }) 0 { QState.init with openCmd := true, items := [i] }) 0
    { cruOf queueUp 0 with resident := some 0 }

/-- `State.calm` as a test. -/
def calmB (s : State) : Bool := !s.ingot.blocked && !s.ingot.waiting && s.flask.need.isEmpty
theorem calmB_iff (s : State) : calmB s = true ↔ s.calm := by
  simp [calmB, State.calm, and_assoc]

/-- FP32 values. -/
def fp32s (l : List Nat) : List Fp := l.map (fun w => fp32 (BitVec.ofNat 32 w))
/-- The worked KF4 block of chapter 1: scale 0.4375 (0x1F7) and codes 0111, 0010, 1101, 0000. -/
theorem test_kf4_worked_block :
    (let r := convBlock .kf4 ⟨none, false, true⟩ (fun _ => .rne)
      (fp32s ([0x4019999A, 0x3EBD70A4, 0xBF8CCCCD, 0x3D4CCCCD] ++ List.replicate 28 0))
     (r.1, r.2.1.take 4)) = (0x1F7, [7, 2, 13, 0]) := by decide +kernel
/-- The same block in MXFP4 takes the scale 0.5, under which 2.4 becomes 2.0 (code 0110, 4 × 0.5). -/
theorem test_mxfp4_worked_block :
    (let r := convBlock .mxfp4 ⟨none, false, true⟩ (fun _ => .rne)
      (fp32s ([0x4019999A, 0x3EBD70A4, 0xBF8CCCCD, 0x3D4CCCCD] ++ List.replicate 28 0))
     (r.1, r.2.1.head?)) = (0x7E, some 6) := by decide +kernel
/-- The worked stochastic rounding of 300.0 to E4M3: 320 when r < 24,576, else 288; 288 (0x79) to nearest even. -/
theorem test_e4m3_stochastic : ([.stochastic 24575, .stochastic 24576, .rne] : List Rounding).map (fun m =>
    (convScalar fmtE4m3 true m (fp32 0x43960000#32)).1) = [0x7A, 0x79, 0x79] := by decide +kernel
/-- The worked accumulation: 2^20 + 15.3125 lies midway and ties to the even significand, 1,048,591.25. -/
theorem test_accumulator_tie : fpToFp32 (fpAdd (fp32 0x49800000#32) (.fin false 245 (-4))) = 0x4980007A#32 := by decide +kernel
/-- The worked T2 byte: trits (+1, 0, −1, −1, +1) are 0xA7; 0xF8 is invalid and reads as five zeros (digit 1). -/
theorem test_t2_byte : t2Byte [2, 1, 0, 0, 2] = 0xA7 ∧ t2Digits 0xA7 = ([2, 1, 0, 0, 2], false) ∧
    t2Digits 0xF8 = ([1, 1, 1, 1, 1], true) := by decide +kernel
/-- The worked residual: 0.3 narrowed to BF16 leaves −26,214 × 2^−25, and the next step's code is 0x3E99. -/
theorem test_residual :
    (let r := narrow 1 [0x3E99999A#32]
     (r, residuals [0x3E99999A#32] r.2, (narrow 1 [fp32Add 0x3E99999A#32 0xBA4CCC00#32]).1)) =
    (([0x9A#8, 0x3E#8], [0x3E9A0000#32]), [(0xBA4CCC00#32, false)], [0x99#8, 0x3E#8]) := by decide +kernel
/-- The worked near-tier address: stack 4, stack-local 0x2_468A_C800, pseudo-channel 35 (R148). -/
theorem test_near_interleave :
    (nearStack 0x1234567800, nearLocal 0x1234567800, nearPch 0x1234567800) = (4, 0x2468AC800, 35) := by decide +kernel
/-- The check values of CRC-32C and of SHA-384 ("abc", FIPS 180-4). -/
theorem test_crc32c : crc32c [0x31, 0x32, 0x33, 0x34, 0x35, 0x36, 0x37, 0x38, 0x39] = 0xE3069283 := by decide +kernel
theorem test_sha384 : (sha384 [0x61, 0x62, 0x63]).take 8 = [0xCB, 0x00, 0x75, 0x3F, 0x45, 0xA3, 0x5E, 0x8B] := by decide +kernel
/-- The worked DICT chunk: 48 bytes that give 3C BD 3D 3C 41 BC 3C 3D (R165, R166). -/
theorem test_kzd_dict : (match kzdChunk 1 8 (([2, 1, 7, 0, 0x0A, 0x13, 0xFD, 0xAE, 0x3C, 0x3D, 0xBC, 0xBD] ++ List.replicate 11 0 ++
      [0, 1, 0] ++ List.replicate 6 0 ++ [0x30, 0x01, 0x2F, 0x10, 0x41] ++ List.replicate 11 0).map (fun n => some (BitVec.ofNat 8 n))) with
    | .ok r => some r
    | .error _ => none) = some ([0x3C, 0xBD, 0x3D, 0x3C, 0x41, 0xBC, 0x3C, 0x3D], 48) := by decide +kernel
/-- The worked switch: three enabled queues and two group queues cost 162 FCLK cycles (R243). -/
theorem test_switch_cost : nSw (put up ([0, 1, 7].map (fun q => (qReg (qKey 17 0 q) 0, 1)) ++
    [(ALY_GRP_CTRL 3, 0x1101), (ALY_GRP_CTRL 200, 0x1101)])) 17 (some 0) = 162 := by decide +kernel
/-- The worked flush: 15 words discarded, PUB and RESTART 1,000 and FLUSHED 15 (R134). -/
def flushUp : State := words (put up [(qReg 0 0, 0x21), (qReg 0 0x10, 1006), (qReg 0 0x14, 1000)]) 4000 [0x05A49E10]
theorem test_flush : (match exec (.cruQFlush .pcie 0 0 0 1015#32) flushUp with
    | .next t => [rd t (qReg 0 0x10), rd t (qReg 0 0x20), rd t (qReg 0 0x1C)]
    | _ => []) = [1000, 1000, 15] := by decide +kernel
/-- For each check of WellFormed, a command at the boundary that it accepts and one past it that it refuses: crucible, context,
queue, physical crucible, array, sprue half, group, slot, slice tag, bank, position, stream, semaphores, buffer, trigger
slot, unit, part and width. -/
theorem test_wellFormed : ([(.lendReturn 255, .lendReturn 256), (.kvSpillSweep 15, .kvSpillSweep 16), (.nop 0 0 7, .nop 0 0 8),
    (.fettleDue 263, .fettleDue 264), (.tileDrain 0 7 none, .tileDrain 0 8 none), (.lpAbort 35, .lpAbort 36),
    (.void 255 0 0 0, .void 256 0 0 0), (.slotStart 255 0, .slotStart 256 0),
    (.creditReserve 0 15 0 0 0 0, .creditReserve 0 16 0 0 0 0), (.peek 0 0 0 0 3 none, .peek 0 0 0 0 4 none),
    (.peek 8 0 0 0 0 none, .peek 9 0 0 0 0 none), (.runaheadFetch 63, .runaheadFetch 64),
    (.cruSemWrite .pcie 0 0 63 0, .cruSemWrite .pcie 0 0 64 0), (.tndSsemValWrite .pcie 1023 0, .tndSsemValWrite .pcie 1024 0),
    (.tndCtxBtFlip .pcie 0 1, .tndCtxBtFlip .pcie 0 2), (.triggerPacket 0 0 0 0 255 0 none, .triggerPacket 0 0 0 0 256 0 none),
    (.orderApply 564, .orderApply 565), (.cupRiskAccWrite .pcie 299 0, .cupRiskAccWrite .pcie 300 0),
    (.doorbell .pcie 0 8 0, .doorbell .pcie 0 16 0)] : List (Instr × Instr)).all (fun e => e.1.wellFormed && !e.2.wellFormed) =
    true := by decide +kernel
/-- A register after one command. -/
def after (c : Instr) (s : State) (o : Nat) : Option Nat := match step { s with pending := [c] } with
  | .next t => some (rd t o)
  | _ => none
/-- PUB is a free-running 32-bit index: 0xFFFF_FFFF and 2 words give 1 (R94, R96). -/
theorem test_doorbell_wraps : after (.doorbell .pcie 0 4 2)
    (put queueUp [(qReg 0 0x10, 0xFFFFFFFF), (qReg 0 0x14, 0xFFFFFFFF)]) (qReg 0 0x10) = some 1 := by decide +kernel
/-- A doorbell of no words is discarded (R96). -/
theorem test_doorbell_of_none : after (.doorbell .pcie 0 4 0) queueUp (qReg 0 0x10) = some 0 := by decide +kernel
/-- SEM_SET writes its value (R115). -/
theorem test_semSet : after (.semSet 0 0 0) (itemUp (itemOf [0x1263, 63, 9])) (CRU_SEM 0 0 63) = some 9 := by decide +kernel
/-- SEM_SIGNAL adds and saturates (R115). -/
theorem test_semSignal : after (.semSignal 0 0 0) (put (itemUp (itemOf [0x1160, 0x10005])) [(CRU_SEM 0 0 5, 0xFFFFFFFF)])
    (CRU_SEM 0 0 5) = some 0xFFFFFFFF := by decide +kernel
/-- A slot of 10 µs is 1,000 REFCLK ticks (the example after R9). -/
theorem test_slot_offset : slotOffset (put up [(TND_SLOT_LO 0 0, 0x20001), (TND_SLOT_LO 0 1, 0x20001)]) 0 1 = 1000 := by decide +kernel
/-- B = T + floor((W − W0) / 10): 1,005 ns later is 100 ticks later, and 1 ns earlier is one tick earlier (R462). -/
theorem test_meter_boundary : boundary 100 0 1005 = 200 ∧ boundary 100 10 9 = 99 := by decide +kernel
/-- The decay takes 33 to floor(33 × 15/16) = 30 (R453). -/
theorem test_risk_decay : after .riskDecay ((put up [(CUP_RISK_ACC 7, 33)]).withClock { up.clock with now := 360000000000 })
    (CUP_RISK_ACC 7) = some 30 := by decide +kernel
theorem witness_EmptyQueueStepIsOneTick : up.pending = [] ∧ State.reset.pending = [] ∧ serving State.reset = false ∧
    serving { State.reset with mode := .coldShut } = true ∧ ({ State.reset with mode := .coldShut } : State).mode ≠ .ready := by
  decide +kernel
theorem witness_EveryCommandCompletes : ∀ kind, Instr.mtrRangeTick ≠ .jtagInstruction kind := by intro kind h; cases h
theorem witness_StepRunsFrontCommand : ({ up with pending := [.mtrRangeTick] } : State).pending = .mtrRangeTick :: [] := rfl
theorem witness_Doorbells :
    (up.mode = .ready ∧ 0 < 32768 ∧ 1 ≤ 1024 ∧ 1024 < 2 ^ 16 ∧ qEnabled queueUp 0 = true ∧ qAvail queueUp 0 + 1024 ≤ qSize queueUp 0 ∧
      (qOf queueUp 0).walk = none ∧ queueUp.mode = .ready) ∧
    (qSize queueUp 0 < qAvail queueUp 0 + 1025) ∧ qEnabled up 32767 = false := by decide +kernel
theorem witness_QueueRegisterCommands :
    (queueUp.mode = .ready ∧ queueUp.calm) ∧ (flush queueUp .pcie 0 0).calm ∧ (resume queueUp .pcie 0).calm ∧
    (cqHeadWrite queueUp .pcie 0 0).calm ∧
    (qEnabled queueUp 0 = true ∧ cqOn queueUp 0 = false ∧ (2 ^ 32 + 0 - qPub queueUp 0) % 2 ^ 32 < 2 ^ 31 ∧
      (2 ^ 32 + 0 - qHead queueUp 0) % 2 ^ 32 ≤ qSize queueUp 0) ∧
    (qEnabled up 0 = false ∧ enableOk up 0 (1 + 8 * 16) = true ∧ (qOf up 0).walk = none) ∧
    ((qOf up 0).resetPend = false ∧ inFlight (qOf up 0) = false) ∧
    ((qOf (setQ up 0 { QState.init with resetPend := true }) 0).resetPend = true ∧
      inFlight (qOf (setQ up 0 { QState.init with resetPend := true }) 0) = false) ∧
    ((qOf (setQ up 0 { QState.init with halted := true }) 0).halted = true ∧
      (qOf (setQ up 0 { QState.init with halted := true }) 0).poisonedHead = false ∧
      (qOf (setQ up 0 { QState.init with halted := true }) 0).refBnd = false ∧
      qAvail (setQ up 0 { QState.init with halted := true }) 0 = 0) ∧ (qOf up 0).held = [] := by
  unfold State.calm
  decide +kernel
/-- A NOP published in the ring, which the gate may accept. -/
def nopUp : State :=
  setCru (words ((put queueUp [(qReg 0 0x10, 1)]).withTnd { queueUp.tnd with states := [(0, 1)] }) 0 [0x1000]) 0
    { cruOf queueUp 0 with resident := some 0 }
theorem witness_ItemsAreAcceptedAndCompleted :
    (qCtx (qKey 0 0 0) = 0 ∧ qCru (qKey 0 0 0) = 0 ∧ mayAccept nopUp (qKey 0 0 0) = true ∧
      beginsCommand (qOf nopUp 0) = true ∧ (qOf nopUp 0).items = [] ∧ guarded nopUp 0 0 = false ∧
      (devRead nopUp (itemAgent 0 (physOf nopUp 0)) (qWordAddr nopUp 0 (qHead nopUp 0)) 4).2 = (leBytes 4 0x1000, 0) ∧
      hLen 0x1000 ≤ qAvail nopUp 0 ∧ acceptStopped nopUp (hOp 0x1000) = false ∧
      (itemWords nopUp 0 (qHead nopUp 0) (hLen 0x1000)).2 = ([0x1000], 0) ∧
      gateReasons (itemWords nopUp 0 (qHead nopUp 0) (hLen 0x1000)).1 0 (newItem nopUp 0 [0x1000]) true false = [] ∧
      (itemWords nopUp 0 (qHead nopUp 0) (hLen 0x1000)).1.calm ∧ hOp 0x1000 ≠ 0x40 ∧ hOp 0x1000 ≠ 0x50) ∧
    findItem (itemUp { itemOf [0x1000] with phase := .done 0 0 }) (qKey 0 0 0) 0 = some { itemOf [0x1000] with phase := .done 0 0 } ∧
    (completeItem (itemUp { itemOf [0x1000] with phase := .done 0 0 }) (qKey 0 0 0) { itemOf [0x1000] with phase := .done 0 0 } 0 0).calm := by
  unfold State.calm
  decide +kernel
/-- The state after reset, with its fuses programmed. -/
def fused : State := State.reset.withCup { State.reset.cup with fused := true, fuseHash := List.replicate 48 1, require := true }
theorem reset_inOrder : State.reset.inOrder := by
  refine ⟨⟨rfl, rfl⟩, ?_⟩
  simp [HeatLog.sound, State.reset, HeatLog.init]
theorem witness_QueueIsFirstInFirstOut : State.reset.inOrder ∧ step State.reset = .next (tick State.reset) :=
  ⟨reset_inOrder, rfl⟩
theorem witness_EveryStepKeepsOrder : State.reset.inOrder ∧ step State.reset = .next (tick State.reset) :=
  ⟨reset_inOrder, rfl⟩
theorem witness_ProgrammedFusesStay : fused.inOrder ∧ fused.fuses.1 = true ∧ step fused = .next (tick fused) :=
  ⟨reset_inOrder, rfl, rfl⟩
theorem witness_NotReadyIsUnsupported : State.reset.mode ≠ .ready := by decide
theorem witness_GateItems :
    (qCru (qKey 0 0 0) = 0 ∧ qCtx (qKey 0 0 0) = 0) ∧
    (issuable (itemUp (itemOf [0x1000])) 0 0x00 = some (itemOf [0x1000])) ∧
    (issuable (itemUp (itemOf [0x1102, 7])) 0 0x02 = some (itemOf [0x1102, 7]) ∧
      flipHolds (itemUp (itemOf [0x1102, 7])) 0 (itemOf [0x1102, 7]) = false) ∧
    (issuable (itemUp (itemOf [0x1160, 0x10005])) 0 0x60 = some (itemOf [0x1160, 0x10005])) ∧
    (issuable (itemUp (itemOf [0x1263, 63, 9])) 0 0x63 = some (itemOf [0x1263, 63, 9])) ∧
    (issuable (itemUp (itemOf [0x1261, 63, 1])) 0 0x61 = some (itemOf [0x1261, 63, 1]) ∧
      rd (itemUp (itemOf [0x1261, 63, 1])) (CRU_SEM 0 0 63) < 1) ∧
    (issuable (itemUp (itemOf [0x1261, 63, 0])) 0 0x61 = some (itemOf [0x1261, 63, 0]) ∧ bit 63 8 = false) ∧
    (let i : Item := { itemOf [0x1261, 0x100, 0] with phase := .issued }
     (qOf (itemUp i) 0).items.find? (fun j => j.op == 0x61 && j.phase == .issued) = some i ∧ onCrucible (itemUp i) 0 = true ∧
      i.w 2 ≤ rd (itemUp i) (CRU_SEM 0 0 0) ∧ bit (i.w 1) 8 = true ∧ earlierWait (itemUp i) 0 0 0 i = false ∧
      otherDecWaits (itemUp i) 0 0 0 0 i.index = []) := by decide +kernel
/-- A VEC item of an operation. -/
def vecItem (vop : Nat) : Item := itemOf [0x1720, 0, vop, 0, 0, 0, 0, 0]
theorem witness_VectorItems : ([1, 2, 3, 4, 5, 6, 7, 8, 9, 10, 11, 0x10, 0x11, 0x12, 0x20] : List Nat).all (fun v =>
    vecReady (itemUp (vecItem v)) (qKey 0 0 0) v == some (vecItem v)) = true := by decide +kernel
/-- An MMA item of one pass, and an array that runs it. -/
def mmaItem (p : ItemPhase) : Item := { itemOf [0x1B10, 0, 0, 0, 0, 0, 0, 0, 0, 0, 0, 0] with phase := p }
/-- The array in a state of its command. -/
def arrUp (f : ArrayState → ArrayState) : State :=
  setArr (itemUp (mmaItem .issued)) 0 0 (f { ArrayState.init with cmd := some (0, 0), banks := [[], []] })
theorem witness_ArrayItems :
    (issuable (itemUp (mmaItem .accepted)) (qKey 0 0 0) 0x10 = some (mmaItem .accepted) ∧ verifyOn (itemUp (mmaItem .accepted)) = true ∧
      verifyOn (put (itemUp (mmaItem .accepted)) [(CUP_INT_CTRL, 0)]) = false ∧
      issuable (put (itemUp (mmaItem .accepted)) [(CUP_INT_CTRL, 0)]) 0 0x10 = some (mmaItem .accepted) ∧
      (arrOf (itemUp (mmaItem .accepted)) 0 ((mmaBody (mmaItem .accepted)).array ^^^ 4)).cmd = none ∧
      (arrOf (itemUp (mmaItem .accepted)) (physOf (itemUp (mmaItem .accepted)) 0) (mmaBody (mmaItem .accepted)).array).cmd = none) ∧
    (arrItem (arrUp id) 0 0 = some (0, mmaItem .issued, mmaBody (mmaItem .issued)) ∧ (arrOf (arrUp id) 0 0).shadow = none ∧
      (arrOf (arrUp id) 0 0).refused = none ∧ (arrOf (arrUp id) 0 0).tile < (mmaBody (mmaItem .issued)).tiles ∧
      (mmaBody (mmaItem .issued)).riser = false ∧ (mmaBody (mmaItem .issued)).runners.contains 0 = true ∧
      (mmaBody (mmaItem .issued)).m = 1 ∧ refillUnit (mmaBody (mmaItem .issued)) 0 ≤ 64) ∧
    ((spGet (arrOf (arrUp (fun r => { r with runners := [(0, ⟨1, [5], 0⟩)] })) 0 0).runners 0 ⟨0, [], 0⟩).pendings ≠ []) ∧
    (let s := arrUp (fun r => { r with shadow := some [], started := true, pass := 1 })
     arrItem s 0 0 = some (0, mmaItem .issued, mmaBody (mmaItem .issued)) ∧ (arrOf s 0 0).shadow = some [] ∧
      (arrOf s 0 0).started = true ∧ 0 < (arrOf s 0 0).pass) ∧
    ((arrOf (arrUp (fun r => { r with drains := [(0, none), (1, none)] })) 0 0).drains.length = 2) ∧
    (let i := itemOf [0x1730, 0, 0, 0, 0, 0, 0, 0]
     issuable (itemUp i) (qKey 0 0 0) 0x30 = some i ∧ unitFree (itemUp i) 0 0x30 = true ∧ findItem (itemUp i) 0 i.index = some i) := by
  decide +kernel
/-- A Ladle item of an operation and its SUB. -/
def ladleItem (lop sub : Nat) : Item := itemOf [0x1F40, 0, lop + sub * 2 ^ 20, 0, 0, 0, 0, 0, 0, 0, 0, 0, 0, 0, 0, 0]
theorem witness_LadleItems : ([(1, 0), (2, 0), (3, 0), (4, 0), (6, 0), (6, 1), (0x0B, 0), (0x0C, 0), (0x0D, 0), (0x0E, 0)] :
    List (Nat × Nat)).all (fun e => decide (issuable (itemUp (ladleItem e.1 e.2)) (qKey 0 0 0) 0x40 = some (ladleItem e.1 e.2) ∧
      ladleHeld (itemUp (ladleItem e.1 e.2)) 0 < 16 ∧ (ladleItem e.1 e.2).lop = e.1 ∧ ladleSub (ladleItem e.1 e.2) = e.2)) = true := by
  decide +kernel
theorem witness_KvItems : (List.range 7).all (fun n => decide (
    issuable (itemUp (ladleItem 5 n)) (qKey 0 0 0) 0x40 = some (ladleItem 5 n) ∧ ladleHeld (itemUp (ladleItem 5 n)) 0 < 16 ∧
      (ladleItem 5 n).lop = 5 ∧ ladleSub (ladleItem 5 n) = n ∧ (itemUp (ladleItem 5 n)).ladle.moves.length = 0)) = true := by
  decide +kernel
/-- A stream 0 of two chunks of one line, with a buffered line. -/
def streamUp (b : List RaLine) : State :=
  setStream up 0 { RaStream.init with state := 1, nchunk := 2, lines := 1, dist := 2, buf := b }
theorem witness_RunAhead :
    (let s := streamUp []
     (streamAt s 0).state = 1 ∧ max (streamAt s 0).next (streamAt s 0).pos < (streamAt s 0).nchunk ∧
      max (streamAt s 0).next (streamAt s 0).pos < (streamAt s 0).pos + (streamAt s 0).dist ∧
      areaLines s 0 + (if (streamAt s 0).kv then 512 else (streamAt s 0).lines) ≤ raShare s * 32768) ∧
    (let b : RaLine := ⟨0x2000, 0, false, false, false, [], none⟩
     let s := streamUp [b]
     (streamAt s 0).buf.find? (fun l => l.addr == 0x2000 && !l.ready) = some b ∧ foreign s 0x2000 = false ∧
      (streamAt s 0).state = 1 ∧ (streamAt s 0).pos ≤ b.chunk + 1 ∧ isPoisoned s 0x2000 = false ∧
      isPoisoned s (0x2000 + 64) = false) ∧
    (let b : RaLine := ⟨0x2000, 0, true, false, false, [], some (0, 0, 0)⟩
     let s := (streamUp [b]).withClock { up.clock with now := 100001 }
     b ∈ (streamAt s 0).buf ∧ b.peek.isSome ∧ ∀ e ∈ b.peek, e.2.2 + 100000 < tickNow s) := by decide +kernel
/-- A ready device with one request to another device. -/
def reqUp (r : LReq) : State := up.withLadle { up.ladle with reqs := [r] }
theorem witness_RemoteRequests :
    (let r : LReq := ⟨5, 0, 0, 0, 0, 2 ^ 48, 64, [], 1, none, none⟩
     let s := reqUp r
     s.ladle.reqs.find? (fun e => e.id == 5 && e.issued.isNone) = some r ∧ spGet s.ladle.slots 0 0 + r.slots ≤ sliceSlots ∧
      cutHoldsReq s r = false) ∧
    (let r : LReq := ⟨5, 0, 0, 0, 0, 2 ^ 48, 64, [], 1, some 0, none⟩
     let s := (reqUp r).withClock { up.clock with now := 2000 }
     s.mode = .ready ∧ openReq s 5 = some r ∧ r.kind < 10 ∧ r.issued.getD 0 + 2000 ≤ tickNow s) ∧
    (up.mode = .ready ∧ openReq up 5 = none) := by decide +kernel
theorem witness_TierRequests :
    calmB up = true ∧ inTier up 0x103 = true ∧ 0x103 % 64 + 61 ≤ 64 ∧
    isPoisoned up 0x103 = false ∧ rd up CUP_ING_EPOCH = 0 ∧ ownWindow up 0x103 = none ∧ isPoisoned up (0x103 / 64 * 64) = false ∧
    bit (rd (put up [(tierGroup 0x103 + 4, 0x10000)]) (tierGroup 0x103 + 4)) 16 = true ∧ inTier up 0x3FFF0000000 = true := by
  decide +kernel
/-- A context 0 whose page table holds one NEAR page, spilling, with no near slot and one far slot free. -/
def kvUp : State :=
  let s := words (put up [(LDL_KV_CTRL 0, 1), (LDL_KV_PT_ENTRIES 0, 1), (LDL_KV_PT_BASE_LO 0, 0x1000), (LDL_KV_FAR_SLOTS 0, 2),
    (LDL_KV_SPILL_HI 0, 1)]) 0x1000 [1, 0]
  s.withLadle { s.ladle with sweeping := [0] }
theorem witness_KvMover :
    (kvUp.ladle.sweeping.contains 0 = true ∧ sweepMoving kvUp 0 = false ∧
      nearFree kvUp 0 < max (rd kvUp (LDL_KV_SPILL_HI 0)) (b2n (anyWaiter kvUp 0)) ∧
      (sweepWalk 0 (2 * kvEntries kvUp 0) kvUp).2 = some 0 ∧
      (takeFar (sweepWalk 0 (2 * kvEntries kvUp 0) kvUp).1 0).any (fun r => r.1 == 1 &&
        calmB (addMove r.2 ⟨0, 0, false, kvNear (kvEntry r.2 0 0), r.1, none⟩ (kvEntry r.2 0 0))) = true) ∧
    (let s := put kvUp [(LDL_KV_SPILL_HI 0, 0)]
     max (rd s (LDL_KV_SPILL_HI 0)) (b2n (anyWaiter s 0)) ≤ nearFree s 0 ∧ calmB s = true) ∧
    (let m : PageMove := ⟨0, 0, false, 0, 0, none⟩
     let s := put (kvUp.withLadle { kvUp.ladle with moves := [m] }) [(LDL_KV_NEAR_BASE_LO 0 + 4, 0x500), (LDL_KV_FAR_BASE_LO 0 + 4, 0x500)]
     moveOf s 0 0 = some m ∧ m.owner = none ∧ (endMove s m).1.ingot.blocked = false ∧
      calmB (resumeKv (endMove s m).1 0) = true) := by decide +kernel
/-- A state with a sweep item of an operation. -/
def sweepUp (lop : Nat) (ph : ItemPhase) : State := itemUp { ladleItem lop 0 with phase := ph }
/-- What SWEEP issues, prepared. -/
def sweepPrep (s : State) : State × Item :=
  let r := sweepIssue s 0 (ladleItem 8 0) none
  (ladlePrepare (r.1.withIngot { r.1.ingot with sweepHeld := none }) 0 r.2, r.2)
theorem witness_SweepItems :
    (let s := sweepUp 8 .accepted
     sweepNext s (qKey 0 0 0) 8 = some (ladleItem 8 0) ∧ tainted s = false ∧ stageOpen s = false ∧ sweepRuns s = false ∧
      unsealed s = false ∧ waitingReqs (sweepPrep s).1 0 0 = false ∧ calmB (runSweep (sweepPrep s).1 0 (sweepPrep s).2) = true ∧
      waitingReqs (sweepPrep (s.withLadle { s.ladle with reqs := [⟨0, 0, 0, 0, 0, 2 ^ 48, 64, [], 1, some 0, none⟩] })).1 0 0 = true) ∧
    (let o : SweepEnd := ⟨0, 0, false, 0, 0x3F800000, 0, 0, 0, 0, 0⟩
     let i : Item := { ladleItem 8 0 with phase := .issued }
     let s := (itemUp i).withLadle { up.ladle with sweep := { up.ladle.sweep with loop := some o } }
     s.ladle.sweep.loop = some o ∧ findItem s o.key o.index = some i ∧ calmB (endSweep (lossLoop s o i.step) o i) = true) ∧
    (match sweepTake (sweepUp 9 .accepted) (qKey 0 0 0) 9 none with
      | some (u, j) => j.found.1 != 0x29 && calmB (endSweepOp (actStage u 0 j).1 0 j (actStage u 0 j).2)
      | none => false) = true ∧
    (match sweepTake (itemUp { ladleItem 9 0 with found := (0x29, 0) }) (qKey 0 0 0) 9 none with
      | some (_, j) => j.found.1 == 0x29
      | none => false) = true ∧
    (remoteOut (sweepUp 10 .accepted) = false ∧ (match sweepTake (sweepUp 10 .accepted) (qKey 0 0 0) 0x0A none with
      | some (u, j) => calmB (endSweepOp (actSwcheck u 0 j) 0 j 0)
      | none => false) = true) := by decide +kernel
/-- The boundary cases of the loss-scale loop: S at 1 and at the ceiling. -/
theorem witness_LossScaleTable : ([0x3F800000, 0x4B800000] : List Nat).all (fun v =>
    let s := put up [(LDL_SWP_SCALE, v), (LDL_SWP_SCALE_MAX, 0x4B800000)]
    decide (0x3F800000 ≤ swScale s) && decide (swScale s < 0x7F000000) && decide (rd s LDL_SWP_CLEAN < 2 ^ 31)) = true := by
  decide +kernel
theorem witness_SweepRegisters :
    sweepBusy up = false ∧ powScale 0x40000000 0x40000000 0x4B800000 = true ∧ powScale 0x4B800000 0x40000000 0x4B800000 = true ∧
    sweepBusy (sweepUp 8 .accepted) = true ∧ powScale 0x3F800000 0x40000000 0x4B800000 = false ∧
    bit (rd (put up [(LDL_SLAG_NF 15, 1)]) (LDL_SLAG_NF 15)) 0 = true := by decide +kernel
/-- A collective item of an AOP on group 0, and a device whose group 0 is enabled. -/
def alyItem (aop : Nat) : Item := itemOf [0x1750, aop, 0, 0, 0, 0, 0, 0]
/-- A group enabled, with an item in the first queue. -/
def alyUp (i : Item) : State := put (itemUp i) [(ALY_GRP_CTRL 0, 1)]
theorem witness_AlloyItems :
    ([1, 2, 3, 4, 5] : List Nat).all (fun a => decide (alyNext (alyUp (alyItem a)) (qKey 0 0 0) a = some (alyItem a)) &&
      calmB (alyJoin (alyUp (alyItem a)) 0 (alyItem a) none)) = true ∧
    alyNext (alyUp (alyItem 6)) (qKey 0 0 0) 6 = some (alyItem 6) ∧
    calmB (completeItem (grpCancel (alyUp (alyItem 6)) 0) 0 { alyItem 6 with phys := 0 } 0 0) = true := by decide +kernel
/-- A group 0 that runs the collective of an item, with SEQ 0. -/
def collUp (aop : Nat) : State :=
  let s := alyUp { alyItem aop with phase := .issued }
  { s with alloy := [(0, { AlyGroup.init with seq := 1, cur := some ⟨0, 0, 0, none, false, 0, 0, none, 0, none, [], [], [], 0, [],
    false, [], 0, false, [], []⟩ })] }
/-- A packet of a kind for that collective. -/
def collPkt (kind aop : Nat) : AlyPkt := ⟨kind, 0, 1, 0, 0, 0, [], [], false, 1, 0, none, 0, [], aop⟩
theorem witness_AlloyArrivals :
    ([(1, 1), (2, 2), (3, 5), (4, 4), (5, 4), (6, 5)] : List (Nat × Nat)).all (fun e =>
      let s := collUp e.2
      (match (grpAt s 0).cur with
        | some c => grpOn s 0 && c.seq == 0 && (collItem s c).any (fun i => i.aop == e.2) && kindFits e.1 e.2
        | none => false) &&
      calmB (grpGo (setColl s 0 (fun d => alyArrive.noteIn { d with inbox := d.inbox ++ [collPkt e.1 e.2] } (collPkt e.1 e.2))) 0)) =
        true ∧
    (up.mode = .ready ∧ grpOn up 255 = false ∧ calmB up = true) ∧
    (let s := put up [(ALY_GRP_CTRL 0, 1)]
     grpOn s 0 = true ∧ (grpAt s 0).voids.any (fun e => e.1 == 32767) = false ∧ (grpAt s 0).cur = none ∧
      seqAhead (grpAt s 0).seq 32767 = true ∧ calmB (grpGo (collBegin.noteVoid s 0 32767 1) 0) = true) := by decide +kernel
theorem witness_AlloyGroups :
    (let s := put (up.withTnd { up.tnd with states := [(0, 1)] }) [(ALY_GRP_STAGE_LO 255, 0x100000), (ALY_GRP_PARENT 255, 0x10000),
       (ALY_GRP_POUR 255, 10), (LDL_RNG_LIMIT 0 0, 0x100000), (LDL_RNG_PERM 0 0, 3)]
     grpOn s 255 = false ∧ grpRefusal (setReg s (ALY_GRP_CTRL 255) (grpCtrlBits (setBits 0x8 0 1 1) / 2 * 2)) 255 = none) ∧
    (let s := put up [(ALY_GRP_CTRL 255, 1)]
     grpOn s 255 = true ∧ grpIdle s 255 = true ∧
      calmB (grpCancel (logAccepted s .pcie 0 (ALY_GRP_CTRL 255) (rd s (ALY_GRP_CTRL 255) + 4)) 255) = true) ∧
    (let s := up.withInteg { up.integ with alyDue := true }
     s.integ.alyDue = true ∧ s.integ.alyTest = none ∧ (List.range 256).all (grpIdle s) = true) ∧
    (let s := (up.withInteg { up.integ with alyTest := some 0 }).withClock { up.clock with now := 50000 }
     s.integ.alyTest = some 0 ∧ 0 + 50000 ≤ tickNow s) := by decide +kernel
/-- A ready device whose contexts 0 and 15 have a state. -/
def ctxUp (n : Nat) : State := up.withTnd { up.tnd with states := [(0, n), (15, n)] }
theorem witness_ContextRegisters :
    ([0, 15] : List Nat).all (fun x =>
      (let s := ctxUp 0
       ctxState s x == 0 && !s.sprues.enabling.contains x && (reserveSlice ((logAccepted s .pcie 0 (TND_CTX_CTRL x)
        (setBits (rd s (TND_CTX_CTRL x)) 0 1 1)).withSprues { s.sprues with enabling := s.sprues.enabling ++ [x] })
          (sliceTag s x)).2.isNone) &&
      ctxState (ctxUp 3) x == 3 && ctxState (ctxUp 1) x == 1 && !bit (rd (ctxUp 1) (TND_CTX_CTRL x)) 1 &&
      (let s := put (ctxUp 2) [(TND_CTX_CTRL x, 3)]
       ctxState s x == 2 && bit (rd s (TND_CTX_CTRL x)) 1) &&
      csetConflict up x == none) = true := by decide +kernel
theorem witness_ContextSwitches :
    ([0, 255] : List Nat).all (fun c =>
      (let s := (setQ (put (ctxUp 1) [(TND_CTX_CSET 0 (c / 32), 2 ^ (c % 32)), (qReg (qKey c 0 7) 0, 1)]) (qKey c 0 7)
        { QState.init with items := [itemOf [0x1000]] }).withClock { up.clock with now := 100000 }
       available s c && canSwitch s c && !s.tnd.moves.any (fun m => m.logical == c && m.endAt.isNone) &&
        choose s c != residentOn s c && decide (quantum s ≤ tickNow s - residentSince s c)) &&
      (let s := setCru up c { cruOf up c with switching := some (some 15, 0) }
       (cruOf s (physOf s c)).switching == some (some 15, 0) &&
        !s.tnd.moves.any (fun m => m.logical == c && m.endAt.isSome)) &&
      (let m : Move := ⟨c, some 263, some 0, false⟩
       let s := up.withTnd { up.tnd with moves := [m] }
       s.tnd.moves.find? (fun m => m.logical == c && m.endAt.isSome) == some m) &&
      (let g : Inherit := ⟨1023, 0, 15, some c, 0, 1023⟩
       let s := setCru ((ctxUp 1).withTnd { (ctxUp 1).tnd with gifts := [g] }) c { cruOf up c with resident := some 15 }
       s.tnd.gifts.find? (fun g => g.lent == some c && residentOn s c == some g.holder) == some g &&
        !stillWaits s 0 1023 && canSwitch s c && ctxState s 0 == 1)) = true := by decide +kernel
/-- A running schedule of one exclusive slot of context 0, of the least length, with the longest guard it admits. -/
def schedUp : State := put (ctxUp 1) [(TND_SCHED_CTRL, 1), (TND_SLOT_LO 0 0, 0x30001), (TND_SLOT_HI 0 0, 10), (TND_SLOT_LO 1 0, 0x30001),
  (TND_CTX_CSET 0 0, 1)]
/-- The same with a second slot, at whose start the first ends. -/
def sched2 : State := put schedUp [(TND_SLOT_LO 0 1, 0x30001), (TND_SLOT_HI 0 1, 10)]
theorem witness_Schedule :
    (let s := sched2
     schedOn s && decide (1 < slotCount s s.tnd.bank) && slotExcl s s.tnd.bank 1 &&
      decide (tickNow s < cycleStart s + slotOffset s s.tnd.bank 1) &&
      decide (cycleStart s + slotOffset s s.tnd.bank 1 ≤ tickNow s + slotGuard s s.tnd.bank 1 * 100) &&
      !s.tnd.guards.any (fun g => g.1 == 1)) = true ∧
    (let s := schedUp.withTnd { schedUp.tnd with slots := [(0, 0, 0)] }
     s.tnd.slots.find? (fun e => e.1 == 0 && decide (e.2.2 ≤ tickNow s)) = some (0, 0, 0) ∧
      s.tnd.awaited.filter (fun f => f.1 == 0) = []) ∧
    (let s := schedUp.withClock { up.clock with now := 999 }
     schedOn s && decide (0 < slotCount s s.tnd.bank) && slotExcl s s.tnd.bank 0 &&
      decide (cycleStart s + slotOffset s s.tnd.bank 0 ≤ tickNow s) &&
      decide (tickNow s < cycleStart s + slotOffset s s.tnd.bank 0 + slotLen s s.tnd.bank 0 * 1000) &&
      !s.tnd.slots.any (fun e => e.1 == 0 && e.2.1 == cycleStart s + slotOffset s s.tnd.bank 0)) = true ∧
    (let s := put schedUp [(TND_SCHED_CTRL, 3)]
     bit (rd s TND_SCHED_CTRL) 1 = true ∧ (tickNow s - rd64 s TND_CYC_ORIGIN_LO) % (cycleLen s s.tnd.bank * 1000) = 0 ∧
      bankFails s (1 - s.tnd.bank) = none ∧
      bankFails (put s [(TND_SLOT_LO 1 0, 0x30000)]) (1 - s.tnd.bank) = some (2, 0)) := by decide +kernel
/-- An item that waits on shared semaphore 1023 for 0. -/
def waitItem : Item := itemOf [0x1262, 1023, 0]
/-- A context whose queue takes part in batch-table flips and whose STEP item carries step 1. -/
def flipUp (b : Option Nat) (at_ : Nat) : State :=
  let s := put (itemUp (itemOf [0x1102, 1])) [(TND_CTX_CTRL 0, 0x101001), (TND_CTX_CSET 0 0, 1)]
  setBatch s 0 { batchOf s 0 with pending := b, apply := at_ }
theorem witness_SharedWaits :
    (let s := itemUp waitItem
     qCtx (qKey 0 0 0) = 0 ∧ issuable s (qKey 0 0 0) 0x62 = some waitItem ∧ waitItem.w 2 ≤ rd s (TND_SSEM_VAL 1023) ∧
      bit (waitItem.w 1) 12 = false ∧ waitItem.w 1 % 1024 = 1023) ∧
    (let i := { waitItem with phase := .issued }
     let s := itemUp i
     (qOf s (qKey 0 0 0)).items.find? (fun j => j.op == 0x62 && j.phase == .issued) = some i ∧ onCrucible s (qKey 0 0 0) = true) ∧
    (let s := flipUp none 0
     s.mode = .ready ∧ (batchOf s 0).pending = none ∧ participants s 0 = [0] ∧ btOn s 0 = true ∧
      (∀ k ∈ participants s 0, spGet s.tnd.issued k 0 = ((participants s 0).map (fun k => spGet s.tnd.issued k 0)).foldl max 0) ∧
      calmB s = true) ∧
    (let s := flipUp (some 1) 1
     (batchOf s 0).pending.isSome = true ∧ (participants s 0).all (fun k => match nextItem s k with
        | some i => i.op == 2 && flipHolds s k i
        | none => false) = true ∧ calmB (applyFlip s 0) = true) := by decide +kernel
/-- A ready device with link h (of 0 and 35) in a state, both sprues split. -/
def linkIn (h st : Nat) (f : SprLink → SprLink) : State :=
  setLink (put up [(SPR_CFG 0 0, 0x400), (SPR_CFG 17 0, 0x420), (SPR_STATUS (h / 2) (h % 2), st),
    (SPR_CTRL (h / 2) (h % 2), 0x10005)]) h f
theorem witness_LinkEvents :
    ([0, 35] : List Nat).all (fun h =>
      (let s := linkIn h 2 id
       linkUp s h && s.mode == .ready && decide (carvedOther s h 15 + max (sliceNeed s 15).1 1920 + max (sliceNeed s 15).2 0 ≤ poolFlits)) &&
      (let s := (linkIn h 4 id).withSprues { (linkIn h 4 id).sprues with asking := [(h, 15)] }
       linkUp s h && s.sprues.asking.contains (h, 15)) &&
      (let s := (linkIn h 2 (fun l => { l with asked := some (0, 2) })).withClock { up.clock with now := 2000 }
       (linkAt s h).asked.isSome && (linkAt s h).asked == some (0, 2) && decide (0 + 2000 ≤ tickNow s)) &&
      (let s := linkIn h 5 (fun l => { l with retrain := some 1, isolated := 3, spared := 4 })
       (linkAt s h).retrain == some 1 && linkWidth (linkLanes s h)
        (onesBelow ((linkAt s h).isolated ||| (linkAt s h).spared) (linkLanes s h)) != 0 &&
        linkWidth (linkLanes s h) (onesBelow (linkAt s h).isolated (linkLanes s h)) != 0) &&
      (let s := linkIn h 1 id
       linkState s h == 1 && linkDim s h != 31) &&
      (let s := linkIn h 0 (fun l => { l with retryAt := some 0 })
       (linkAt s h).retryAt == some 0 && decide (0 ≤ tickNow s) && linkState s h == 0 && linkDim s h != 31) &&
      (let s := put (linkIn h 0 id) [(SPR_CTRL (h / 2) (h % 2), 0)]
       s.mode == .ready && linkState s h == 0 && linkDim s h != 31 && !bit (linkCtrl s h) 0)) = true := by decide +kernel
/-- A flit of a kind and sequence number, with its CRC right or wrong. -/
def flitOf (kind seq : Nat) (good : Bool) : Flit :=
  let f : Flit := ⟨seq, kind, true, false, 0, 0, 0, ⟨0, 0, 3, 0, 0, none, 0, 1⟩, [], 0⟩
  let c := crc32c ((flitBytes f).map (·.toNat))
  { f with crc := if good then c else c ^^^ 1 }
theorem witness_LinkFlits :
    ([0, 4095] : List Nat).all (fun n =>
      let s := linkIn 35 2 (fun l => { l with rxSeq := n })
      let f := flitOf 0 n true
      linkState s 35 == 2 && f.crCount == 0 && f.crc == crc32c ((flitBytes f).map (·.toNat)) && decide (f.seq < 4096) &&
        f.seq == (linkAt s 35).rxSeq && f.kind != 3) = true ∧
    (let f := flitOf 3 0 true
     f.crCount = 0 ∧ f.crc = crc32c ((flitBytes f).map (·.toNat)) ∧ f.kind = 3) ∧
    (flitOf 0 0 false).crc ≠ crc32c ((flitBytes (flitOf 0 0 false)).map (·.toNat)) ∧
    (let e : TxFlit := ⟨0, 0, (flitOf 0 0 true).hdr, true, []⟩
     let w : LinkWait := ⟨(flitOf 0 0 true).hdr, [[]], 36, 0, 0, 16⟩
     let s := ((linkIn 35 2 (fun l => { l with owedAt := some 0, retry := [e], waits := [w] }))).withClock
       { up.clock with now := 1000, half := 64 * lclkHalf }
     linkState s 35 = 2 ∧ (linkAt s 35).nakRx = 0 ∧ (linkAt s 35).owedAt = some 0 ∧ 0 + 200 ≤ tickNow s ∧
      (linkAt s 35).retry.head? = some e ∧ e.sent + 1000 ≤ tickNow s ∧
      (linkAt s 35).waits.find? (fun w => w.hdr.cls == 3 && w.hdr.layer.isNone && !mayStart s 35 w &&
        decide (w.since + 64 * lclkHalf ≤ s.clock.half)) = some w) := by decide +kernel
theorem witness_LinkPower :
    ([0, 35] : List Nat).all (fun h =>
      (let s := (linkIn h 2 id).withClock { up.clock with now := 100 }
       linkState s h == 2 && bit (linkCtrl s h) 2 && (linkAt s h).lp == 0 && linkQuiet s h && linkUp s h &&
        decide ((linkAt s h).busyAt + max 1 (bits (linkCtrl s h) 16 16) * 100 ≤ tickNow s)) &&
      (let s := linkIn h 2 (fun l => { l with lp := 1 })
       linkState s h == 2 && (linkAt s h).lp == 1) &&
      (let s := linkIn h 2 (fun l => { l with rx := [((flitOf 0 0 true).hdr, [])] })
       linkState s h == 2 && (linkAt s h).lp == 0 && !linkQuiet s h) &&
      (let s := linkIn h 2 (fun l => { l with lp := 3 })
       (linkAt s h).lp == 3 && linkState s h == 2 && decide ((linkAt s h).lpEnd ≤ s.clock.half)) &&
      (let s := linkIn h 4 (fun l => { l with lp := 4 })
       (linkAt s h).lp == 4 && linkState s h == 4)) = true := by decide +kernel
theorem witness_SprueRegisters :
    up.mode = .ready ∧
    (let s := up.withSprues { up.sprues with banks := [(0, 0x80000400#32)] }
     (List.range (2 ^ bits (rd s SPR_TOPO) 4 5)).all (fun d => (hopFails s (bits (rd s SPR_RT_CTRL) 0 2) d).isNone) = true) ∧
    (0 < 2 ^ bits (rd up SPR_TOPO) 4 5 ∧ hopFails up (bits (rd up SPR_RT_CTRL) 0 2) 0 = some 2) ∧
    bankNamed (put up [(SPR_RT_CTRL, 3)]) (bits (rd (put up [(SPR_RT_CTRL, 3)]) SPR_RT_CTRL) 0 2) = false ∧
    rd up SPR_TAKEOVER ≠ (0xF#32).toNat % 16 := by decide +kernel
/-- A ready device with a window of 1 GiB and its directory behind it. -/
def winUp : State := put up [(FLK_CTRL, 1), (FLK_WIN_SIZE, 1), (FLK_DIR_BASE_LO, 0x40000000)]
/-- A window transaction of line 0, of position 7. -/
def txOf (k : WinReq) (snoops : List (Nat × Nat)) (answered : Bool) : HomeTx := ⟨0, 7, k, 0, [], 4095, 15, 3, snoops, answered⟩
/-- The window with that transaction open. -/
def winTx (t : HomeTx) : State := winUp.withFlask { winUp.flask with home := [t] }
theorem witness_FlaskHome :
    ([(.rdS, []), (.rdX, []), (.rdOnce, []), (.wr, [5]), (.atomic, List.replicate 17 0), (.wb, List.replicate 128 1), (.peek, []),
        (.check, [0, 0])] : List (WinReq × List Byte)).all (fun e =>
      winUp.mode == .ready && !heldByCut winUp none && winOn winUp && decide (2 ^ 30 - 1 < winBytes winUp) &&
      bit (rd winUp FLK_WIN_SLICE) 15 && calmB (homePump (winUp.withFlask { winUp.flask with
          queued := winUp.flask.queued ++ [⟨(2 ^ 30 - 1) / 128, 7, e.1, 2 ^ 30 - 1, e.2, 4095, 15, 3, [], false⟩] }))) = true ∧
    (winBytes winUp ≤ 2 ^ 30 ∧
      calmB (sendRsp (logUnit winUp 0x0311 0 ([7] ++ datum64 (2 ^ 30))) "REFUSED" 7 15 3 [4095, 0] []) = true) ∧
    (let s := (put winUp [(CUP_ING_CTRL, 1)]).withIngot { winUp.ingot with want := some (1, 0, 0) }
     heldByCut s (some 32767) = true ∧ calmB s = true) := by decide +kernel
theorem witness_FlaskSnoops :
    (let t := txOf .rdX [(0, 0), (1, 0)] false
     let s := winTx t
     s.flask.home.find? (fun t => t.line == 0 && t.snoops.any (fun n => n.1 == 1)) = some t ∧ (∃ n ∈ t.snoops, n.1 ≠ 1) ∧
      calmB s = true) ∧
    (let t := txOf .rdX [(1, 0)] false
     let s := winTx t
     let u := (homeStore s 0 0 (List.replicate 128 7)).1
     s.flask.home.find? (fun t => t.line == 0 && t.snoops.any (fun n => n.1 == 1)) = some t ∧ (∀ n ∈ t.snoops, n.1 = 1) ∧
      calmB (homePump (serveTx (u.withFlask { u.flask with home := u.flask.home.map (fun v => if v.line = 0 then
        { t with snoops := [] } else v) }) { t with snoops := [] })) = true) ∧
    (let t := txOf .rdX [(1, 0)] false
     let s := (winTx t).withClock { up.clock with now := 2000 }
     s.flask.home.find? (fun t => t.line == 0 && t.snoops.any (fun n => n.1 == 1 && decide (n.2 + 2000 ≤ tickNow s))) = some t ∧
      calmB (snoopReply (logUnit (setReg s FLK_DEADPOS (setBits (rd s FLK_DEADPOS) 1 1 1)) 0x0315 0
        [1, snoopCode (homeSnoops s t).1, 0]) 1 0 []) = true) ∧
    (let t := txOf .rdX [] true
     let s := winTx t
     s.flask.home.find? (fun t => t.line == 0 && t.pos == 7 && t.answered) = some t ∧ calmB (homePump (closeTx s t)) = true) ∧
    (let s := winUp.withFlask { winUp.flask with cache := [(winKey 8 5, ⟨true, [1]⟩)] }
     (cached s 8 5).isSome = true ∧ s.flask.wbs.find? (fun w => w.key == winKey 8 5) = none ∧
      cached s 8 5 = some ⟨true, [1]⟩) := by decide +kernel
/-- An open request of a kind, for a line of the window of position 1. -/
def flkReqOf (kind : Nat) : LReq := ⟨4095, 0, 0, 0, kind, 0x81000000000, 128, [], 1, some 0, none⟩
/-- A device with that request open, for an item that has been issued. -/
def flkReqUp (kind : Nat) : State :=
  let s := itemUp { itemOf [0x1730, 0, 0, 0, 0, 0, 0, 0] with phase := .issued }
  s.withLadle { s.ladle with reqs := [flkReqOf kind] }
theorem witness_FlaskAnswers :
    openReq up 4095 = none ∧ ([10, 11, 15, 16, 17] : List Nat).all (fun n => openReq (flkReqUp n) 4095 == some (flkReqOf n)) = true ∧
    ([10, 11] : List Nat).all (fun n =>
      let s := flkReqUp n
      let r := flkReqOf n
      calmB (answerAny (sendDone (installLine s (reqCtx s r) (winKey (reqLine s r).1 (reqLine s r).2)
        ⟨r.kind == 11, List.replicate 128 1⟩) r) r 0 0 (List.replicate 128 1))) = true ∧
    (peekedLine (flkReqUp 17) (reqCtx (flkReqUp 17) (flkReqOf 17)) (flkReqOf 17).addr = none ∧
      calmB (answerAny (flkReqUp 17) (flkReqOf 17) 2 0 []) = true ∧
      (let s := flkReqUp 17
       let r := flkReqOf 17
       let u := cntAdd s FLK_CHECKFAIL_CNT_LO 1
       let l := { u.ladle with
         slots := spPut u.ladle.slots r.slice (spGet u.ladle.slots r.slice 0 - r.slots) 0
         reqs := u.ladle.reqs.filter (fun q => q.id != r.id) }
       calmB (ladleAdvance (u.withLadle l) r.queue r.index) = true)) ∧
    ([0, 10, 11, 15, 17, 20] : List Nat).all (fun n => calmB (answerAny (flkReqUp n) (flkReqOf n) 3 1 [])) = true ∧
    (let t := txOf .rdX [(0, 0), (1, 0)] false
     let s := winTx t
     s.flask.home.find? (fun t => t.line == 0 && t.snoops.any (fun n => n.1 == 1)) = some t ∧ (∃ n ∈ t.snoops, n.1 ≠ 1)) := by
  decide +kernel
/-- A trigger slot of context 0, queue 0 of crucible 0, whose list at address 0 is one NOP header. -/
def trigUp (ctl : Nat) : State :=
  let s := put (queueUp.withTnd { up.tnd with states := [(0, 1)] }) [(FLK_TRIG_CTRL 255, ctl), (FLK_TRIG_LEN 255, 0xFFFF0001),
    (LDL_RNG_LIMIT 0 0, 1), (LDL_RNG_PERM 0 0, 3), (qReg 0 8, 0x100000)]
  words s 0 [0x1000]
theorem witness_FlaskServices :
    ([0, 1, 2] : List Nat).all (fun k =>
      exportRefuses up 15 k 0 64 == some 2 && exportRefuses up 15 k 0x7FFFFFFFFF 64 == some 1 &&
      (let s := put up [(FLK_EXP_LIMIT 7, 1), (FLK_EXP_PERM 7, 7), (FLK_EXP_SLICEMASK 7, 0x8000)]
       exportRefuses s 15 k 65528 8 == none && exportRefuses s 14 k 65528 8 == some 3 &&
        calmB (remoteServe s 9 15 3 4095 k 65528 8 (List.replicate 17 0) none))) = true ∧
    (bit (rd up (FLK_TRIG_CTRL 255)) 0 = false ∧ calmB (sendAnswer (logUnit (satAdd up (FLK_TRIG_REF_CNT 255) 1) 0x0318 0
      [255, 9, 4]) "REFUSED" 9 15 3 [4095, 4] []) = true) ∧
    (let s := trigUp 1
     let t := 255
     let z := (trigWords s t).zipIdx.foldl
        (fun st e => devWords st hostAgent (qWordAddr s (trigQueue s t) (rd s (FLK_TRIG_WIDX t) + e.2)) [e.1]) s
     bit (rd s (FLK_TRIG_CTRL t)) 0 = true ∧ bit (rd s (FLK_TRIG_LEN t)) (16 + 15) = true ∧ qEnabled s (trigQueue s t) = true ∧
      available s (qCru (trigQueue s t)) = true ∧
      (2 ^ 32 + rd s (FLK_TRIG_WIDX t) - qHead s (trigQueue s t)) % 2 ^ 32 + trigLen s t ≤ qSize s (trigQueue s t) ∧
      bits (rd s (FLK_TRIG_CTRL t)) 16 12 = 0 ∧
      calmB (sendAnswer (cntAdd (doorbell (setReg z (FLK_TRIG_WIDX t) (rd s (FLK_TRIG_WIDX t) + trigLen s t))
        (.unit (0x1000 + t)) (trigQueue s t) (trigLen s t) (trigQueue s t * 64)) (FLK_TRIG_CNT_LO t) 1) "ACK" 9 15 3
        [4095] []) = true) ∧
    (let s := trigUp 0
     bit (rd s (FLK_TRIG_CTRL 255)) 0 = false ∧ trigFails (setReg s (FLK_TRIG_CTRL 255) (1 % 2 ^ 28)) 255 = none ∧
      trigFails (setReg up (FLK_TRIG_CTRL 255) (1 % 2 ^ 28)) 255 = some 2) ∧
    (let v : Nat := 2
     bit v 2 = false ∧ bit v 0 = bit (rd up FLK_CTRL) 0 ∧ v % 4 ≠ rd up FLK_CTRL) ∧
    (let v : Nat := 3
     bit v 2 = false ∧ bit v 0 = true ∧ bit (rd up FLK_CTRL) 0 = false) := by decide +kernel
/-- A ready device in which physical crucible 0, loaded, is in a fettle state at a time. -/
def ftlUp (n now : Nat) : State := (setFtl up 0 n).withClock { up.clock with now := now }
/-- The same without a free spare in casting 0: both spares are out of service. -/
def noSpare (s : State) : State := setFtl (setFtl s 256 5) 257 5
theorem witness_FettleDueTick :
    (carriedBy up 0).isSome = true ∧ 600 ≤ rd up CUP_FTL_PERIOD ∧ tickNow up < ftlDue up 263 ∧
    (let s := ftlUp 0 360000000000
     s.mode = .ready ∧ ftlState s 263 = 0 ∧ ftlDue s 263 ≤ tickNow s ∧ carriedBy s 263 = none) ∧
    (let s := noSpare (ftlUp 0 360000000000)
     ftlState s 0 = 0 ∧ ftlDue s 0 ≤ tickNow s ∧ (carriedBy s 0).isSome = true ∧ sparesLeft (setFtl s 0 1) (physCasting 0) = 0) := by
  decide +kernel
theorem witness_FettleCourse :
    (let s0 := setQ (setCru (ftlUp 2 20000000) 0 { cruOf up 0 with resident := some 15 }) (qKey 0 15 7)
       { QState.init with cmdStart := some 0 }
     let s := s0.withTnd { s0.tnd with moves := [⟨0, none, none, true⟩] }
     carriedBy s 0 = some 0 ∧ ftlState s 0 = 2 ∧ 20000000 ≤ commandAge s 0 ∧
      s.tnd.moves.any (fun m => m.logical == 0 && m.endAt.isNone && m.fettle) = true) ∧
    (let s := noSpare (ftlUp 1 0)
     ftlState s 0 = 1 ∧ spGet s.integ.retryAt 0 0 ≤ tickNow s ∧ sparesLeft s (physCasting 0) = 0) ∧
    (let s := noSpare (ftlUp 1 2880000000000)
     let u := setCru s 0 { cruOf s 0 with switching := some (none, 0) }
     ([s, u].all (fun s => carriedBy s 0 == some 0 && s.mode == .ready && decide (ftlDeadline s 0 ≤ tickNow s) && ftlState s 0 != 3 &&
        ftlState s 0 != 5 && !s.tnd.moves.any (fun m => m.logical == 0 && m.endAt.isSome) && freeSpare s 0 == none)) = true ∧
      canSwitch u 0 = false ∧ canSwitch s 0 = true ∧ residentOn s 0 = none) ∧
    (let s := setFtl (ftlUp 1 2880000000000) 257 5
     freeSpare s 0 = some 256 ∧ ftlState s 0 ≠ 4 ∧ s.tnd.moves.any (fun m => m.logical == 0) = false ∧
      ftlDeadline s 0 ≤ tickNow s) ∧
    (let s := setCru (ftlUp 0 150000) 263 { cruOf up 263 with testing := some 0 }
     (cruOf s 263).testing = some 0 ∧ 0 + 150000 ≤ tickNow s ∧ s.integ.inPlace.find? (fun e => e.1 == 263) = none ∧
      carriedBy s 263 = none ∧ spGet s.integ.carried 263 0 = 0) := by decide +kernel
/-- A ready device whose cope/drag pair runs, with records of its own and of the partner. -/
def pairUp (mine theirs : List (Nat × Nat × Nat)) (now : Nat) : State :=
  (up.withInteg { up.integ with cope := 1, mine := mine, theirs := theirs }).withClock { up.clock with now := now }
theorem witness_IntegrityCommands :
    up.mode = .ready ∧ rd up CUP_INT_CTRL ≠ setBits (rd up CUP_INT_CTRL) 0 1 (b2n false) ∧
    (let s := put up [(CUP_INT_TAINT, 0x20)]
     rd s CUP_INT_TAINT &&& 0xFFFFFFFF % 64 ≠ 0 ∧ rd s CUP_INT_TAINT &&& 0x1F % 64 = 0) ∧
    (let s := pairUp [] [] 0
     s.integ.cope = 1 ∧ (∀ e ∈ s.integ.theirs, e.1 ≠ 7) ∧ (∀ e ∈ s.integ.mine, e.1 ≠ 7)) ∧
    (let s := pairUp [(7, 1, 0)] [] 100000000
     s.integ.mine.find? (fun e => e.1 == 7) = some (7, 1, 0) ∧ (1 : Nat) ≠ 2 ∧ s.integ.mine = [(7, 1, 0)] ∧ s.integ.theirs = [] ∧
      0 + ticksPerSecond ≤ tickNow s) := by decide +kernel
/-- A ready device whose ingot is enabled. -/
def ingUp : State := put up [(CUP_ING_CTRL, 1), (CUP_ING_STORE_SLOTS, 0x1000)]
theorem witness_IngotCuts :
    (bit (ingCtrlBits 1) 0 = true ∧ bit (rd up CUP_ING_CTRL) 0 = false ∧
      rd (put up [(CUP_ING_CTRL, 2)]) CUP_ING_CTRL ≠ ingCtrlBits 1 - 1 ∧ ingFails (put up [(CUP_ING_CTRL, 2)]) = some 3 ∧
      ingFails (put up [(CUP_ING_STORE_SLOTS, 0x1000)]) = none) ∧
    (let s := put ingUp [(CUP_INT_TAINT, 1)]
     tainted s = true ∧ ingOn s = true ∧ s.ingot.want = none) ∧
    (tainted ingUp = false ∧ ingOn ingUp = true ∧ ingUp.ingot.want = none ∧ ingUp.ingot.busy = 0 ∧
      bits (rd ingUp FLK_CTRL) 0 2 = 0) ∧
    (let s := ingUp.withIngot { ingUp.ingot with want := some (2, 0, 0) }
     s.ingot.want ≠ none ∧ cutReady s 2 [] = true ∧ cutReady (put s [(FLK_CTRL, 1)]) 2 [1] = false) ∧
    (ingUp.ingot.chilled.contains 7 = false ∧
      (ingUp.withIngot { ingUp.ingot with chilled := [7] }).ingot.chilled.contains 7 = true) := by decide +kernel
/-- A ready device with device 9 as its ward and as its buddy, and a drain to it. -/
def drainUp (again : Option Nat) : State :=
  let s := put ingUp [(CUP_ING_WARD, 0x10009), (CUP_ING_BUDDY, 0x10009), (CUP_ING_BSTORE_SLOTS, 4), (CUP_ING_BSTORE_BASE_LO, 0x10000)]
  s.withIngot { s.ingot with drain := some (1, 2, 3, 4, again), wardGot := 1, wardSum := 5 }
theorem witness_IngotDrain :
    isWard up 9 = false ∧ up.mode = .ready ∧
    (let s := drainUp none
     isWard s 9 && [0, 1].all (fun n => n == (if n = 0 then 0 else s.ingot.wardGot) && decide (n < halfSlots s)) &&
      2 != s.ingot.wardGot && decide (1 ≤ halfSlots s) && s.ingot.wardGot == 1 && s.ingot.wardSum == 5 &&
      decide (2 ≤ halfSlots s) && s.ingot.drain == some (1, 2, 3, 4, none) && 9 == bits (rd s CUP_ING_BUDDY) 0 16) = true ∧
    (let s := drainUp (some 0)
     s.ingot.drain = some (1, 2, 3, 4, some 0) ∧ 0 ≤ tickNow s ∧ tickNow s < 1) := by decide +kernel
/-- A ready device after its first cut. -/
def cutUp (busy : Nat) : State :=
  let s := put ingUp [(CUP_ING_EPOCH, 1), (CUP_ING_TARGET, 1)]
  s.withIngot { s.ingot with images := [(1, [])], busy := busy }
theorem witness_IngotRestore :
    (cutUp 4).mode = .ready ∧ (cutUp 4).ingot.busy ≠ 0 ∧
    ((cutUp 0).ingot.busy = 0 ∧ restoreFails (cutUp 0) (rd (cutUp 0) CUP_ING_TARGET) = none ∧
      restoreFails (put (cutUp 0) [(CUP_ING_TARGET, 2)]) (rd (put (cutUp 0) [(CUP_ING_TARGET, 2)]) CUP_ING_TARGET) = some 1) ∧
    (cutUp 4).ingot.busy = 4 ∧ isSpare (cutUp 0) = false ∧
    (let s := put up [(SPR_SELF, 0x60000000), (CUP_ING_LOADSRC, 0x80000000)]
     isSpare s = true ∧ (ownAddress s).isSome = true ∧ s.ingot.busy = 0 ∧ (∀ x < 16, masked s x = false ∨ ctxState s x = 0) ∧
      rd s CUP_ING_LOADSRC = 2 ^ 31) ∧
    (let s := put (cutUp 5) [(CUP_ING_LOADSRC, 0x80000000)]
     s.ingot.busy = 5 ∧ bit (rd s CUP_ING_LOADSRC) 31 = true) := by decide +kernel
/-- An image cache with one profile, laid out after Tables 12.1 to 12.3: section 0 is of type 4 and index 0, at offset
4,096 and 3,136 bytes long; its CEIL is 48, its T_TARGET 85 °C, its POWER_LIMIT 1,000 W, and its pools are 8 flits. -/
def oneProfile : Sparse Byte :=
  [(16, 1), (17, 1), (256, 4), (261, 0x10), (264, 0x40), (265, 0x0C), (4115, 48), (4117, 85), (4118, 0xE8), (4119, 3)] ++
  (List.range 16).flatMap (fun x => [(4096 + 64 + 64 * x + 36, 8), (4096 + 64 + 64 * x + 40, 8)])
/-- A quench of profile 0 in progress. -/
def quenchUp (shake : Bool) (image : Sparse Byte) : State :=
  { up.withCup { up.cup with image := image, quench := some ⟨2, 0, shake, false, 0, .pcie⟩ } with mode := .quenching }
theorem witness_QuenchCourse :
    up.mode = .ready ∧
    ([0x50, 0xFFFF0000] : List Nat).all (fun v => decide (bits (v &&& 0xFFFF00F7) 4 3 = 0 ∨ 5 ≤ bits (v &&& 0xFFFF00F7) 4 3)) =
      true ∧
    ([0x10, 0x40] : List Nat).all (fun v => decide (1 ≤ bits (v &&& 0xFFFF00F7) 4 3) && decide (bits (v &&& 0xFFFF00F7) 4 3 ≤ 4) &&
      rd up CUP_QUENCH_ARM != v &&& 0xFFFF00F7) = true ∧
    (let s := (put (up.withCup { up.cup with armedAt := some 0 }) [(CUP_QUENCH_ARM, 0x70010)]).withClock { up.clock with now := 100000 }
     s.cup.armedAt = some 0 ∧ tickNow s ≤ 0 + 100000 ∧ bits 0x7FFFF 16 16 = bits (rd s CUP_QUENCH_ARM) 16 16 ∧
      bits 0x8FFFF 16 16 ≠ bits (rd s CUP_QUENCH_ARM) 16 16) ∧
    ((quenchUp true []).mode = .quenching ∧ (quenchUp true []).cup.quench = some ⟨2, 0, true, false, 0, .pcie⟩) ∧
    ((quenchUp false []).cup.quench = some ⟨2, 0, false, false, 0, .pcie⟩ ∧
      (applyProfile (quenchUp false []) 0 0 true).2 = false ∧ (applyProfile (quenchUp false oneProfile) 0 0 true).2 = true) := by
  decide +kernel
/-- What COLD_START meets: no finding of its own, with the test strap, or after three restarts. -/
def coldOf (straps : Nat) (restarts : List (Nat × Nat)) : ColdStart := ⟨straps, 0, 0, 0, [], [], [], restarts, 0, true, 100⟩
theorem witness_ColdStarts :
    up.mode ≠ .held ∧ State.reset.mode = .held ∧ State.reset.module_.rails = true ∧
    restartLimit (coldOf 0 [(0, 1), (1, 2), (1000000000, 1)]).restarts = some [1, 2, 1] ∧
    restartLimit (coldOf 0 [(0, 1), (1, 2), (1000000001, 1)]).restarts = none ∧
    (let u := advance ((mainReset State.reset).withModule { (mainReset State.reset).module_ with rstHeld := false, faultN := false }) 100
     bit (rd (latchStraps u (coldOf 0x2000000 [])) CUP_MOD_STRAPS) 25 = true ∧
      bit (rd (latchStraps u (coldOf 0 [])) CUP_MOD_STRAPS) 25 = false) := by decide +kernel
theorem witness_CupolaLoops :
    (up.mode = .ready ∧ up.cup.trip = false ∧ (up.withCup { up.cup with trip := true }).cup.trip = true) ∧
    ((up.withClock { up.clock with changing := some (48, 0), target := 48 }).clock.changing = some (48, 0)) ∧
    (let s := up.withClock { up.clock with now := 10000 }
     tickNow up < up.cup.passAt ∧ s.cup.passAt ≤ tickNow s) ∧
    (let s := up.withClock { up.clock with now := 360000000000 }
     s.cup.riskAt ≤ tickNow s ∧ tickNow up < up.cup.riskAt ∧ s.cup.decayAt ≤ tickNow s) ∧
    (48 < bits 49 0 6 ∧ (let s := put up [(CUP_VF_CEIL, 20)]
      vfCeil s < bits 21 0 6 ∧ s.integ.det = false ∧ vfFloor s ≤ bits 48 0 6 ∧ bits 48 0 6 ≤ 48 ∧ rd s CUP_VF_CEIL ≠ bits 48 0 6)) ∧
    (299 < 300 ∧ rd up (CUP_RISK_ACC 299) ≠ 1 ∧ 300 ≤ 300) := by decide +kernel
theorem witness_LoopStaysInLimits :
    up.integ.det = false ∧ vfFloor (put up [(CUP_VF_CEIL, 48)]) ≤ 0 ∧ 48 ≤ vfCeil (put up [(CUP_VF_CEIL, 48)]) := by decide +kernel
/-- A ready device that hears its I3C host. -/
def heard (s : State) : Bool := frameArrives s (.i3c 0)
theorem witness_ManagementFrames :
    frameArrives up (.mctp 0) = false ∧ heard up = true ∧
    (readActs up 0 8 0xFFFFFF8 = true ∧ readActs State.reset 0 4 0x1D03C = true ∧ readActs State.reset 0 4 0x1D040 = false ∧
      readActs up 2 4 0 = false) ∧
    writeActs up 0 4 0 = true ∧ serving up = true ∧ 564 < 565 ∧ 0 + 16 ≤ hlogSize := by decide +kernel
/-- The units 0 and 15, 16 and 271, 272 and 527, 528 and 563, and 564, each with an order that names it, and whether it is at
its boundary in a device whose contexts run, whose groups and links are up, and whose ingot is on. -/
def orderUp (idle : Bool) : State :=
  let s := put (linkIn 0 2 (fun l => { l with rx := if idle then [] else [((flitOf 0 0 true).hdr, [])] }))
    [(ALY_GRP_CTRL 0, 1), (CUP_ING_CTRL, 1)]
  let t := s.withTnd { s.tnd with states := [(0, if idle then 3 else 1)] }
  { setCru t 0 { cruOf t 0 with switching := if idle then none else some (none, 5) } with
    alloy := [(0, { AlyGroup.init with queue := if idle then [] else [(0, 0, false)] })] }
theorem witness_OrdersActAtBoundaries :
    heard up = true ∧
    ([(1, 0), (1, 15), (2, 0), (2, 15), (3, 0), (3, 15), (4, 16), (4, 271), (5, 272), (5, 527), (6, 528), (6, 563), (7, 528), (7, 563),
        (8, 528), (8, 563), (9, 564)] : List (Nat × Nat)).all (fun e => orderUnit e.1 e.2 && spGet up.cup.orders e.2 0 == 0) = true ∧
    ([(3, 15), (5, 527), (6, 563), (7, 563), (8, 563), (9, 564)] : List (Nat × Nat)).all (fun e => !orderApplies up e.2 e.1) = true ∧
    ([(1, 0), (2, 0), (3, 0), (4, 16), (5, 272), (6, 528), (7, 528), (8, 528), (9, 564)] : List (Nat × Nat)).all (fun e =>
      orderApplies (orderUp true) e.2 e.1 && orderBoundary (orderUp true) e.2 e.1) = true ∧
    ([(3, 0), (4, 16), (5, 272), (7, 528)] : List (Nat × Nat)).all (fun e => orderApplies (orderUp false) e.2 e.1 &&
      !orderBoundary (orderUp false) e.2 e.1) = true ∧
    ([true, false].all (fun b =>
      let s := (orderUp b).withCup { up.cup with orders := [(0, 3)] }
      spGet s.cup.orders 0 0 == 3 && orderApplies s 0 3 && orderBoundary s 0 3 == b)) = true := by decide +kernel
theorem witness_ImageDelivery :
    (heard up = true ∧ up.mode = .ready ∧ (0x1000000 : Nat) ≤ 0x1000000 ∧ (0x1000000 : Nat) < 0x1000001 ∧ up.cup.deliver = none ∧
      up.cup.fused = false ∧ (up.withCup { up.cup with fused := true }).cup.fused = true ∧ (List.replicate 48 (0 : Byte)).length = 48) ∧
    (let s := up.withCup { up.cup with deliver := some (8192, true) }
     s.cup.deliver = some (8192, true) ∧ ([1, 1024] : List Nat).all (fun n =>
      decide (1 ≤ (List.replicate n (0 : Byte)).length ∧ (List.replicate n (0 : Byte)).length ≤ 1024 ∧
        8192 - n + (List.replicate n (0 : Byte)).length ≤ 8192)) = true) ∧
    (up.withCup { up.cup with program := some ([], 8192) }).cup.program = some ([], 8192) := by decide +kernel
theorem witness_HeatLogCommands :
    (let s := { up with hlog := { up.hlog with tokens := [(0x101, 0), (0x102, 15)], refillAt := 0 } }
     s.hlog.refillAt ≤ tickNow s ∧ spRising s.hlog.tokens = true ∧ ∀ e ∈ s.hlog.tokens, e.2 < 16) ∧
    (tickNow up < up.hlog.refillAt ∧ up.mode = .ready ∧ up.hlog.clearing = none) ∧
    (let s := { up with hlog := { up.hlog with clearing := some (.pcie, 5, 0) } }
     s.hlog.clearing = some (.pcie, 5, 0) ∧ s.hlog.waiting = [] ∧ s.hlog.clearing ≠ none) := by decide +kernel
/-- A ready device at a tick, with a boundary value and W registers. -/
def meterUp (now w last seq : Nat) (armed : Option (Nat × Nat × Nat)) : State :=
  ((put up [(MTR_CLOSE_WALL_LO, w), (MTR_LAST_CLOSED_LO, last), (MTR_SEQ, seq)]).withMeters { up.meters with armed := armed }).withClock
    { up.clock with now := now }
/-- The boundary that a device's W maps to. -/
def boundaryOf (s : State) : Int := boundary s.meters.mapTick s.meters.mapWall (rd64 s MTR_CLOSE_WALL_LO)
theorem witness_MeterCommands :
    up.mode = .ready ∧
    (let s := meterUp 1000 1000 1000 0 none
     boundaryOf s ≤ rd64 s MTR_LAST_CLOSED_LO) ∧
    (let s := meterUp 50 1000 0 0 none
     rd64 s MTR_LAST_CLOSED_LO < boundaryOf s ∧ tickNow s < boundaryOf s) ∧
    (let s := meterUp 1000 1000 0 63 none
     rd64 s MTR_LAST_CLOSED_LO < boundaryOf s ∧ boundaryOf s ≤ tickNow s ∧ (2 ^ 32 + rd s MTR_SEQ - rd s MTR_ACK) % 2 ^ 32 < 64) ∧
    (let s := meterUp 99 0 0 63 (some (100, 0, 0))
     s.meters.armed = some (100, 0, 0) ∧ tickNow s < 100) ∧
    (let s := meterUp 100 0 0 63 (some (100, 0, 0))
     100 ≤ tickNow s ∧ (2 ^ 32 + rd s MTR_SEQ - rd s MTR_ACK) % 2 ^ 32 < 64) ∧
    (let s := meterUp 100 0 0 64 (some (100, 0, 0))
     100 ≤ tickNow s ∧ 64 ≤ (2 ^ 32 + rd s MTR_SEQ - rd s MTR_ACK) % 2 ^ 32) ∧
    rd up MTR_ACK ≠ (0xFFFFFFFF#32).toNat ∧
    (let s := meterUp 100000 0 0 0 none
     s.meters.rangeAt ≤ tickNow s ∧ ∀ x < 16, ctxState s x = 0) := by decide +kernel
/-- A ready device with its module's state changed. -/
def modUp (f : Module → Module) : State := up.withModule (f up.module_)
theorem witness_ModuleSupply :
    (up.module_.cut = false ∧ up.module_.aux = true ∧ (48000 : Int) ≤ 48000 ∧ (58000 : Int) ≤ 58000 ∧ (60000 : Int) < 60001 ∧
      (35999 : Int) < 36000) ∧
    (let s := modUp (fun m => { m with cut := true, below58 := some 0, now := 10000000 })
     s.module_.below58 = some 0 ∧ s.module_.cut = true ∧ 0 + 10000000 ≤ s.module_.now) ∧
    (let s := modUp (fun m => { m with sagging := some 0, now := 100000 })
     s.module_.sagging = some 0 ∧ s.module_.rails = true ∧ 0 + 100000 ≤ s.module_.now) ∧
    (let s := modUp (fun m => { m with pwrEn := false, vin := 46000, rails := false })
     s.module_.pwrEn = false ∧ s.module_.aux = true ∧ 46000 ≤ s.module_.vin ∧ s.module_.thermal = false ∧ s.module_.rails = false) ∧
    (up.module_.pwrEn = true ∧ up.module_.rails = true ∧ up.module_.i3cOff = none) ∧
    (modUp (fun m => { m with i3cOff := some (0, 1) })).module_.i3cOff = some (0, 1) := by decide +kernel
theorem witness_ModuleMonitors :
    (up.module_.pcieUp = false ∧ (modUp (fun m => { m with pcieUp := true })).module_.pcieUp = true ∧ serving up = true) ∧
    (up.mode = .ready ∧ (8 : Nat) ≠ 9 ∧
      repeatedTrip ((up.module_.trips ++ [(up.module_.now, 8)]).drop (up.module_.trips.length - 2)) = none) ∧
    (up.module_.holdover = none ∧ up.module_.rails = true ∧
      (modUp (fun m => { m with holdover := some (0, 1) })).module_.holdover = some (0, 1)) := by decide +kernel
theorem witness_JtagInstructions :
    (up.module_.rstHeld = true ∨ bit (rd up CUP_MOD_CTRL) 0 = true) ∧
    (let s := modUp (fun m => { m with rstHeld := false })
     s.module_.rstHeld = false ∧ bit (rd s CUP_MOD_CTRL) 0 = false ∧
      (put s [(CUP_MOD_CTRL, 1)]).module_.rstHeld = false ∧ bit (rd (put s [(CUP_MOD_CTRL, 1)]) CUP_MOD_CTRL) 0 = true) := by
  decide +kernel
theorem witness_CounterLatches :
    up.mode = .ready ∧ ([TND_SWITCH_CNT_LO, FLK_REMOTE_CNT_LO] : List Nat).all (fun o => o % 8 == 0 && (o + 4) % 8 == 4 &&
      pairOf o == some o && pairOf (o + 4) == some (o + 4 - 4)) = true := by decide +kernel
theorem witness_RegisterAccesses :
    (up.mode = .ready ∧ calmB up = true ∧ (blockRows 0xFFFFFFC = none ∨ (3 : Nat) < 4)) ∧
    (blockRows GLB_BAR2_BASE ≠ none ∧ GLB_BAR2_BASE % 4 = 0 ∧ calmB (regWrite up (.i3c 0) GLB_BAR2_BASE 7) = true) ∧
    (let s := put up [(GLB_BAR2_BASE, 0x200)]
     hostMapped s (2 ^ 30 * bits (rd s GLB_BAR2_BASE) 0 18 + 0 % 2 ^ 38) 4 = false ∧ hostMapped s (bar2Addr s 0) 4 = false) ∧
    (hostMapped up (bar2Addr up 0) 4 = true ∧ calmB (hostRead up .pcie 0 (bar2Addr up 0) 4) = true ∧
      memoryBarred up (bar2Addr up 0) 4 = none ∧
      calmB ((enabledRuns 0 [some 1, none, none, some 2]).foldl (fun st r => hostWrite st .pcie (bar2Addr up 0 + r.1) r.2) up) = true) ∧
    rd up GLB_BAR2_BASE ≠ (0x3FFFF#32).toNat % 2 ^ 18 := by decide +kernel
theorem witness_SemaphoreAdditions :
    (255 < 256 ∧ 15 < 16 ∧ 63 < 64 ∧ 263 < 264) ∧
    (let s := put up [(CRU_SEM 255 15 63, 0xFFFFFFFE)]
     rd s (CRU_SEM 255 15 63) + 1 < 2 ^ 32 ∧ 2 ^ 32 ≤ rd s (CRU_SEM 255 15 63) + 2) := by decide +kernel
theorem witness_K4iElements : (0 : Nat) ≤ 7 ∧ (7 : Nat) ≤ 7 ∧ (1 : Nat) ≤ 1 ∧ 9 ∈ (convBlock .k4i ⟨none, false, true⟩ (fun _ => .rne)
    (fp32s ([0xC0E00000] ++ List.replicate 31 0))).2.1 := by decide +kernel

end Sys2Proof.Tests
end

section
/-! The codes of the block formats: what a decoded K4i code is, and which codes a block conversion writes (R24, R29 to
R32). -/
namespace Sys2Proof.Machine

/-- A K4i code up to 7 is its own value. -/
theorem elemValue_k4i_nonneg {n : Nat} (h : n ≤ 7) : elemValue .k4i n = (.fin false n 0, false) := by
  have hmod : n % 16 = n := Nat.mod_eq_of_lt (by omega)
  have hne : n ≠ 8 := by omega
  have hlt : n < 8 := by omega
  simp only [elemValue, hmod, if_neg hne, if_pos hlt]

/-- The two's complement of 1 to 7 is a negative K4i code. -/
theorem elemValue_k4i_neg {n : Nat} (h1 : 1 ≤ n) (h7 : n ≤ 7) :
    elemValue .k4i (16 - n) = (.fin true n 0, false) := by
  have hmod : (16 - n) % 16 = 16 - n := Nat.mod_eq_of_lt (by omega)
  have hne : 16 - n ≠ 8 := by omega
  have hge : ¬ 16 - n < 8 := by omega
  have hback : 16 - (16 - n) = n := by omega
  simp only [elemValue, hmod, if_neg hne, if_neg hge, hback]

/-- Code 1000, and it alone, is an invalid K4i code. -/
theorem elemValue_k4i_invalid (c : Nat) : (elemValue .k4i c).2 = (c % 16 == 8) := by
  by_cases h : c % 16 = 8
  · simp [elemValue, h]
  · simp only [elemValue, if_neg h, beq_eq_false_iff_ne.mpr h]
    split <;> rfl

/-- A block counts the invalid codes of its elements. -/
theorem decodeBlock_invalid (k : BlockKind) (scale : Nat) (codes : List Nat) :
    (decodeBlock k scale codes).2 = codes.countP (fun c => (elemValue k c).2) :=
  List.countP_map

/-- A K4i element is written as a magnitude of at most Emax = 7, in two's complement where it is negative. -/
theorem blockElem_k4i (md : Rounding) (scale : Nat × Int) (neg : Bool) (m : Nat) (e : Int) :
    ∃ v ≤ 7, (blockElem .k4i md scale neg m e).1 = if neg && v != 0 then 16 - v else v := by
  have clamped (n : Nat) : (if decide (7 < n) then 7 else n) ≤ 7 := by
    split
    · exact Nat.le_refl 7
    · next h => simpa using h
  exact ⟨_, clamped _, rfl⟩

/-- A written K4i element is a 4-bit code other than 1000. -/
theorem blockElem_k4i_valid (md : Rounding) (scale : Nat × Int) (neg : Bool) (m : Nat) (e : Int) :
    (blockElem .k4i md scale neg m e).1 < 16 ∧ (blockElem .k4i md scale neg m e).1 ≠ 8 := by
  obtain ⟨v, hv, hcode⟩ := blockElem_k4i md scale neg m e
  rw [hcode]
  split
  · next hneg =>
    have hv0 : v ≠ 0 := by
      intro h
      simp [h] at hneg
    omega
  · omega

/-- What a block conversion without non-finite elements of its own can write: the zero element, or a rounded element
of a finite input. -/
theorem mem_convBlock_codes {k : BlockKind} (hk : k.mx8 = false) {o : BlockOpts} {rnd : Nat → Rounding} {xs : List Fp}
    {c : Nat} (hc : c ∈ (convBlock k o rnd xs).2.1) :
    c = zeroElem k ∨ ∃ i scale neg m e, .fin neg m e ∈ xs ∧ c = (blockElem k (rnd i) scale neg m e).1 := by
  unfold convBlock at hc
  dsimp only at hc
  split at hc
  · exact .inl (List.eq_of_mem_map_const hc)
  · next scale _ =>
    split at hc
    · exact .inl (List.eq_of_mem_map_const hc)
    · next hbad =>
      have hfin : ∀ x ∈ xs, fpFinite x = true := by
        simpa [hk, List.countP_eq_zero] using hbad
      right
      simp only [List.map_map, List.mem_map] at hc
      obtain ⟨⟨x, i⟩, hx, rfl⟩ := hc
      have hmem : x ∈ xs := List.fst_mem_of_mem_zipIdx hx
      cases x with
      | fin neg m e => exact ⟨i, scale, neg, m, e, hmem, rfl⟩
      | inf neg => exact absurd (hfin _ hmem) (by simp [fpFinite])
      | nan => exact absurd (hfin _ hmem) (by simp [fpFinite])

/-- A conversion to K4i writes 4-bit codes other than 1000. -/
theorem convBlock_k4i_valid {o : BlockOpts} {rnd : Nat → Rounding} {xs : List Fp} {c : Nat}
    (hc : c ∈ (convBlock .k4i o rnd xs).2.1) : c < 16 ∧ c ≠ 8 := by
  obtain rfl | ⟨i, scale, neg, m, e, -, rfl⟩ := mem_convBlock_codes rfl hc
  · decide
  · exact blockElem_k4i_valid (rnd i) scale neg m e

/-- Settles O60: the decoder's cases give the values and the one invalid code, and a written element is the zero code
or a magnitude clamped to 7. -/
theorem k4iElements : Obligations.K4iElements := by
  unfold Obligations.K4iElements
  refine ⟨fun _ => elemValue_k4i_nonneg, fun _ => elemValue_k4i_neg, rfl, fun scale codes => ?_,
    fun _ _ _ _ => convBlock_k4i_valid⟩
  rw [decodeBlock_invalid]
  simp only [elemValue_k4i_invalid]

end Sys2Proof.Machine
end

section
/-! The registers of the queues and of the crucible semaphores beside the recorder: they are distinct, recording an event
reaches none of them, and a discard walk with nothing to discard changes nothing (R94, R140, R470). -/
namespace Sys2Proof.Machine
open Reg

/-- The low field of a number. -/
theorem bits_zero (n w : Nat) : bits n 0 w = n % 2 ^ w := by
  simp [bits]

/-- The registers below the count of dropped host writes or beyond the HLG block are none of the recorder's. -/
theorem logReg_eq_false {o : Nat} (h : o < CUP_MOD_HOSTDROP_CNT_LO ∨ 0x30000 ≤ o) : logReg o = false := by
  simp only [logReg, CUP_MOD_HOSTDROP_CNT_LO, CUP_MOD_HOSTDROP_CNT_HI, Bool.or_eq_false_iff, Bool.and_eq_false_iff,
    decide_eq_false_iff_not, beq_eq_false_iff_ne] at h ⊢
  omega

theorem le_qReg (k off : Nat) : 0x1001000 ≤ qReg k off := by
  unfold qReg CRU_Q_CTRL
  omega

theorem logReg_qReg (k off : Nat) : logReg (qReg k off) = false :=
  logReg_eq_false (.inr (le_trans (by decide) (le_qReg k off)))

@[simp] theorem qReg_inj {k a b : Nat} : qReg k a = qReg k b ↔ a = b := Nat.add_left_cancel_iff

/-- Recording an event leaves every register of a queue. -/
theorem recordsOnly_qReg {s t : State} (h : recordsOnly s t) (k off : Nat) : rd t (qReg k off) = rd s (qReg k off) :=
  recordsOnly_rd h _ (logReg_qReg k off)

/-- Recording an event leaves the queues' records. -/
theorem recordsOnly_qOf {s t : State} (h : recordsOnly s t) (k : Nat) : qOf t k = qOf s k := by
  rw [h.1]
  rfl

@[simp] theorem rd_logAccepted_qReg (s : State) (src : Src) (sp a v k off : Nat) :
    rd (logAccepted s src sp a v) (qReg k off) = rd s (qReg k off) :=
  recordsOnly_qReg (recordsOnly_logAccepted s src sp a v) k off

@[simp] theorem rd_logAccIf_qReg (note : Bool) (s : State) (src : Src) (a v k off : Nat) :
    rd (logAccIf note s src a v) (qReg k off) = rd s (qReg k off) :=
  recordsOnly_qReg (recordsOnly_logAccIf note s src a v) k off

@[simp] theorem qOf_logAccIf (note : Bool) (s : State) (src : Src) (a v k : Nat) :
    qOf (logAccIf note s src a v) k = qOf s k :=
  recordsOnly_qOf (recordsOnly_logAccIf note s src a v) k

/-- A queue that discards no command, or has no word published, walks nowhere. -/
theorem runWalk_eq_self {s : State} {k : Nat} (h : (qOf s k).walk = none ∨ qAvail s k = 0) : runWalk s k = s := by
  unfold runWalk
  split
  · unfold discardWalk
    obtain hw | ha := h
    · simp only [hw]
    · cases hw : (qOf s k).walk with
      | none => simp only [hw]
      | some n => simp only [hw, ha, if_true]
  · rfl

/-- A record for a ring that is off is not kept (R137). -/
theorem putRecord_cqOff {s : State} {k : Nat} (h : cqOn s k = false) (r : Record) : putRecord s k r = s := by
  simp [putRecord, h]

end Sys2Proof.Machine
end

section
/-! Doorbells: what the commands of the doorbell region do in READY (R96). -/
namespace Sys2Proof.Machine
open Reg

/-- In READY a doorbell within the region is the write that it carries. -/
theorem exec_doorbell_ready {s : State} (hr : s.mode = .ready) (src : Src) {off : Nat} (hoff : off < 0x200000)
    (width value : Nat) : exec (.doorbell src off width value) s = .next (doorbellWrite s src off width value) := by
  show execDoorbell src off width value s = _
  simp only [execDoorbell, isReady, hr, beq_self_eq_true, Bool.not_true, Bool.false_eq_true, if_false,
    if_neg (Nat.not_le.mpr hoff)]

/-- In READY a doorbell beyond the region is discarded. -/
theorem exec_doorbell_outside {s : State} (hr : s.mode = .ready) (src : Src) {off : Nat} (hoff : 0x200000 ≤ off)
    (width value : Nat) : exec (.doorbell src off width value) s = .next (logDiscard s src off width 7) := by
  show execDoorbell src off width value s = _
  simp only [execDoorbell, isReady, hr, beq_self_eq_true, Bool.not_true, Bool.false_eq_true, if_false, if_pos hoff]

/-- A well-formed doorbell write at a queue's place is a doorbell of that queue. -/
theorem doorbellWrite_queue (s : State) (src : Src) (k : Nat) {count : Nat} (h1 : 1 ≤ count) (h16 : count < 2 ^ 16) :
    doorbellWrite s src (k * 0x40) 4 count = doorbell s src k count (k * 0x40) := by
  have hok : ¬ (k * 0x40 % 0x40 ≠ 0 ∨ 4 ≠ 4 ∨ count % 2 ^ 16 = 0 ∨ 2 ^ 16 ≤ count) := by omega
  rw [doorbellWrite, if_neg hok, Nat.mul_div_cancel k (by decide)]

/-- A doorbell that an enabled queue has room for publishes its words. -/
theorem doorbell_published {s : State} {k count : Nat} (hen : qEnabled s k = true)
    (hroom : qAvail s k + count ≤ qSize s k) (hw : (qOf s k).walk = none) (src : Src) (off : Nat) :
    doorbell s src k count off = setReg s (qReg k 0x10) (qPub s k + count) := by
  simp only [doorbell, hen, Bool.not_true, Bool.false_eq_true, if_false, if_neg (Nat.not_lt.mpr hroom)]
  exact runWalk_eq_self (.inl hw)

theorem recordsOnly_discardDoorbell (s : State) (src : Src) (k count off : Nat) :
    recordsOnly s (discardDoorbell s src k count off) :=
  recordsOnly_trans (recordsOnly_logSrc s 0x0202 src _ (by decide)) (recordsOnly_logDiscard _ src off 4 11)

/-- A doorbell to a disabled queue, or for more than the ring has room for, leaves its events only. -/
theorem recordsOnly_doorbell {s : State} {k count : Nat}
    (h : qEnabled s k = false ∨ qSize s k < qAvail s k + count) (src : Src) (off : Nat) :
    recordsOnly s (doorbell s src k count off) := by
  have hd := recordsOnly_discardDoorbell s src k count off
  cases hen : qEnabled s k with
  | false => simpa [doorbell, hen] using hd
  | true =>
    have hfull : qSize s k < qAvail s k + count := h.resolve_left (by simp [hen])
    simpa [doorbell, hen, hfull] using hd

/-- Settles O9: a doorbell is published or discarded, and a discard leaves its events only. -/
theorem doorbells : Obligations.Doorbells := by
  unfold Obligations.Doorbells
  refine ⟨fun src k count s hr hk h1 h16 hen hroom hw => ?_, fun src off width value s hr hbad => ?_,
    fun src k count s hr hk h1 h16 hbad => ?_⟩
  · rw [exec_doorbell_ready hr src (by omega), doorbellWrite_queue s src k h1 h16, doorbell_published hen hroom hw]
  · by_cases hoff : 0x200000 ≤ off
    · exact ⟨_, exec_doorbell_outside hr src hoff width value, recordsOnly_logDiscard s src off width 7⟩
    · refine ⟨_, exec_doorbell_ready hr src (Nat.lt_of_not_le hoff) width value, ?_⟩
      rw [doorbellWrite, if_pos (hbad.resolve_left hoff)]
      exact recordsOnly_logDiscard s src off width 11
  · refine ⟨_, exec_doorbell_ready hr src (by omega) 4 count, ?_⟩
    rw [doorbellWrite_queue s src k h1 h16]
    exact recordsOnly_doorbell hbad src _

end Sys2Proof.Machine
end

section
/-! Crucible semaphores: where they stand among the registers, and what an addition does (R115). -/
namespace Sys2Proof.Machine
open Reg

theorem logReg_CRU_SEM (c x sem : Nat) : logReg (CRU_SEM c x sem) = false :=
  logReg_eq_false (.inr (by unfold CRU_SEM; omega))

/-- Neither half of a gate counter, in the CRU instances or in the spare window, is a register of the recorder's. -/
theorem logReg_gateCnt {p k : Nat} (hp : p < 264) (hk : k ≤ 10) :
    logReg (gateCnt p k) = false ∧ logReg (gateCnt p k + 4) = false := by
  unfold gateCnt
  split
  · constructor <;> exact logReg_eq_false (.inr (by unfold CRU_BUSY_CNT_LO; omega))
  · constructor <;> exact logReg_eq_false (.inl (by unfold GLB_SPARE_BUSY_CNT_LO CUP_MOD_HOSTDROP_CNT_LO; omega))

/-- A semaphore is neither half of a gate counter. -/
theorem CRU_SEM_ne_gateCnt (c : Nat) {x sem p k : Nat} (hx : x < 16) (hs : sem < 64) (hp : p < 264) (hk : k ≤ 10) :
    CRU_SEM c x sem ≠ gateCnt p k ∧ CRU_SEM c x sem ≠ gateCnt p k + 4 := by
  unfold gateCnt CRU_SEM CRU_BUSY_CNT_LO GLB_SPARE_BUSY_CNT_LO
  split <;> omega

/-- An addition that does not pass the largest value writes the sum. -/
theorem semAdd_fits {s : State} {c x sem n : Nat} (h : rd s (CRU_SEM c x sem) + n < 2 ^ 32) (p item : Nat) :
    semAdd s c x sem n p item = setReg s (CRU_SEM c x sem) (rd s (CRU_SEM c x sem) + n) := by
  simp only [semAdd, if_neg (Nat.not_le.mpr h)]

/-- The registers of a saturating addition before its event: the semaphore at its largest value, and one more
saturation of the crucible. -/
def semSaturated (s : State) (c x sem p : Nat) : State :=
  cntAdd (setReg s (CRU_SEM c x sem) 0xFFFFFFFF) (gateCnt p 10) 1

/-- An addition that would pass the largest value saturates, counts and records event 0x0210. -/
theorem semAdd_saturates {s : State} {c x sem n : Nat} (h : 2 ^ 32 ≤ rd s (CRU_SEM c x sem) + n) (p item : Nat) :
    semAdd s c x sem n p item = logCtx (semSaturated s c x sem p) 0x0210 (16 + c) x 0 [c, x, sem, item] := by
  simp only [semAdd, if_pos h, semSaturated]

theorem rd_semSaturated_sem (s : State) (c : Nat) {x sem p : Nat} (hx : x < 16) (hs : sem < 64) (hp : p < 264) :
    rd (semSaturated s c x sem p) (CRU_SEM c x sem) = 0xFFFFFFFF := by
  obtain ⟨hlo, hhi⟩ := CRU_SEM_ne_gateCnt c hx hs hp (le_refl 10)
  rw [semSaturated, rd_cntAdd_ne _ _ _ _ hlo hhi]
  exact rd_setReg_same s _ _

theorem rd64_semSaturated_cnt (s : State) (c : Nat) {x sem p : Nat} (hx : x < 16) (hs : sem < 64) (hp : p < 264) :
    rd64 (semSaturated s c x sem p) (gateCnt p 10) = (rd64 s (gateCnt p 10) + 1) % 2 ^ 64 := by
  obtain ⟨hlo, hhi⟩ := CRU_SEM_ne_gateCnt c hx hs hp (le_refl 10)
  have hsem : rd64 (setReg s (CRU_SEM c x sem) 0xFFFFFFFF) (gateCnt p 10) = rd64 s (gateCnt p 10) := by
    rw [rd64, rd_setReg_ne _ _ _ _ hlo.symm, rd_setReg_ne _ _ _ _ hhi.symm, rd64]
  rw [semSaturated, rd64_cntAdd_same, hsem]

theorem rd_semSaturated_ne (s : State) {c x sem p o : Nat} (ho : o ≠ CRU_SEM c x sem) (hlo : o ≠ gateCnt p 10)
    (hhi : o ≠ gateCnt p 10 + 4) : rd (semSaturated s c x sem p) o = rd s o := by
  rw [semSaturated, rd_cntAdd_ne _ _ _ _ hlo hhi, rd_setReg_ne _ _ _ _ ho]

/-- Settles O59: the sum is written, or the saturated registers are what the event then leaves. -/
theorem semaphoreAdditions : Obligations.SemaphoreAdditions := by
  unfold Obligations.SemaphoreAdditions
  intro c x sem n p item s _ hx hs hp
  refine ⟨fun hfit => ?_, fun hsat => ?_⟩
  · rw [semAdd_fits hfit]
    exact ⟨(rd_setReg_same _ _ _).trans (Nat.mod_eq_of_lt hfit), fun o ho => rd_setReg_ne _ _ _ _ ho⟩
  · rw [semAdd_saturates hsat]
    have hrec := recordsOnly_logCtx (semSaturated s c x sem p) 0x0210 (16 + c) x 0 [c, x, sem, item] (by decide)
    obtain ⟨hlo, hhi⟩ := logReg_gateCnt hp (le_refl 10)
    refine ⟨?_, ?_, fun o hlog ho ho0 ho4 => ?_, _, rfl⟩
    · rw [recordsOnly_rd hrec _ (logReg_CRU_SEM c x sem), rd_semSaturated_sem s c hx hs hp]
    · rw [rd64, recordsOnly_rd hrec _ hlo, recordsOnly_rd hrec _ hhi]
      exact rd64_semSaturated_cnt s c hx hs hp
    · rw [recordsOnly_rd hrec o hlog, rd_semSaturated_ne s ho ho0 ho4]

end Sys2Proof.Machine
end

section
/-! The gate's own items: what each command does with the item that may issue (R104, R105, R113, R116, R117, R120). -/
namespace Sys2Proof.Machine
open Reg

section
variable {c x q : Nat} {s : State} {i : Item}

theorem exec_nop_issuable (h : issuable s (qKey c x q) 0x00 = some i) :
    exec (.nop c x q) s = .next (completeItem s (qKey c x q) { i with phys := physOf s c } 0 0) := by
  show execNop c x q s = _
  simp only [execNop, h]

/-- The state with the highest step number that a queue has issued raised to an item's (R250). -/
def raiseIssued (s : State) (k step : Nat) : State :=
  s.withTnd { s.tnd with issued := spPut s.tnd.issued k (max (spGet s.tnd.issued k 0) step) 0 }

theorem exec_step_issuable (h : issuable s (qKey c x q) 0x02 = some i) (hf : flipHolds s (qKey c x q) i = false) :
    exec (.step c x q) s =
      .next (completeItem (raiseIssued s (qKey c x q) (i.w 1)) (qKey c x q) { i with phys := physOf s c } 0 0) := by
  show execStep c x q s = _
  simp only [execStep, h, hf, Bool.false_eq_true, if_false]
  rfl

theorem exec_semSignal_issuable (h : issuable s (qKey c x q) 0x60 = some i) :
    exec (.semSignal c x q) s = .next (completeItem (applySignal s c x (physOf s c) (i.w 1)) (qKey c x q)
      { i with phys := physOf s c } 0 0) := by
  show execSemSignal c x q s = _
  simp only [execSemSignal, h]

theorem exec_semSet_issuable (h : issuable s (qKey c x q) 0x63 = some i) :
    exec (.semSet c x q) s = .next (completeItem (setReg s (CRU_SEM c x (i.w 1 % 64)) (i.w 2)) (qKey c x q)
      { i with phys := physOf s c } 0 0) := by
  show execSemSet c x q s = _
  simp only [execSemSet, h, bits_zero]
  rfl

/-- A wait that is evaluated below its target waits (R117). -/
theorem evalWait_below {k : Nat} (h : rd s (CRU_SEM (qCru k) (qCtx k) (i.w 1 % 64)) < i.w 2) : evalWait s k i = s := by
  simp only [evalWait, bits_zero]
  exact if_pos h

/-- A wait without DEC that has reached its target completes (R117). -/
theorem evalWait_plain {k : Nat} (h : i.w 2 ≤ rd s (CRU_SEM (qCru k) (qCtx k) (i.w 1 % 64)))
    (hd : bit (i.w 1) 8 = false) : evalWait s k i = completeItem s k i 0 0 := by
  simp only [evalWait, bits_zero, hd, Bool.false_and, Bool.false_eq_true, if_false]
  exact if_neg (Nat.not_lt.mpr h)

/-- A wait with DEC, alone on its semaphore, that has reached its target subtracts it and completes; no choice among
waits is counted (R120). -/
theorem evalWait_dec {k : Nat} (h : i.w 2 ≤ rd s (CRU_SEM (qCru k) (qCtx k) (i.w 1 % 64)))
    (hd : bit (i.w 1) 8 = true) (halone : otherDecWaits s (qCru k) (qCtx k) (i.w 1 % 64) k i.index = []) :
    evalWait s k i = completeItem (setReg s (CRU_SEM (qCru k) (qCtx k) (i.w 1 % 64))
      (rd s (CRU_SEM (qCru k) (qCtx k) (i.w 1 % 64)) - i.w 2)) k i 0 0 := by
  have halone' : otherDecWaits s (qCru k) (qCtx k) (i.w 1 % 2 ^ 6) k i.index = [] := halone
  simp only [evalWait, bits_zero, hd, halone', List.map_nil, someUnmet, Bool.and_false, Bool.false_eq_true, if_false,
    if_true]
  exact if_neg (Nat.not_lt.mpr h)

/-- A SEM_WAIT item at issue, which takes its place in the order of waits. -/
def issuedWait (s : State) (c : Nat) (i : Item) : Item :=
  { i with phase := .issued, phys := physOf s c, began := s.tnd.order }

/-- The state once a SEM_WAIT item has issued, before it is evaluated. -/
def issueWait (s : State) (c k : Nat) (i : Item) : State :=
  setItem (s.withTnd { s.tnd with order := s.tnd.order + 1 }) k i.index (fun _ => issuedWait s c i)

/-- SEM_WAIT issues its item and evaluates it at once (R117). -/
theorem exec_semWait_issuable (h : issuable s (qKey c x q) 0x61 = some i) :
    exec (.semWait c x q) s =
      .next (evalWait (issueWait s c (qKey c x q) i) (qKey c x q) (issuedWait s c i)) := by
  show execSemWait c x q s = _
  simp only [execSemWait, h]
  rfl

/-- SEM_WAIT_SATISFIED evaluates the waiting item whose turn it is (R120). -/
theorem exec_semWaitSatisfied_turn
    (h : (qOf s (qKey c x q)).items.find? (fun j => j.op == 0x61 && j.phase == .issued) = some i)
    (hon : onCrucible s (qKey c x q) = true) (hturn : (bit (i.w 1) 8 && earlierWait s c x q i) = false) :
    exec (.semWaitSatisfied c x q) s = .next (evalWait s (qKey c x q) i) := by
  show execSemWaitSatisfied c x q s = _
  simp only [execSemWaitSatisfied, h, hon, hturn, Bool.not_true, Bool.or_false, Bool.false_eq_true, if_false]

end

/-- Settles O12: each command issues its item, and the wait's evaluation has one lemma for each of its outcomes. -/
theorem gateItems : Obligations.GateItems := by
  unfold Obligations.GateItems
  intro c x q s i hc hx
  refine ⟨exec_nop_issuable, fun h hf => ⟨_, exec_step_issuable h hf, rfl, spGet_spPut_same _ _ _ _⟩,
    exec_semSignal_issuable, fun h => ⟨_, exec_semSet_issuable h, rfl, ?_, fun o ho => rd_setReg_ne _ _ _ _ ho⟩,
    fun h hlt => ?_, fun h hle hd => ?_, fun h hon hle => ⟨fun hd => ?_, fun hd hturn halone => ?_⟩⟩
  · exact (rd_setReg_same _ _ _).trans (Nat.mod_eq_of_lt (i.words.getD 2 0).isLt)
  · rw [exec_semWait_issuable h, evalWait_below (by rw [hc, hx]; exact hlt)]
    rfl
  · rw [exec_semWait_issuable h, evalWait_plain (i := issuedWait s c i) (by rw [hc, hx]; exact hle) hd]
    rfl
  · rw [exec_semWaitSatisfied_turn h hon (by simp [hd]), evalWait_plain (by rw [hc, hx]; exact hle) hd]
  · rw [exec_semWaitSatisfied_turn h hon (by simp [hturn]),
      evalWait_dec (by rw [hc, hx]; exact hle) hd (by rw [hc, hx]; exact halone), hc, hx]

end Sys2Proof.Machine
end

section
/-! The register commands of a queue and of a crucible semaphore: what each does in READY, and what it leaves in the
registers and in the queue's record (R119, R134, R139, R140, R517, R518). -/
namespace Sys2Proof.Machine
open Reg

section
variable {s : State} {k : Nat}

/-- The index of the first word that a flush drops: PUB less the words held of a partial item (R133, R134). -/
def flushStart (s : State) (k : Nat) : Nat := (2 ^ 32 + qPub s k - qHeld s k) % 2 ^ 32

/-- A flush that is accepted takes PUB and RESTART back to where it starts, and counts in FLUSHED the words up to WR
(R134). No record is kept while the ring is off. -/
theorem flush_accepted (src : Src) {wr : Nat} (hen : qEnabled s k = true) (hoff : cqOn s k = false)
    (hback : (2 ^ 32 + wr - qPub s k) % 2 ^ 32 < 2 ^ 31)
    (hroom : (2 ^ 32 + wr - qHead s k) % 2 ^ 32 ≤ qSize s k) :
    ∃ u, recordsOnly (setReg s (qReg k 0x18) wr) u ∧
      recordsOnly (setReg (setReg (setReg u (qReg k 0x10) (flushStart s k)) (qReg k 0x20) (flushStart s k))
        (qReg k 0x1C) ((2 ^ 32 + wr - flushStart s k) % 2 ^ 32)) (flush s src k wr) := by
  have hok : ¬ (2 ^ 31 ≤ (2 ^ 32 + wr - qPub s k) % 2 ^ 32 ∨ qSize s k < (2 ^ 32 + wr - qHead s k) % 2 ^ 32) := by
    omega
  refine ⟨_, recordsOnly_logAccepted _ src 0 (qReg k 0x18) wr, ?_⟩
  simp only [flush, hen, Bool.not_true, Bool.false_eq_true, if_false, if_neg hok]
  rw [putRecord_cqOff]
  · exact recordsOnly_logCtx _ _ _ _ _ _ (by decide)
  · simpa [cqOn, rd_setReg] using hoff

/-- Enabling a queue whose ring is in order writes ENABLE and SIZE and records the write (R518). -/
theorem recordsOnly_queueEnable (src : Src) {size : Nat} (hdis : qEnabled s k = false) (hsize : size ≤ 8)
    (hok : enableOk s k (1 + size * 16) = true) (hw : (qOf s k).walk = none) :
    recordsOnly (setReg s (qReg k 0) (1 + size * 16)) (queueEnable s src k size) := by
  have hbit : bit (rd s (qReg k 0)) 0 = false := hdis
  simp only [queueEnable, hbit, hok, Bool.not_true, Bool.false_eq_true, or_false, if_false,
    if_neg (Nat.not_lt.mpr hsize)]
  rw [runWalk_eq_self (.inl (by rw [qOf_logAccIf, qOf_setReg, hw]))]
  exact recordsOnly_logAccIf _ _ _ _ _

/-- Disabling an enabled queue clears ENABLE, the lowest bit, and records the write (R518). -/
theorem recordsOnly_queueDisable (src : Src) (hen : qEnabled s k = true) :
    recordsOnly (setReg s (qReg k 0) (rd s (qReg k 0) - 1)) (queueDisable s src k) := by
  have hbit : bit (rd s (qReg k 0)) 0 = true := hen
  simp only [queueDisable, hbit, if_true]
  exact recordsOnly_logAccIf _ _ _ _ _

/-- An enabled queue shows ENABLE and its ring size (R94, R518). -/
theorem queue_enabled_of_rd {size : Nat} (hsize : size ≤ 8) (h : rd s (qReg k 0) = 1 + size * 16) :
    qEnabled s k = true ∧ qSize s k = 2 ^ (10 + size) := by
  have hbit : (1 + size * 16) / 2 ^ 0 % 2 = 1 := by omega
  have hfield : min 8 ((1 + size * 16) / 2 ^ 4 % 2 ^ 4) = size := by omega
  rw [qEnabled, qSize, h, bit, bits, hbit, hfield]
  exact ⟨rfl, rfl⟩

/-- A control word whose ENABLE is set loses it with its lowest bit. -/
theorem bit_zero_pred {v : Nat} (h : bit v 0 = true) : bit (v - 1) 0 = false := by
  simp only [bit, pow_zero, Nat.div_one, beq_iff_eq, beq_eq_false_iff_ne] at h ⊢
  omega

/-- The registers and the record of a queue whose reset acts (R517). -/
def clearedQueue (s : State) (k : Nat) : State :=
  setQ (setReg (setReg (setReg (setReg s (qReg k 0x14) (qPub s k)) (qReg k 0x20) (qPub s k)) (qReg k 0x3C) 0)
    (qReg k 0x38) 0) k { QState.init with crossed := true }

/-- Beside its queue a reset that acts changes the shared waits, the run-ahead streams and one of their counters
(R180, R517). -/
theorem resetQueue_eq (s : State) (k : Nat) : ∃ t l n,
    resetQueue s k = cntAdd (((clearedQueue s k).withTnd t).withLadle l) LDL_RA_DISCARD_CNT_LO n :=
  ⟨_, _, _, rfl⟩

/-- The registers of its queue that a reset that acts writes: the step number, SEQ, RESTART and HEAD. -/
theorem rd_resetQueue (s : State) (k off : Nat) : rd (resetQueue s k) (qReg k off) =
    if off = 0x38 then 0 else if off = 0x3C then 0 else if off = 0x20 then qPub s k
    else if off = 0x14 then qPub s k else rd s (qReg k off) := by
  obtain ⟨t, l, n, h⟩ := resetQueue_eq s k
  have hra : LDL_RA_DISCARD_CNT_LO + 4 < qReg k off := lt_of_lt_of_le (by decide) (le_qReg k off)
  have hpub : qPub s k % 2 ^ 32 = qPub s k := Nat.mod_eq_of_lt (rd_lt s _)
  have hcleared : rd (resetQueue s k) (qReg k off) = rd (clearedQueue s k) (qReg k off) := by
    rw [h, rd_cntAdd_ne _ _ _ _ (by omega) hra.ne']
    unfold rd reg
    rw [State.withLadle_regs, State.withTnd_regs]
  rw [hcleared, clearedQueue, rd_setQ]
  simp only [rd_setReg, qReg_inj, hpub, Nat.zero_mod]

theorem qOf_resetQueue (s : State) (k : Nat) : qOf (resetQueue s k) k = { QState.init with crossed := true } := by
  obtain ⟨t, l, n, h⟩ := resetQueue_eq s k
  rw [h, cntAdd_regs]
  unfold qOf
  rw [State.withRegs_queues, State.withLadle_queues, State.withTnd_queues]
  exact qOf_setQ_same _ k _

/-- A reset that acts leaves the queue empty at PUB, with the step number 0 and its record as at reset but for the mark
that the boundary was crossed (R124, R517). -/
theorem resetQueue_effect (s : State) (k : Nat) : qHead (resetQueue s k) k = qPub s k ∧
    rd (resetQueue s k) (qReg k 0x20) = qPub s k ∧ rd (resetQueue s k) (qReg k 0x38) = 0 ∧
    qOf (resetQueue s k) k = { QState.init with crossed := true } :=
  ⟨rd_resetQueue s k 0x14, rd_resetQueue s k 0x20, rd_resetQueue s k 0x38, qOf_resetQueue s k⟩

/-- A reset with nothing in flight acts at once (R517). -/
theorem orderReset_idle (src : Src) (hp : (qOf s k).resetPend = false) (hf : inFlight (qOf s k) = false) :
    ∃ u, recordsOnly s u ∧ orderReset s src k = resetQueue u k := by
  simp only [orderReset, hp, hf, Bool.false_eq_true, if_false]
  exact ⟨_, recordsOnly_logAccIf true s src (qReg k 0) _, rfl⟩

/-- A RESUME of a halted queue with no word published ends HALTED and waits for the rest of the command (R140). -/
theorem resume_waits (src : Src) (hh : (qOf s k).halted = true) (hp : (qOf s k).poisonedHead = false)
    (hb : (qOf s k).refBnd = false) (ha : qAvail s k = 0) :
    resume s src k = setQ (logAccIf true s src (qReg k 0) (rd s (qReg k 0) + 4)) k
      { qOf s k with halted := false, openCmd := true, walk := some 0 } := by
  simp only [resume, hh, hp, hb, Bool.not_true, Bool.or_self, Bool.false_eq_true, if_false]
  apply runWalk_eq_self
  right
  simpa [qAvail, qPub, qHead, rd_setQ] using ha

/-- A register write that is recorded where it changes the value (R442). -/
theorem recordsOnly_writeNoted (s : State) (src : Src) (o v : Nat) : recordsOnly (setReg s o v)
    (if rd s o = v then setReg s o v else logAccepted (setReg s o v) src 0 o v) := by
  split
  · exact recordsOnly_refl _
  · exact recordsOnly_logAccepted _ _ _ _ _

/-- A write of the completion ring's head with no record held writes the register (R139). -/
theorem recordsOnly_cqHeadWrite (src : Src) {v : Nat} (h : (qOf s k).held = []) :
    recordsOnly (setReg s (qReg k 0x30) v) (cqHeadWrite s src k v) := by
  have hrec := recordsOnly_writeNoted s src (qReg k 0x30) v
  unfold cqHeadWrite
  dsimp only
  rw [recordsOnly_qOf hrec, qOf_setReg, h]
  exact hrec

/-- A write of a crucible semaphore (R119). -/
theorem recordsOnly_semWrite (s : State) (src : Src) (c x sem v : Nat) :
    recordsOnly (setReg s (CRU_SEM c x sem) v) (semWrite s src c x sem v) :=
  recordsOnly_writeNoted s src (CRU_SEM c x sem) v

end

section
variable {s : State}

theorem exec_cruQFlush_ready (hr : s.mode = .ready) (src : Src) (c x q : Nat) (v : Word) :
    exec (.cruQFlush src c x q v) s = .next (orWait s (flush s src (qKey c x q) v.toNat)) := by
  show execCruQFlush src c x q v s = _
  simp [execCruQFlush, isReady, hr]

theorem exec_cruQEnable_ready (hr : s.mode = .ready) (src : Src) (c x q size : Nat) :
    exec (.cruQEnable src c x q size) s = .next (orWait s (queueEnable s src (qKey c x q) size)) := by
  show execCruQEnable src c x q size s = _
  simp [execCruQEnable, isReady, hr]

theorem exec_cruQDisable_ready (hr : s.mode = .ready) (src : Src) (c x q : Nat) :
    exec (.cruQDisable src c x q) s = .next (queueDisable s src (qKey c x q)) := by
  show execCruQDisable src c x q s = _
  simp [execCruQDisable, isReady, hr]

theorem exec_cruQReset_ready (hr : s.mode = .ready) (src : Src) (c x q : Nat) :
    exec (.cruQReset src c x q) s = .next (orderReset s src (qKey c x q)) := by
  show execCruQReset src c x q s = _
  simp [execCruQReset, isReady, hr]

/-- A pending reset acts once nothing of the queue is in flight (R517). -/
theorem exec_cruQResetAct_idle {c x q : Nat} (hp : (qOf s (qKey c x q)).resetPend = true)
    (hf : inFlight (qOf s (qKey c x q)) = false) :
    exec (.cruQResetAct c x q) s = .next (resetQueue s (qKey c x q)) := by
  show execCruQResetAct c x q s = _
  simp [execCruQResetAct, hp, hf]

theorem exec_cruQResume_ready (hr : s.mode = .ready) (src : Src) (c x q : Nat) :
    exec (.cruQResume src c x q) s = .next (orWait s (resume s src (qKey c x q))) := by
  show execCruQResume src c x q s = _
  simp [execCruQResume, isReady, hr]

theorem exec_cruQCqHeadWrite_ready (hr : s.mode = .ready) (src : Src) (c x q : Nat) (v : Word) :
    exec (.cruQCqHeadWrite src c x q v) s = .next (orWait s (cqHeadWrite s src (qKey c x q) v.toNat)) := by
  show execCruQCqHeadWrite src c x q v s = _
  simp [execCruQCqHeadWrite, isReady, hr]

theorem exec_cruSemWrite_ready (hr : s.mode = .ready) (src : Src) {c x sem : Nat} (hc : c < 256) (hx : x < 16)
    (hs : sem < 64) (v : Word) :
    exec (.cruSemWrite src c x sem v) s = .next (semWrite s src c x sem v.toNat) := by
  show execCruSemWrite src c x sem v s = _
  simp [execCruSemWrite, isReady, hr, Nat.mod_eq_of_lt hc, Nat.mod_eq_of_lt hx, Nat.mod_eq_of_lt hs]

end

/-- Settles O10: each command answers its effect where nothing waits, and the lemma of the effect gives the registers. -/
theorem queueRegisterCommands : Obligations.QueueRegisterCommands := by
  unfold Obligations.QueueRegisterCommands
  intro src c x q size sem v s hr hcalm hc hx _ hs
  have hv : v.toNat % 2 ^ 32 = v.toNat := Nat.mod_eq_of_lt v.isLt
  refine ⟨fun h => ?flush, fun h => ?resume, fun h => ?cqHead, fun hen hoff hback hroom => ?flushed,
    fun hdis hsize hok hw => ?enabled, fun hen => ?disabled, fun hp hf => ?reset, fun hp hf => ?resetAct,
    fun hh hp hb ha => ?resumed, fun hheld => ?cqHeadWritten, ?semWritten⟩
  case flush => rw [exec_cruQFlush_ready hr, orWait_calm s _ h]
  case resume => rw [exec_cruQResume_ready hr, orWait_calm s _ h]
  case cqHead => rw [exec_cruQCqHeadWrite_ready hr, orWait_calm s _ h]
  case flushed =>
    obtain ⟨u, hu, hf⟩ := flush_accepted src hen hoff hback hroom
    have hucalm : u.calm := recordsOnly_calm hu hcalm
    have hcalm' : (flush s src (qKey c x q) v.toNat).calm := recordsOnly_calm hf hucalm
    refine ⟨_, by rw [exec_cruQFlush_ready hr, orWait_calm s _ hcalm'], ?_, ?_⟩ <;>
    · rw [recordsOnly_qReg hf]
      simp only [rd_setReg, qReg_inj, flushStart, Nat.mod_mod]
      rfl
  case enabled =>
    have hrec := recordsOnly_queueEnable src hdis hsize hok hw
    have hctrl : rd (queueEnable s src (qKey c x q) size) (qReg (qKey c x q) 0) = 1 + size * 16 := by
      rw [recordsOnly_qReg hrec, rd_setReg_same, Nat.mod_eq_of_lt (by omega)]
    obtain ⟨hon, hring⟩ := queue_enabled_of_rd hsize hctrl
    exact ⟨_, by rw [exec_cruQEnable_ready hr, orWait_calm s _ (recordsOnly_calm hrec hcalm)], hon, hring, hrec⟩
  case disabled =>
    have hrec := recordsOnly_queueDisable src hen
    have hlt : rd s (qReg (qKey c x q) 0) - 1 < 2 ^ 32 := lt_of_le_of_lt (Nat.sub_le _ _) (rd_lt s _)
    refine ⟨_, exec_cruQDisable_ready hr src c x q, ?_, hrec⟩
    rw [qEnabled, recordsOnly_qReg hrec, rd_setReg_same, Nat.mod_eq_of_lt hlt]
    exact bit_zero_pred hen
  case reset =>
    obtain ⟨u, hu, heq⟩ := orderReset_idle src hp hf
    have heffect := resetQueue_effect u (qKey c x q)
    rw [qPub, recordsOnly_qReg hu] at heffect
    exact ⟨_, by rw [exec_cruQReset_ready hr, heq], heffect⟩
  case resetAct => exact ⟨_, exec_cruQResetAct_idle hp hf, resetQueue_effect s _⟩
  case resumed =>
    have hcalm' : (resume s src (qKey c x q)).calm := by
      rw [resume_waits src hh hp hb ha]
      exact calm_setQ _ _ (recordsOnly_calm (recordsOnly_logAccIf _ _ _ _ _) hcalm)
    refine ⟨_, by rw [exec_cruQResume_ready hr, orWait_calm s _ hcalm'], ?_⟩
    rw [resume_waits src hh hp hb ha, qOf_setQ_same]
    exact ⟨rfl, rfl⟩
  case cqHeadWritten =>
    have hrec := recordsOnly_cqHeadWrite src (v := v.toNat) hheld
    refine ⟨_, by rw [exec_cruQCqHeadWrite_ready hr, orWait_calm s _ (recordsOnly_calm hrec hcalm)], ?_⟩
    rw [recordsOnly_qReg hrec, rd_setReg_same, hv]
  case semWritten =>
    refine ⟨_, exec_cruSemWrite_ready hr src hc hx hs v, ?_⟩
    rw [recordsOnly_rd (recordsOnly_semWrite s src c x sem _) _ (logReg_CRU_SEM c x sem), rd_setReg_same, hv]

end Sys2Proof.Machine
end

section
/-! The tier controllers' commands: what a write and a read of the tiers are where no copy and no snoop comes first, and
what a read of a unit and a scrub leave (R184 to R186, R189). -/
namespace Sys2Proof.Machine
open Reg

section
variable {s : State}

/-- Before the first cut a write makes no copy of its page (R400). -/
theorem copyOnWrite_beforeCut (h : rd s CUP_ING_EPOCH = 0) (a : Nat) : copyOnWrite s a = s := by
  simp [copyOnWrite, h]

/-- An address outside the own window's backing range has no directory entry to pass (R338). -/
theorem homePass_outside {a : Nat} (h : ownWindow s a = none) (write : Bool) (x : Nat) : homePass s a write x = s := by
  simp only [homePass, h]

theorem raInvalidate_mem (s : State) (a : Nat) : (raInvalidate s a).mem = s.mem := by
  rw [raInvalidate_frame]

/-- Dropping run-ahead lines poisons and cleans no unit. -/
theorem isPoisoned_raInvalidate (s : State) (a b : Nat) : isPoisoned (raInvalidate s a) b = isPoisoned s b := by
  rw [raInvalidate_frame]
  rfl

/-- Dropping run-ahead lines opens no wait. -/
theorem calm_raInvalidate (a : Nat) (h : s.calm) : (raInvalidate s a).calm := by
  rw [raInvalidate_frame]
  exact h

theorem drawNat_mem (s : State) : (drawNat s).2.mem = s.mem := rfl

/-- A read of a unit leaves every byte, whatever symbols the storage shows (R184, log entry 27). -/
theorem unitRead_mem (s : State) (r : Reader) (a symbols : Nat) : (unitRead s r a symbols).mem = s.mem := by
  unfold unitRead
  dsimp only
  split
  case isTrue poisoned => rw [tierUe_mem, count_keeps_mem]
  split
  case isTrue noSymbols => exact count_keeps_mem _ _ _
  split
  case isTrue corrected => rw [tierCe_mem, count_keeps_mem]
  split
  case isTrue detected => rw [tierUe_mem, setPoison_mem, count_keeps_mem]
  split
  case isTrue reported => rw [tierUe_mem, setPoison_mem, drawNat_mem, count_keeps_mem]
  case isFalse passed => rw [drawNat_mem, count_keeps_mem]

/-- A read of a clean unit without erroneous symbols is counted, and nothing else (R189). -/
theorem unitRead_clean {a : Nat} (h : isPoisoned s a = false) (r : Reader) :
    unitRead s r a 0 = cntAdd s (tierGroup a + 0x20) 1 := by
  simp [unitRead, h]

/-- A write of a controller that no copy and no snoop precedes drops the run-ahead lines of its address and writes
the unit (R182, R185). -/
theorem exec_memoryRequest_write {addr symbols : Nat} {data : List Byte} (hc : s.calm) (ht : inTier s addr = true)
    (hne : data ≠ []) (hfit : addr % 64 + data.length ≤ 64) (hp : isPoisoned s addr = false ∨ data.length = 64)
    (he : rd s CUP_ING_EPOCH = 0) (hw : ownWindow s addr = none) :
    exec (.memoryRequest true addr symbols data) s = .next (tierWrite (raInvalidate s addr) .item addr data).1 := by
  have hcalm : (tierWrite (raInvalidate s addr) .item addr data).1.calm :=
    (tierWrite_clean _ _ _ _ (calm_raInvalidate addr hc) (by rwa [isPoisoned_raInvalidate])).2.2
  show execMemoryRequest true addr symbols data s = _
  simp [execMemoryRequest, ht, hne, Nat.not_lt.mpr hfit, copyOnWrite_beforeCut he, homePass_outside hw,
    orWait_calm s _ hcalm]

theorem exec_memoryRequest_read {addr : Nat} (ht : inTier s addr = true) (symbols : Nat) (data : List Byte) :
    exec (.memoryRequest false addr symbols data) s = .next (unitRead s .item (addr / 64 * 64) symbols) := by
  show execMemoryRequest false addr symbols data s = _
  simp [execMemoryRequest, ht]

/-- A scrub within a pass reads the unit and counts the write back; beyond that only the ladle's record of the pass
changes (R186). -/
theorem exec_scrubUnit_within {addr : Nat} (ht : inTier s addr = true) (hon : bit (rd s (tierGroup addr + 4)) 16 = true)
    (symbols : Nat) :
    ∃ l, exec (.scrubUnit addr symbols false) s =
      .next ((cntAdd (unitRead s .scrub (addr / 64 * 64) symbols) (tierGroup addr + 0x28) 1).withLadle l) := by
  show ∃ l, execScrubUnit addr symbols false s = _
  simp only [execScrubUnit, ht, hon, Bool.not_true, Bool.not_false, Bool.false_eq_true, if_false, if_true]
  exact ⟨_, rfl⟩

end

/-- Settles O20: a write is `tierWrite` on the state without the run-ahead lines, and a read and a scrub are `unitRead`
with their counts. -/
theorem tierRequests : Obligations.TierRequests := by
  unfold Obligations.TierRequests
  refine ⟨fun addr symbols data s hc ht hne hfit hp he hw => ?write, fun addr symbols data s ht => ?read,
    fun addr s ht hon hp => ?scrub⟩
  case write =>
    obtain ⟨hmem, hclean, -⟩ := tierWrite_clean (raInvalidate s addr) .item addr data (calm_raInvalidate addr hc)
      (by rwa [isPoisoned_raInvalidate])
    rw [raInvalidate_mem] at hmem
    refine ⟨_, exec_memoryRequest_write hc ht hne hfit hp he hw, fun j hj => ?_, fun a ha => ?_, hclean⟩
    · rw [hmem, byteAt_putBytes_inside _ _ _ _ hj, List.getD_eq_getElem _ _ hj]
    · rw [hmem, byteAt_putBytes_outside _ _ _ _ ha]
  case read =>
    refine ⟨_, exec_memoryRequest_read ht symbols data, unitRead_mem _ _ _ _, fun h0 hp => ?_⟩
    rw [h0, unitRead_clean hp]
  case scrub =>
    obtain ⟨l, hl⟩ := exec_scrubUnit_within ht hon 0
    rw [unitRead_clean hp] at hl
    refine ⟨_, hl, ?_, ?_, ?_, rfl⟩
    · rw [State.withLadle_mem, count_keeps_mem, count_keeps_mem]
    · rw [State.withLadle_poison, cntAdd_poison, cntAdd_poison]
    · rw [State.withLadle_hlog, cntAdd_hlog, cntAdd_hlog]

end Sys2Proof.Machine
end

section
/-! The loss scale: what the loop of Table 5.9 and the writes of the sweep's registers leave of S, CLEAN and the ceiling
(R206, R224). -/
namespace Sys2Proof.Machine
open Reg

/-- Two states that differ by recording differ by recording alone after the same register write. -/
theorem recordsOnly_setReg_congr {s t : State} (h : recordsOnly s t) (off v : Nat) :
    recordsOnly (setReg s off v) (setReg t off v) := by
  refine ⟨by rw [h.1]; rfl, fun o ho => ?_⟩
  by_cases heq : o = off
  · rw [heq, reg_setReg_same, reg_setReg_same]
  · rw [reg_setReg_ne _ _ _ _ heq, reg_setReg_ne _ _ _ _ heq, h.2 o ho]

/-- A write of the value that a register holds changes no register. -/
theorem recordsOnly_setReg_rd (s : State) (off : Nat) : recordsOnly (setReg s off (rd s off)) s := by
  refine ⟨rfl, fun o _ => ?_⟩
  by_cases heq : o = off
  · rw [heq, reg_setReg_same, rd, BitVec.ofNat_toNat, BitVec.setWidth_eq]
  · rw [reg_setReg_ne _ _ _ _ heq]

/-- The state with S and CLEAN at new values. -/
def setScale (s : State) (S C : Nat) : State := setReg (setReg s LDL_SWP_SCALE S) LDL_SWP_CLEAN C

/-- S and CLEAN after an outcome, by the rows of Table 5.9. -/
def scaleTable (s : State) (o : SweepEnd) : Nat × Nat :=
  if o.skip = false then
    (if rd s LDL_SWP_CLEAN + 1 < rd s LDL_SWP_INTERVAL then (swScale s, rd s LDL_SWP_CLEAN + 1)
    else if swScale s < rd s LDL_SWP_SCALE_MAX then (swScale s + 0x800000, 0) else (swScale s, 0))
  else if bit o.cause 0 = true ∨ (bit o.cause 1 = true ∧ bit (rd s LDL_SWP_CTRL) 1 = true) then
    (if 0x3F800000 < swScale s then (swScale s - 0x800000, 0) else (swScale s, 0))
  else (swScale s, rd s LDL_SWP_CLEAN)

section
variable {s t : State} {S C : Nat}

theorem recordsOnly_setScale_congr (h : recordsOnly s t) (S C : Nat) : recordsOnly (setScale s S C) (setScale t S C) :=
  recordsOnly_setReg_congr (recordsOnly_setReg_congr h _ S) _ C

/-- Where S is kept, CLEAN alone is written. -/
theorem recordsOnly_setScale_swScale (s : State) (C : Nat) :
    recordsOnly (setScale s (swScale s) C) (setReg s LDL_SWP_CLEAN C) :=
  recordsOnly_setReg_congr (recordsOnly_setReg_rd s LDL_SWP_SCALE) _ C

/-- Where S and CLEAN are kept, nothing is written. -/
theorem recordsOnly_setScale_self (s : State) : recordsOnly (setScale s (swScale s) (rd s LDL_SWP_CLEAN)) s :=
  recordsOnly_trans (recordsOnly_setScale_swScale s _) (recordsOnly_setReg_rd s LDL_SWP_CLEAN)

/-- After S and CLEAN were set, and events recorded, S reads as set. -/
theorem swScale_of_setScale (h : recordsOnly (setScale s S C) t) (hS : S < 2 ^ 32) : swScale t = S := by
  rw [swScale, recordsOnly_rd h _ (by decide), setScale, rd_setReg_ne _ _ _ _ (by decide), rd_setReg_same,
    Nat.mod_eq_of_lt hS]

/-- After S and CLEAN were set, and events recorded, CLEAN reads as set. -/
theorem rd_clean_of_setScale (h : recordsOnly (setScale s S C) t) (hC : C < 2 ^ 32) : rd t LDL_SWP_CLEAN = C := by
  rw [recordsOnly_rd h _ (by decide), setScale, rd_setReg_same, Nat.mod_eq_of_lt hC]

/-- From a state of S and CLEAN that the loop can meet, each row of Table 5.9 gives values that fit their registers. -/
theorem scaleTable_lt (o : SweepEnd) (hS : swScale s < 0x7F000000) (hC : rd s LDL_SWP_CLEAN < 2 ^ 31) :
    (scaleTable s o).1 < 2 ^ 32 ∧ (scaleTable s o).2 < 2 ^ 32 := by
  unfold scaleTable
  split_ifs <;> dsimp only <;> omega

/-- The loop sets S and CLEAN by Table 5.9 and records its events, and changes nothing else (R224). -/
theorem recordsOnly_lossLoop (s : State) (o : SweepEnd) (step : Nat) :
    recordsOnly (setScale s (scaleTable s o).1 (scaleTable s o).2) (lossLoop s o step) := by
  unfold lossLoop scaleTable
  cases o.skip with
  | false =>
    simp only [Bool.not_false, if_true]
    split
    case isTrue counting => exact recordsOnly_setScale_swScale s _
    split
    case isTrue doubled => exact recordsOnly_logCup _ _ _ (by decide)
    case isFalse atCeiling =>
      exact recordsOnly_trans (recordsOnly_setScale_swScale s 0) (recordsOnly_logCup _ _ _ (by decide))
  | true =>
    simp only [Bool.not_true, Bool.false_eq_true, Bool.true_eq_false, if_false, Bool.or_eq_true, Bool.and_eq_true]
    split
    case isFalse otherCause =>
      exact recordsOnly_trans (recordsOnly_setScale_self s) (recordsOnly_logCup _ _ _ (by decide))
    split
    case isTrue halved => exact recordsOnly_logCup _ _ _ (by decide)
    case isFalse atOne =>
      have hlogged := recordsOnly_trans (recordsOnly_logCup (setReg s LDL_SWP_CLEAN 0) 0x0510
        [step, o.cause, swScale s, swScale s] (by decide)) (recordsOnly_logCup _ 0x0512 [step, swScale s] (by decide))
      exact recordsOnly_trans (recordsOnly_setScale_swScale s 0) hlogged

end

/-- Settles O22: the loop sets S and CLEAN to the row of Table 5.9, and both values fit their registers. -/
theorem lossScaleTable : Obligations.LossScaleTable := by
  unfold Obligations.LossScaleTable
  intro s o step S C _ hS hC hrow
  obtain ⟨hfitS, hfitC⟩ := scaleTable_lt o hS hC
  have hloop := recordsOnly_lossLoop s o step
  rw [show scaleTable s o = (S, C) from hrow.symm] at hfitS hfitC hloop
  exact ⟨swScale_of_setScale hloop hfitS, rd_clean_of_setScale hloop hfitC, hloop⟩

/-- The non-finite flag of a context is no register of the recorder's. -/
theorem logReg_LDL_SLAG_NF (x : Nat) : logReg (LDL_SLAG_NF x) = false :=
  logReg_eq_false (.inr (by unfold LDL_SLAG_NF; omega))

section
variable {s : State} {v : Nat}

theorem exec_ldlSwpScaleMaxWrite_ready (hr : s.mode = .ready) (src : Src) (v : Word) :
    exec (.ldlSwpScaleMaxWrite src v) s = .next (scaleMaxWrite s src v.toNat) := by
  show execLdlSwpScaleMaxWrite src v s = _
  simp [execLdlSwpScaleMaxWrite, isReady, hr]

theorem exec_ldlSlagNfClear_ready (hr : s.mode = .ready) (src : Src) {x : Nat} (hx : x < 16) :
    exec (.ldlSlagNfClear src x) s = .next (slagNfClear s src x) := by
  show execLdlSlagNfClear src x s = _
  simp [execLdlSlagNfClear, isReady, hr, Nat.mod_eq_of_lt hx]

/-- A write discarded because of accepted items leaves its events (R225). -/
theorem recordsOnly_discardBusy (s : State) (src : Src) (ctx off : Nat) : recordsOnly s (discardBusy s src ctx off) :=
  recordsOnly_trans (recordsOnly_logSrc s 0x0306 src _ (by decide)) (recordsOnly_logDiscard _ src off 4 8)

/-- A write of the ceiling while a sweep item is accepted, or of no legal value, leaves its events (R224, R225). -/
theorem recordsOnly_scaleMaxWrite_discarded (src : Src)
    (h : sweepBusy s = true ∨ powScale v 0x40000000 0x4B800000 = false) : recordsOnly s (scaleMaxWrite s src v) := by
  unfold scaleMaxWrite
  split
  case isTrue busy => exact recordsOnly_discardBusy s src _ _
  case isFalse idle =>
    rw [if_pos (by simp [h.resolve_left idle])]
    exact recordsOnly_logDiscard s src _ 4 8

/-- An accepted ceiling below S takes S with it and restarts CLEAN (R224). -/
theorem recordsOnly_scaleMaxWrite_below (src : Src) (hb : sweepBusy s = false)
    (hp : powScale v 0x40000000 0x4B800000 = true) (hlt : v < swScale s) :
    recordsOnly (setScale (setReg s LDL_SWP_SCALE_MAX v) v 0) (scaleMaxWrite s src v) := by
  simp only [scaleMaxWrite, hb, hp, Bool.not_true, Bool.false_eq_true, if_false, if_pos hlt]
  exact recordsOnly_trans (recordsOnly_setScale_congr (recordsOnly_writeNoted s src LDL_SWP_SCALE_MAX v) v 0)
    (recordsOnly_logCup _ _ _ (by decide))

/-- An accepted ceiling at or above S is written alone (R224). -/
theorem recordsOnly_scaleMaxWrite_above (src : Src) (hb : sweepBusy s = false)
    (hp : powScale v 0x40000000 0x4B800000 = true) (hle : swScale s ≤ v) :
    recordsOnly (setReg s LDL_SWP_SCALE_MAX v) (scaleMaxWrite s src v) := by
  simp only [scaleMaxWrite, hb, hp, Bool.not_true, Bool.false_eq_true, if_false, if_neg (Nat.not_lt.mpr hle)]
  exact recordsOnly_writeNoted s src LDL_SWP_SCALE_MAX v

/-- After an accepted write the ceiling reads as written, below S or not. -/
theorem rd_scaleMax_scaleMaxWrite (src : Src) (hb : sweepBusy s = false)
    (hp : powScale v 0x40000000 0x4B800000 = true) (hv : v < 2 ^ 32) :
    rd (scaleMaxWrite s src v) LDL_SWP_SCALE_MAX = v := by
  obtain hlt | hle := Nat.lt_or_ge v (swScale s)
  · rw [recordsOnly_rd (recordsOnly_scaleMaxWrite_below src hb hp hlt) _ (by decide), setScale,
      rd_setReg_ne _ _ _ _ (by decide), rd_setReg_ne _ _ _ _ (by decide), rd_setReg_same, Nat.mod_eq_of_lt hv]
  · rw [recordsOnly_rd (recordsOnly_scaleMaxWrite_above src hb hp hle) _ (by decide), rd_setReg_same,
      Nat.mod_eq_of_lt hv]

/-- A clear of a flag that is set writes the flag alone (R206). -/
theorem recordsOnly_slagNfClear (src : Src) {x : Nat} (h : bit (rd s (LDL_SLAG_NF x)) 0 = true) :
    recordsOnly (setReg s (LDL_SLAG_NF x) 0) (slagNfClear s src x) := by
  rw [slagNfClear, if_pos h]
  exact recordsOnly_logAccepted _ src 0 _ 1

end

/-- Settles O23: an accepted ceiling is written with S and CLEAN or alone, and a discarded one and a clear of the flag
leave no more than they name. -/
theorem sweepRegisters : Obligations.SweepRegisters := by
  unfold Obligations.SweepRegisters
  intro src v x s hr hx
  refine ⟨fun hb hp => ?accepted, fun h => ?discarded, fun h => ?cleared⟩
  case accepted =>
    refine ⟨_, exec_ldlSwpScaleMaxWrite_ready hr src v, rd_scaleMax_scaleMaxWrite src hb hp v.isLt, fun hlt => ?_,
      fun hle => ?_⟩
    · have hrec := recordsOnly_scaleMaxWrite_below src hb hp hlt
      exact ⟨swScale_of_setScale hrec v.isLt, rd_clean_of_setScale hrec (by decide)⟩
    · have hrec := recordsOnly_scaleMaxWrite_above src hb hp hle
      rw [swScale, recordsOnly_rd hrec _ (by decide), recordsOnly_rd hrec _ (by decide),
        rd_setReg_ne _ _ _ _ (by decide), rd_setReg_ne _ _ _ _ (by decide)]
      exact ⟨rfl, rfl⟩
  case discarded => exact ⟨_, exec_ldlSwpScaleMaxWrite_ready hr src v, recordsOnly_scaleMaxWrite_discarded src h⟩
  case cleared =>
    have hrec := recordsOnly_slagNfClear src h
    refine ⟨_, exec_ldlSlagNfClear_ready hr src hx, ?_, hrec⟩
    rw [recordsOnly_rd hrec _ (logReg_LDL_SLAG_NF x), rd_setReg_same, Nat.zero_mod]

end Sys2Proof.Machine
end

section
/-! The crucibles and their carriers: which operations leave both, and what a switch and a move do with them (R242 to
R244, R247). -/
namespace Sys2Proof.Machine
open Reg

/-- What the Tundish keeps of the crucibles: the record of each physical one, and the map of the carriers. -/
def cruTables (s : State) : Sparse Crucible × Sparse Nat := (s.crus, s.physMap)

section
variable {s t : State} {c : Nat}

theorem cruTables_snd (s : State) : (cruTables s).2 = s.physMap := rfl

/-- The carrier of a logical crucible and its record are read from the two tables. -/
theorem carrier_congr (h : cruTables t = cruTables s) (c : Nat) :
    physOf t c = physOf s c ∧ cruOf t (physOf t c) = cruOf s (physOf s c) := by
  obtain ⟨hcrus, hmap⟩ : t.crus = s.crus ∧ t.physMap = s.physMap := Prod.mk.inj h
  unfold cruOf physOf
  rw [hcrus, hmap]
  exact ⟨rfl, rfl⟩

@[simp] theorem cruTables_withTnd (s : State) (t : Tundish) : cruTables (s.withTnd t) = cruTables s := rfl
@[simp] theorem cruTables_setReg (s : State) (off v : Nat) : cruTables (setReg s off v) = cruTables s := rfl
@[simp] theorem cruTables_setQ (s : State) (k : Nat) (q : QState) : cruTables (setQ s k q) = cruTables s := rfl

@[simp] theorem cruTables_cntAdd (s : State) (off n : Nat) : cruTables (cntAdd s off n) = cruTables s := by
  rw [cntAdd_regs]
  rfl

/-- Recording an event leaves the crucibles and their carriers. -/
theorem recordsOnly_cruTables (h : recordsOnly s t) : cruTables t = cruTables s := by
  rw [h.1]
  rfl

theorem cruTables_forEach {α : Type} {f : State → α → State} (hf : ∀ st a, cruTables (f st a) = cruTables st)
    (l : List α) (s : State) : cruTables (forEach l s f) = cruTables s :=
  foldl_same hf l s

/-- Saving a context's queues writes registers, queues and registered waits (R122 to R124, R245). -/
@[simp] theorem cruTables_saveQueues (s : State) (c x : Nat) : cruTables (saveQueues s c x) = cruTables s := by
  refine cruTables_forEach (fun st q => ?_) (List.range 8) s
  dsimp only
  cases (qOf st (qKey c x q)).items with
  | nil => exact cruTables_setQ _ _ _
  | cons i rest =>
    dsimp only
    split
    case isFalse notWaiting => exact cruTables_setQ _ _ _
    case isTrue waiting =>
      rw [cruTables_setQ, cruTables_setReg, cruTables_setReg]
      split
      case isTrue shared => exact cruTables_withTnd _ _
      case isFalse own => rfl

@[simp] theorem cruTables_settleStop (s : State) (x : Nat) : cruTables (settleStop s x) = cruTables s := by
  unfold settleStop
  split
  case isTrue stopped => exact cruTables_withTnd _ _
  case isFalse running => rfl

@[simp] theorem cruTables_settleStops (s : State) (l : List Nat) : cruTables (l.foldl settleStop s) = cruTables s :=
  foldl_same cruTables_settleStop l s

/-- Settling a late entry counts and records it (R240). -/
@[simp] theorem cruTables_settleLate (s : State) (c x cost : Nat) :
    cruTables (settleLate s c x cost) = cruTables s := by
  unfold settleLate
  dsimp only
  split
  case h_1 noneAwaited => rfl
  split
  case h_1 noSlot => exact cruTables_withTnd _ _
  split
  case isTrue late =>
    rw [recordsOnly_cruTables (recordsOnly_logCtx _ 0x0242 _ _ _ _ (by decide)), cruTables_cntAdd, cruTables_withTnd]
  case isFalse inTime => exact cruTables_withTnd _ _

theorem cruOf_setCru_same (s : State) (p : Nat) (cr : Crucible) : cruOf (setCru s p cr) p = cr :=
  spGet_spPut_same s.crus p cr _

/-- Where the tables are those of a state whose carrier of a crucible was given a record, that is the carrier's record. -/
theorem carrier_of_setCru {cr : Crucible} (h : cruTables t = cruTables (setCru s (physOf s c) cr)) :
    cruOf t (physOf t c) = cr := by
  obtain ⟨-, hcru⟩ := carrier_congr h c
  exact hcru.trans (cruOf_setCru_same s _ cr)

/-- A switch that begins leaves no context resident, and notes who comes in and when (R243). -/
theorem beginSwitch_carrier (s : State) (c : Nat) (nxt : Option Nat) (extra : Nat) :
    residentOn (beginSwitch s c nxt extra) c = none ∧
    (cruOf (beginSwitch s c nxt extra) (physOf (beginSwitch s c nxt extra) c)).switching =
      some (nxt, s.clock.half + (nSw s c (residentOn s c) + extra) * fclkHalf) := by
  show (cruOf _ _).resident = none ∧ _
  cases hres : residentOn s c with
  | none =>
    rw [carrier_of_setCru (s := s) (by unfold beginSwitch; rw [hres])]
    exact ⟨rfl, rfl⟩
  | some x =>
    have hphys : physOf (saveQueues s c x) c = physOf s c := (carrier_congr (cruTables_saveQueues s c x) c).1
    rw [carrier_of_setCru (s := saveQueues s c x) (by unfold beginSwitch; rw [hres, hphys])]
    exact ⟨rfl, rfl⟩

/-- Arbitration at a boundary, with no move pending, switches to a choice that is not resident (R242). -/
theorem arbitrate_switches (hr : s.mode = .ready) (ha : available s c = true) (hs : canSwitch s c = true)
    (hm : s.tnd.moves.any (fun m => m.logical == c && m.endAt.isNone) = false) (hne : choose s c ≠ residentOn s c) :
    arbitrate s c = beginSwitch s c (choose s c) 0 := by
  simp [arbitrate, hr, ha, hs, hm, hne]

/-- A quantum that has run out arbitrates (R242). -/
theorem exec_quantumExpiry_due (h : quantum s ≤ tickNow s - residentSince s c) :
    exec (.quantumExpiry c) s = exec (.arbitration c) s := by
  show execQuantumExpiry c s = execArbitration c s
  rw [execQuantumExpiry, if_pos h, execArbitration]

/-- A switch whose time has passed makes the incoming context resident (R243). -/
theorem exec_contextSwitchEnd_due {nxt : Option Nat} {e : Nat}
    (hsw : (cruOf s (physOf s c)).switching = some (nxt, e)) (hdue : e ≤ s.clock.half)
    (hm : s.tnd.moves.any (fun m => m.logical == c && m.endAt.isSome) = false) :
    ∃ t, exec (.contextSwitchEnd c) s = .next t ∧ cruTables t = cruTables (setCru s (physOf s c)
      { cruOf s (physOf s c) with resident := nxt, switching := none, swCost := 0 }) := by
  have hgo : ¬ (s.clock.half < e ∨ s.tnd.moves.any (fun m => m.logical == c && m.endAt.isSome) = true) := by
    simp [hm, hdue]
  refine ⟨_, by show execContextSwitchEnd c s = _; simp only [execContextSwitchEnd, hsw, if_neg hgo]; rfl, ?_⟩
  cases nxt with
  | none => simp only [cruTables_settleStops, cruTables_withTnd, cruTables_cntAdd]
  | some y => simp only [cruTables_settleStops, cruTables_settleLate, cruTables_withTnd, cruTables_cntAdd]

/-- A move whose time has passed puts the spare into the map of the carriers (R244). -/
theorem exec_moveEnd_due {m : Move} {p e : Nat}
    (hm : s.tnd.moves.find? (fun m => m.logical == c && m.endAt.isSome) = some m) (hp : m.target = some p)
    (he : m.endAt = some e) (hdue : e ≤ s.clock.half) :
    ∃ t, exec (.moveEnd c) s = .next t ∧ t.physMap = spPut s.physMap c p c := by
  have hgo : ¬ s.clock.half < e := Nat.not_lt.mpr hdue
  refine ⟨_, by show execMoveEnd c s = _; simp only [execMoveEnd, hm, hp, he, if_neg hgo]; rfl, ?_⟩
  rw [← cruTables_snd, cruTables_settleStops,
    recordsOnly_cruTables (recordsOnly_logUnit _ 0x0246 _ _ (by decide)), cruTables_cntAdd]
  split
  case h_1 nobody =>
    rw [cruTables_forEach (fun _ _ => cruTables_setQ _ _ _), cruTables_withTnd]
    split <;> rfl
  case h_2 resumed =>
    rw [cruTables_settleLate, cruTables_withTnd, cruTables_forEach (fun _ _ => cruTables_setQ _ _ _), cruTables_withTnd]
    split <;> rfl

/-- A crucible whose waiter waits no longer, and whose holder is at a boundary, switches back to a RUNNABLE waiter
(R247). -/
theorem exec_lendReturn_back {g : Inherit}
    (hg : s.tnd.gifts.find? (fun g => g.lent == some c && residentOn s c == some g.holder) = some g)
    (hw : stillWaits s g.waiter g.sem = false) (hs : canSwitch s c = true) (hrun : ctxState s g.waiter = 1) :
    exec (.lendReturn c) s = .next (beginSwitch
      (s.withTnd { s.tnd with gifts := s.tnd.gifts.filter (fun h => h != g) }) c (some g.waiter) 0) := by
  have hrun' : ctxState (s.withTnd { s.tnd with gifts := s.tnd.gifts.filter (fun h => h != g) }) g.waiter = 1 := hrun
  show execLendReturn c s = _
  simp [execLendReturn, hg, hw, hs, hrun']

end

/-- Settles O28: each command's lemma gives the crucible tables that it leaves, and these give who is resident where. -/
theorem contextSwitches : Obligations.ContextSwitches := by
  unfold Obligations.ContextSwitches
  intro c s hr _
  refine ⟨fun ha hs hm hne => ⟨?begun, exec_quantumExpiry_due⟩, fun nxt e hsw hdue hm => ?ended,
    fun m p e hm hp he hdue => ?moved, fun g => exec_lendReturn_back⟩
  case begun =>
    obtain ⟨hres, hnext⟩ := beginSwitch_carrier s c (choose s c) 0
    exact ⟨_, congrArg Host.Outcome.next (arbitrate_switches hr ha hs hm hne), hres, hnext⟩
  case ended =>
    obtain ⟨t, ht, htables⟩ := exec_contextSwitchEnd_due hsw hdue hm
    refine ⟨t, ht, ?_⟩
    rw [residentOn, carrier_of_setCru htables]
    exact ⟨rfl, rfl⟩
  case moved =>
    obtain ⟨t, ht, hmap⟩ := exec_moveEnd_due hm hp he hdue
    refine ⟨t, ht, ?_, fun d hd => ?_⟩
    · rw [physOf, hmap, spGet_spPut_same]
    · rw [physOf, hmap, spGet_spPut_ne _ _ _ _ _ _ hd, physOf]

end Sys2Proof.Machine
end

section
/-! The cyclic schedule: an exclusive slot from its guard to its end, and the swap of the two tables (R239, R241). -/
namespace Sys2Proof.Machine
open Reg

/-- One bit of a number, as the library names it. -/
theorem bit_eq_testBit (n i : Nat) : bit n i = n.testBit i := by
  rw [Nat.testBit_eq_decide_div_mod_eq]
  rfl

/-- A number whose bit `lo` is replaced: the quotient's lowest bit changes, the bits below stay. -/
theorem setBits_one_eq (n lo v : Nat) :
    setBits n lo 1 v = n % 2 ^ lo + 2 ^ lo * (n / 2 ^ lo / 2 * 2 + v % 2) := by
  have hn : n = n % 2 ^ lo + 2 ^ lo * (n / 2 ^ lo / 2 * 2) + n / 2 ^ lo % 2 * 2 ^ lo := by
    rw [add_assoc, mul_comm (n / 2 ^ lo % 2), ← mul_add, Nat.div_add_mod', Nat.mod_add_div]
  rw [setBits, bits, pow_one, Nat.sub_eq_of_eq_add hn, mul_add, add_assoc, mul_comm (v % 2)]

/-- A bit that was replaced reads as it was set. -/
theorem bit_setBits_same (n lo v : Nat) : bit (setBits n lo 1 v) lo = (v % 2 == 1) := by
  rw [setBits_one_eq, bit, Nat.add_mul_div_left _ _ (Nat.two_pow_pos lo),
    Nat.div_eq_of_lt (Nat.mod_lt _ (Nat.two_pow_pos lo))]
  congr 1
  omega

/-- Replacing a bit leaves the lower ones. -/
theorem bit_setBits_below {i lo : Nat} (n v : Nat) (h : i < lo) : bit (setBits n lo 1 v) i = bit n i := by
  have hmod : setBits n lo 1 v % 2 ^ lo = n % 2 ^ lo := by
    rw [setBits_one_eq, Nat.add_mul_mod_self_left, Nat.mod_mod]
  have hbit : ∀ m, bit m i = (m % 2 ^ lo).testBit i := fun m => by
    rw [bit_eq_testBit, Nat.testBit_mod_two_pow, decide_eq_true h, Bool.true_and]
  rw [hbit, hmod, ← hbit]

section
variable {s t : State} {slot : Nat}

/-- A bit of a register just written is the bit of the number written. -/
theorem bit_rd_setReg_same (s : State) (off v : Nat) {i : Nat} (h : i < 32) :
    bit (rd (setReg s off v) off) i = bit v i := by
  rw [rd_setReg_same, bit_eq_testBit, Nat.testBit_mod_two_pow, decide_eq_true h, Bool.true_and, bit_eq_testBit]

/-- Recording an event leaves the Tundish. -/
theorem recordsOnly_tnd (h : recordsOnly s t) : t.tnd = s.tnd := by
  rw [h.1]

/-- The tick at which a slot of the active table starts in the current cycle (R238). -/
def slotBegins (s : State) (slot : Nat) : Nat := cycleStart s + slotOffset s s.tnd.bank slot

/-- The tick at which it ends. -/
def slotEnds (s : State) (slot : Nat) : Nat := slotBegins s slot + slotLen s s.tnd.bank slot * 1000

/-- The crucibles that an exclusive slot reserves: those of its RUNNABLE owner's CSET that are available (R239). -/
def slotCrus (s : State) (slot : Nat) : List Nat :=
  (List.range 256).filter (fun c => ctxState s (slotOwner s s.tnd.bank slot) == 1 &&
    inCset s (slotOwner s s.tnd.bank slot) c && available s c)

/-- The state with a slot in progress: its guard is over, and its owner is awaited where another context, or none, is
resident (R239, R240). -/
def reserveSlot (s : State) (slot : Nat) : State :=
  s.withTnd { s.tnd with
    guards := s.tnd.guards.filter (fun g => g.1 != slot || decide (tickNow s < g.2))
    slots := s.tnd.slots ++ [(slot, slotBegins s slot, slotEnds s slot)]
    awaited := s.tnd.awaited ++
      (((slotCrus s slot).filter (fun c => residentOn s c != some (slotOwner s s.tnd.bank slot))).map
        (fun c => (slot, c, (residentOn s c).getD 16))) }

/-- The guard of an exclusive slot opens at most GUARD before its start, once (R239). -/
theorem exec_slotGuardOpen_due (hon : schedOn s = true) (hin : slot < slotCount s s.tnd.bank)
    (hex : slotExcl s s.tnd.bank slot = true) (hbefore : tickNow s < slotBegins s slot)
    (hguard : slotBegins s slot ≤ tickNow s + slotGuard s s.tnd.bank slot * 100)
    (honce : s.tnd.guards.any (fun g => g.1 == slot) = false) :
    exec (.slotGuardOpen slot) s =
      .next (s.withTnd { s.tnd with guards := s.tnd.guards ++ [(slot, slotBegins s slot)] }) := by
  unfold slotBegins at *
  show execSlotGuardOpen slot s = _
  simp [execSlotGuardOpen, hon, hin, hex, hbefore, hguard, honce]

/-- A table entry without an error changes nothing (R366). -/
theorem tableError_none (s : State) (table entry : Nat) : tableError s table entry 0 = s := if_pos rfl

/-- An exclusive slot that starts, once in its cycle, reserves its crucibles and arbitrates each (R239). -/
theorem exec_slotStart_due (hon : schedOn s = true) (hin : slot < slotCount s s.tnd.bank)
    (hex : slotExcl s s.tnd.bank slot = true) (hbegun : slotBegins s slot ≤ tickNow s)
    (hrest : tickNow s < slotEnds s slot)
    (honce : s.tnd.slots.any (fun e => e.1 == slot && e.2.1 == slotBegins s slot) = false) :
    exec (.slotStart slot 0) s = .next ((slotCrus s slot).foldl arbitrate (reserveSlot s slot)) := by
  have hgo : (schedOn s && decide (slot < slotCount s s.tnd.bank) && slotExcl s s.tnd.bank slot &&
      decide (slotBegins s slot ≤ tickNow s) && decide (tickNow s < slotEnds s slot) &&
      !s.tnd.slots.any (fun e => e.1 == slot && e.2.1 == slotBegins s slot)) = true := by
    simp [hon, hin, hex, hbegun, hrest, honce]
  show execSlotStart slot 0 s = _
  rw [execSlotStart, tableError_none]
  exact if_pos hgo

/-- A slot whose owner is awaited nowhere ends without an event (R239). -/
theorem exec_slotEnd_arrived {e : Nat × Nat × Nat}
    (he : s.tnd.slots.find? (fun e => e.1 == slot && decide (e.2.2 ≤ tickNow s)) = some e)
    (hlate : s.tnd.awaited.filter (fun f => f.1 == slot) = []) :
    exec (.slotEnd slot) s = .next (s.withTnd { s.tnd with
      slots := s.tnd.slots.filter (fun f => f != e), awaited := s.tnd.awaited.filter (fun f => f.1 != slot) }) := by
  show execSlotEnd slot s = _
  simp only [execSlotEnd, he, hlate, List.foldl_nil]

/-- In READY a swap is ordered by its bit of the control register (R241). -/
theorem exec_tndSchedSwap_ready (hr : s.mode = .ready) (src : Src) :
    ∃ t, exec (.tndSchedSwap src) s = .next t ∧
      recordsOnly (setReg s TND_SCHED_CTRL (setBits (rd s TND_SCHED_CTRL) 1 1 1)) t := by
  refine ⟨_, ?_, recordsOnly_logAccepted _ src 0 TND_SCHED_CTRL (setBits (rd s TND_SCHED_CTRL) 1 1 1)⟩
  show execTndSchedSwap src s = _
  simp [execTndSchedSwap, isReady, hr]

/-- The registers of a swap that is taken: the order is withdrawn, and the cycles count from now (R241). -/
def swapRegs (s : State) : State :=
  setReg64 (setReg s TND_SCHED_CTRL (setBits (rd s TND_SCHED_CTRL) 1 1 0)) TND_CYC_ORIGIN_LO (tickNow s)

section
variable (hord : bit (rd s TND_SCHED_CTRL) 1 = true)
  (hstart : (tickNow s - rd64 s TND_CYC_ORIGIN_LO) % (cycleLen s s.tnd.bank * 1000) = 0)
include hord hstart

/-- A swap that is ordered is taken at a cycle's start where the other table passes its checks (R241). -/
theorem exec_schedSwapApply_passes (hok : bankFails s (1 - s.tnd.bank) = none) :
    exec .schedSwapApply s = .next ((swapRegs s).withTnd { s.tnd with
      bank := 1 - s.tnd.bank, slots := [], guards := [], awaited := [] }) := by
  show execSchedSwapApply s = _
  simp only [execSchedSwapApply, hord, hstart, hok, beq_self_eq_true, Bool.or_true, Bool.and_self, Bool.not_true,
    Bool.false_eq_true, if_false]
  rfl

/-- A swap whose table fails a check is refused: the order is withdrawn and the refusal shown, beside its event
(R241). -/
theorem exec_schedSwapApply_fails {n i : Nat} (hbad : bankFails s (1 - s.tnd.bank) = some (n, i)) :
    ∃ t, exec .schedSwapApply s = .next t ∧ recordsOnly
      (setReg s TND_SCHED_CTRL (setBits (setBits (rd s TND_SCHED_CTRL) 1 1 0) 2 1 1)) t := by
  refine ⟨_, ?_, recordsOnly_logUnit _ 0x0241 0 [1 - s.tnd.bank, i, n] (by decide)⟩
  show execSchedSwapApply s = _
  simp only [execSchedSwapApply, hord, hstart, hbad, beq_self_eq_true, Bool.or_true, Bool.and_self, Bool.not_true,
    Bool.false_eq_true, if_false]

end

/-- The order of a swap that is taken no longer stands, and the cycle's origin is the tick of the swap (R241). -/
theorem rd_swapRegs (s : State) : bit (rd (swapRegs s) TND_SCHED_CTRL) 1 = false ∧
    rd64 (swapRegs s) TND_CYC_ORIGIN_LO = tickNow s % 2 ^ 64 := by
  refine ⟨?_, rd64_setReg64_same _ _ _⟩
  rw [swapRegs, rd_setReg64_ne _ _ _ _ (by decide) (by decide), bit_rd_setReg_same _ _ _ (by decide), bit_setBits_same]
  rfl

end

/-- Settles O29: each command's lemma gives the state that it leaves, and the bits of the control register are read off
the number written. -/
theorem schedule : Obligations.Schedule := by
  unfold Obligations.Schedule
  intro src slot s
  refine ⟨fun hon hin hex hbefore hguard honce => ⟨_, exec_slotGuardOpen_due hon hin hex hbefore hguard honce, rfl⟩,
    fun e he hlate => ⟨_, exec_slotEnd_arrived he hlate, rfl, rfl, rfl⟩, ?started, fun hr => ?ordered,
    fun hord hstart hok => ?taken, fun hord hstart n i hbad => ?refused⟩
  case started =>
    rintro u mine hon hin hex hbegun hrest honce rfl rfl
    exact exec_slotStart_due hon hin hex hbegun hrest honce
  case ordered =>
    obtain ⟨t, ht, hrec⟩ := exec_tndSchedSwap_ready hr src
    refine ⟨t, ht, ?_, hrec⟩
    rw [recordsOnly_rd hrec _ (by decide), bit_rd_setReg_same _ _ _ (by decide), bit_setBits_same]
    rfl
  case taken =>
    obtain ⟨hbit, horigin⟩ := rd_swapRegs s
    exact ⟨_, exec_schedSwapApply_passes hord hstart hok, rfl, hbit, horigin, rfl, rfl⟩
  case refused =>
    obtain ⟨t, ht, hrec⟩ := exec_schedSwapApply_fails hord hstart hbad
    refine ⟨t, ht, (recordsOnly_tnd hrec).trans (setReg_tnd _ _ _), ?_, ?_⟩ <;>
      rw [recordsOnly_rd hrec _ (by decide), bit_rd_setReg_same _ _ _ (by decide)]
    · rw [bit_setBits_below _ _ (by decide), bit_setBits_same]
      rfl
    · rw [bit_setBits_same]
      rfl

end Sys2Proof.Machine
end

section
/-! The flask fabric: the requests and the snoops of a window line at its home, and the snoops of a line at a caching
device (R339, R342, R345, R346, R349, R358). -/
namespace Sys2Proof.Machine
open Reg

/-- The home with the open transaction of a line replaced. -/
def replaceTx (s : State) (line : Nat) (t : HomeTx) : State :=
  s.withFlask { s.flask with home := s.flask.home.map (fun v => if v.line = line then t else v) }

/-- The window cache without a line. -/
def dropLine (s : State) (f line : Nat) : State :=
  s.withFlask { s.flask with cache := spDel s.flask.cache (winKey f line) }

/-- The window cache with a line put in the place of its old copy. -/
def putLine (s : State) (f line : Nat) (c : CacheLine) : State :=
  s.withFlask { s.flask with cache := spIns (spDel s.flask.cache (winKey f line)) (winKey f line) c }

/-- The window requests as commands, each with the kind and the data that the home takes of it (R342, R348, R349,
R354). -/
def windowRequests (pos off tag slice bank version aop operand compare : Nat) (cut : Option Nat) (data : List Byte) :
    List (Instr × WinReq × List Byte) :=
  [(.rdS pos off tag slice bank cut, .rdS, []), (.rdX pos off tag slice bank cut, .rdX, []),
    (.rdOnce pos off tag slice bank cut, .rdOnce, []),
    (.wr pos off tag slice bank cut data, .wr, data.take (128 - off % 128)),
    (.atCmd pos off tag slice bank cut aop operand compare, .atomic,
      leBytes 1 (aop % 8) ++ leBytes 8 operand ++ leBytes 8 compare),
    (.wb pos off tag slice bank cut data, .wb, data.take 128), (.peek pos off tag slice bank cut, .peek, []),
    (.check pos off tag slice bank cut version, .check, leBytes 2 version)]

/-- A command that a device serves only while it is READY is served by a READY device. -/
theorem ite_ready {α : Type} {s : State} (hr : s.mode = .ready) (lost served : α) :
    (if s.mode != .ready then lost else served) = served := by
  rw [hr]
  rfl

section
variable {s : State} {pos line : Nat} {t : HomeTx}

/-- A reply without data closes its position's snoop; the transaction goes on waiting for the others. -/
theorem snoopReply_awaits
    (h : s.flask.home.find? (fun t => t.line == line && t.snoops.any (fun n => n.1 == pos)) = some t)
    (hother : ∃ n ∈ t.snoops, n.1 ≠ pos) :
    snoopReply s pos line [] = replaceTx s line { t with snoops := t.snoops.filter (fun n => n.1 != pos) } := by
  have hrest : (t.snoops.filter (fun n => n.1 != pos)).isEmpty = false := by
    simpa using hother
  simp only [snoopReply, h, hrest, List.isEmpty_nil, if_true, Bool.false_eq_true, if_false]
  rfl

/-- The last reply's data are stored, and its transaction is served (R342, R345). -/
theorem snoopReply_serves {data : List Byte}
    (h : s.flask.home.find? (fun t => t.line == line && t.snoops.any (fun n => n.1 == pos)) = some t)
    (hlast : ∀ n ∈ t.snoops, n.1 = pos) (hdata : data ≠ []) :
    snoopReply s pos line data = homePump (serveTx (replaceTx (homeStore s line 0 data).1 line { t with snoops := [] })
      { t with snoops := [] }) := by
  have hrest : t.snoops.filter (fun n => n.1 != pos) = [] := by
    simpa [List.filter_eq_nil_iff] using hlast
  simp only [snoopReply, h, hrest, List.isEmpty_nil, if_true, List.isEmpty_eq_false_iff.mpr hdata, Bool.false_eq_true,
    if_false]
  rfl

theorem exec_ackData_calm {u : State} {data : List Byte} (hr : s.mode = .ready)
    (hreply : snoopReply s pos line (data.take 128) = u) (hc : u.calm) : exec (.ackData pos line data) s = .next u := by
  rw [← orWait_calm s u hc, ← hreply]
  exact ite_ready hr _ _

/-- A position that is silent for 20 µs is marked dead and recorded, and counts as having replied (R358). -/
theorem exec_snoopTimeout_due
    (h : s.flask.home.find? (fun t => t.line == line && t.snoops.any (fun n => n.1 == pos && decide (n.2 + 2000 ≤ tickNow s))) =
      some t) :
    exec (.snoopTimeout pos line) s = .next (orWait s (snoopReply
      (logUnit (setReg s FLK_DEADPOS (setBits (rd s FLK_DEADPOS) pos 1 1)) 0x0315 0
        [pos, snoopCode (homeSnoops s t).1, line]) pos line [])) := by
  show execSnoopTimeout pos line s = _
  simp only [execSnoopTimeout, h]

/-- DONE closes the answered transaction of its sender, and what the free line lets start is started (R346). -/
theorem exec_done_answered (hr : s.mode = .ready)
    (h : s.flask.home.find? (fun t => t.line == line && t.pos == pos && t.answered) = some t)
    (hc : (homePump (closeTx s t)).calm) : exec (.done pos line) s = .next (homePump (closeTx s t)) := by
  show execDone pos line s = _
  rw [execDone, ite_ready hr]
  simp only [h, orWait_calm s _ hc]

/-- A closed transaction's line has no transaction open. -/
theorem closeTx_frees_line (s : State) (t : HomeTx) : ∀ v ∈ (closeTx s t).flask.home, v.line ≠ t.line := fun _ hv =>
  bne_iff_ne.mp (List.mem_filter.mp hv).2

end

section
variable {s : State} {f line : Nat}

theorem cached_dropLine (s : State) (f line : Nat) : cached (dropLine s f line) f line = none := by
  have hfind : (spDel s.flask.cache (winKey f line)).find? (fun e => e.1 == winKey f line) = none :=
    List.find?_eq_none.mpr fun e he => by simpa using spDel_key_ne _ _ e he
  rw [cached, dropLine, State.withFlask_flask, hfind]
  rfl

/-- A snoop other than SNP_SHR drops the copy after its reply, whether the copy is being written back, shared or
modified. -/
theorem snoop_drops {kind : Nat} (hkind : kind ≠ 2) (hcopy : (cached s f line).isSome = true) (slice bank : Nat) :
    ∃ u, snoop s f line slice bank kind = dropLine u f line := by
  obtain ⟨c, hc⟩ := Option.isSome_iff_exists.mp hcopy
  cases hwb : s.flask.wbs.find? (fun w => w.key == winKey f line) with
  | some w =>
    simp only [snoop, hwb, hc]
    exact ⟨_, rfl⟩
  | none =>
    simp only [snoop, hwb, hc, if_neg hkind]
    split
    · exact ⟨_, rfl⟩
    · split <;> exact ⟨_, rfl⟩

/-- SNP_SHR of a modified line sends its data and leaves it shared. -/
theorem snoop_shares {d : List Byte} (hwb : s.flask.wbs.find? (fun w => w.key == winKey f line) = none)
    (hc : cached s f line = some ⟨true, d⟩) (slice bank : Nat) :
    snoop s f line slice bank 2 =
      putLine (sendRsp s "ACK_DATA" f slice bank [ownPos s, line] d) f line ⟨false, d⟩ := by
  simp only [snoop, hwb, hc]
  rfl

theorem exec_snoop_ready (hr : s.mode = .ready) (slice bank : Nat) :
    exec (.snpInv f line slice bank) s = .next (snoop s f line slice bank 1) ∧
    exec (.snpShr f line slice bank) s = .next (snoop s f line slice bank 2) ∧
    exec (.snpRcl f line slice bank) s = .next (snoop s f line slice bank 3) :=
  ⟨ite_ready hr _ _, ite_ready hr _ _, ite_ready hr _ _⟩

/-- A snoop other than SNP_SHR leaves no copy. -/
theorem cached_snoop {kind : Nat} (hkind : kind ≠ 2) (slice bank : Nat) (hcopy : (cached s f line).isSome = true) :
    cached (snoop s f line slice bank kind) f line = none := by
  obtain ⟨u, hu⟩ := snoop_drops hkind hcopy slice bank
  rw [hu, cached_dropLine]

end

/-- Settles O36: the home's reply either leaves snoops open or serves the transaction, and a snoop at a caching device
either drops its line or puts it back as shared. -/
theorem flaskSnoops : Obligations.FlaskSnoops := by
  unfold Obligations.FlaskSnoops
  intro pos line f slice bank data t s hr
  obtain ⟨hinv, hshr, hrcl⟩ := exec_snoop_ready (f := f) (line := line) hr slice bank
  refine ⟨fun h => ⟨?reply, ?last⟩, ?silent, fun h hc => ⟨exec_done_answered hr h hc, closeTx_frees_line s t⟩,
    ⟨_, hinv, cached_snoop (by decide) slice bank⟩, ⟨_, hrcl, cached_snoop (by decide) slice bank⟩, ?shared⟩
  case reply =>
    rintro u hother hc rfl
    exact exec_ackData_calm hr (snoopReply_awaits h hother) hc
  case last =>
    rintro u hlast hdata rfl hc
    have hline : data.take 128 ≠ [] := by simpa using hdata
    exact exec_ackData_calm hr (snoopReply_serves h hlast hline) hc
  case silent =>
    rintro h u rfl hc
    rw [exec_snoopTimeout_due h, orWait_calm s _ hc]
  case shared =>
    intro d hwb hline
    rw [hshr, snoop_shares hwb hline]
    exact ⟨_, rfl, rfl⟩

section
variable {s : State} {k : WinReq} {pos off tag slice bank : Nat} {cut : Option Nat} {data : List Byte}

/-- A request within the window and for an allowed slice takes its place in line, and what may start is started (R339). -/
theorem homeRequest_queued (hcut : heldByCut s cut = false) (hon : winOn s = true) (hin : off < winBytes s)
    (hslice : bit (rd s FLK_WIN_SLICE) slice = true) :
    homeRequest s k pos off tag slice bank cut data = homePump (s.withFlask { s.flask with
      queued := s.flask.queued ++ [⟨off / 128, pos, k, off, data, tag, slice, bank, [], false⟩] }) := by
  simp [homeRequest, hcut, hon, Nat.not_le.mpr hin, hslice]

/-- A request beyond the window is recorded and refused with reason 0 (R339, R361, log entry 74). -/
theorem homeRequest_refused (hcut : heldByCut s cut = false) (hon : winOn s = true) (hbeyond : winBytes s ≤ off) :
    homeRequest s k pos off tag slice bank cut data =
      sendRsp (logUnit s 0x0311 0 ([pos] ++ datum64 off)) "REFUSED" pos slice bank [tag, 0] [] := by
  simp [homeRequest, hcut, hon, hbeyond]

/-- A request of a later step than this device's cut changes nothing yet (R407). -/
theorem homeRequest_held (hcut : heldByCut s cut = true) : homeRequest s k pos off tag slice bank cut data = s :=
  if_pos hcut

/-- A READY device answers every window request by the home's request of its kind and data, unless that has to wait. -/
theorem exec_windowRequest (hr : s.mode = .ready) (version aop operand compare : Nat) :
    ∀ e ∈ windowRequests pos off tag slice bank version aop operand compare cut data,
      exec e.1 s = .next (orWait s (homeRequest s e.2.1 pos off tag slice bank cut e.2.2)) := by
  simp only [windowRequests, List.forall_mem_cons]
  exact ⟨ite_ready hr _ _, ite_ready hr _ _, ite_ready hr _ _, ite_ready hr _ _, ite_ready hr _ _, ite_ready hr _ _,
    ite_ready hr _ _, ite_ready hr _ _, fun _ hnil => absurd hnil List.not_mem_nil⟩

theorem exec_windowRequest_calm {u : State} {i : Instr} {d : List Byte} {version aop operand compare : Nat}
    (hr : s.mode = .ready)
    (he : (i, k, d) ∈ windowRequests pos off tag slice bank version aop operand compare cut data)
    (hreq : homeRequest s k pos off tag slice bank cut d = u) (hc : u.calm) : exec i s = .next u := by
  rw [exec_windowRequest hr _ _ _ _ _ he, hreq, orWait_calm s u hc]

end

/-- Settles O35: each command is `homeRequest` of its kind, and that queues, refuses or holds the request. -/
theorem flaskHome : Obligations.FlaskHome := by
  unfold Obligations.FlaskHome
  intro pos off tag slice bank version aop operand compare c data s hr
  have hnone : heldByCut s none = false := rfl
  refine ⟨hnone, fun i k d he => ⟨?queued, ?refused⟩, fun hheld hc => ?held⟩
  case queued =>
    rintro u hon hin hslice rfl hc
    exact exec_windowRequest_calm hr he (homeRequest_queued hnone hon hin hslice) hc
  case refused =>
    rintro u hon hbeyond rfl hc
    exact exec_windowRequest_calm hr he (homeRequest_refused hnone hon hbeyond) hc
  case held =>
    intro i hi
    obtain ⟨⟨i, k, d⟩, he, rfl⟩ := List.mem_map.mp
      (show i ∈ (windowRequests pos off tag slice bank version aop operand compare (some c) data).map Prod.fst from hi)
    exact exec_windowRequest_calm hr he (homeRequest_held hheld) hc

end Sys2Proof.Machine
end

section
/-! What the counters and the recorder leave of the integrity unit, and where the registers of a physical crucible's risk
and fettle records stand (R369, R453, R470). -/
namespace Sys2Proof.Machine
open Reg

section
variable {s t : State}

/-- Recording an event leaves the integrity unit. -/
theorem recordsOnly_integ (h : recordsOnly s t) : t.integ = s.integ := by
  rw [h.1]

/-- Recording an event leaves every pair outside the recorder. -/
theorem recordsOnly_rd64 (h : recordsOnly s t) {o : Nat} (ho : logReg o = false) (ho4 : logReg (o + 4) = false) :
    rd64 t o = rd64 s o := by
  rw [rd64, recordsOnly_rd h _ ho, recordsOnly_rd h _ ho4, rd64]

/-- A pair reads the same where both of its halves do. -/
theorem rd64_congr {o : Nat} (h : rd t o = rd s o) (h4 : rd t (o + 4) = rd s (o + 4)) : rd64 t o = rd64 s o := by
  rw [rd64, h, h4, rd64]

end

@[simp] theorem rd_withInteg (s : State) (i : Integ) (o : Nat) : rd (s.withInteg i) o = rd s o := rfl

@[simp] theorem rd64_withInteg (s : State) (i : Integ) (o : Nat) : rd64 (s.withInteg i) o = rd64 s o := rfl

/-- A write of one pair leaves every pair beside it. -/
theorem rd64_setReg64_beside (s : State) {off o : Nat} (v : Nat) (h : o + 4 < off ∨ off + 4 < o) :
    rd64 (setReg64 s off v) o = rd64 s o :=
  rd64_congr (rd_setReg64_ne _ _ _ _ (by omega) (by omega)) (rd_setReg64_ne _ _ _ _ (by omega) (by omega))

@[simp] theorem cntAdd_integ (s : State) (off n : Nat) : (cntAdd s off n).integ = s.integ := by
  rw [cntAdd_regs]
  rfl

@[simp] theorem cntAdd_tnd (s : State) (off n : Nat) : (cntAdd s off n).tnd = s.tnd := by
  rw [cntAdd_regs]
  rfl

@[simp] theorem cntAdd_physMap (s : State) (off n : Nat) : (cntAdd s off n).physMap = s.physMap := by
  rw [cntAdd_regs]
  rfl

@[simp] theorem tickNow_cntAdd (s : State) (off n : Nat) : tickNow (cntAdd s off n) = tickNow s := by
  rw [cntAdd_regs]
  rfl

@[simp] theorem satAdd_integ (s : State) (off n : Nat) : (satAdd s off n).integ = s.integ := rfl
@[simp] theorem satAdd_physMap (s : State) (off n : Nat) : (satAdd s off n).physMap = s.physMap := rfl
@[simp] theorem riskAdd_integ (s : State) (p w : Nat) : (riskAdd s p w).integ = s.integ := rfl
@[simp] theorem riskAdd_tnd (s : State) (p w : Nat) : (riskAdd s p w).tnd = s.tnd := rfl
@[simp] theorem riskAdd_physMap (s : State) (p w : Nat) : (riskAdd s p w).physMap = s.physMap := rfl

/-- A saturating counter reads the sum, or its largest value. -/
theorem rd_satAdd_same (s : State) (off n : Nat) : rd (satAdd s off n) off = min (rd s off + n) 0xFFFFFFFF := by
  rw [satAdd, rd_setReg_same, Nat.mod_eq_of_lt (lt_of_le_of_lt (Nat.min_le_right _ _) (by decide))]

/-- A crucible's risk changes no register beyond the risk accumulators and scores. -/
theorem rd_riskAdd_beyond (s : State) {p o : Nat} (w : Nat) (hp : p < 264) (ho : CUP_INT_STATUS ≤ o) :
    rd (riskAdd s p w) o = rd s o := by
  refine rd_setReg_ne _ _ _ _ ?_
  unfold CUP_RISK_ACC
  unfold CUP_INT_STATUS at ho
  omega

/-- The count of a physical crucible's failures stands beyond the integrity unit's own counters and below the
recorder's registers. -/
theorem CUP_FTL_FAILS_bounds {p : Nat} (hp : p < 264) :
    CUP_CHOICE_FIRST_STEP < CUP_FTL_FAILS p ∧ CUP_FTL_FAILS p < CUP_MOD_HOSTDROP_CNT_LO := by
  unfold CUP_FTL_FAILS CUP_CHOICE_FIRST_STEP CUP_MOD_HOSTDROP_CNT_LO
  omega

end Sys2Proof.Machine
end

section
/-! The course of a fettle test: the withdrawal of its move, the retry, the deadline and the result (R373, R375 to
R378). -/
namespace Sys2Proof.Machine
open Reg

/-- The state with the moves of logical crucible c withdrawn, its carrier p DUE again until RETRY has passed (R373). -/
def withdrawMove (s : State) (p c : Nat) : State :=
  (s.withTnd { s.tnd with moves := s.tnd.moves.filter (fun m => m.logical != c) }).withInteg { s.integ with
    ftl := spPut s.integ.ftl p 1 0
    defers := spPut s.integ.defers p (spGet s.integ.defers p 0 + 1) 0
    retryAt := spPut s.integ.retryAt p (tickNow s + ticksPerSecond * rd s CUP_FTL_RETRY) 0 }

/-- The state with a test in place begun and counted, where no context was switched out for it (R377). -/
def testInPlace (s : State) (p : Nat) : State :=
  let u := beginTest (cntAdd s CUP_FTL_INPLACE_CNT_LO 1) p
  u.withInteg { u.integ with inPlace := spIns (spDel u.integ.inPlace p) p (none, tickNow s) }

/-- The state with a crucible's test over: its run is counted, and its scratchpad is cleared (R369). -/
def endTest (s : State) (p : Nat) : State :=
  let u := clearSpad (cntAdd (setCru s p { cruOf s p with testing := none }) CUP_FTL_RUN_CNT_LO 1) p
  u.withInteg { u.integ with inPlace := spDel u.integ.inPlace p }

/-- The state with a pass at a tick noted: the crucible is in service, and has carried nothing since (R375). -/
def notePass (s : State) (p now : Nat) : State :=
  setReg64 (s.withInteg { s.integ with
    ftl := spPut s.integ.ftl p 0 0
    defers := spPut s.integ.defers p 0 0
    retryAt := spPut s.integ.retryAt p 0 0
    carried := spPut s.integ.carried p 0 0 }) (CUP_FTL_LAST_LO p) now

/-- The state with a failure noted: the crucible is out of service, and the failure counts and weighs (R378, R453). -/
def noteFail (s : State) (p : Nat) : State :=
  riskAdd (satAdd (cntAdd (setFtl s p 5) CUP_FTL_FAIL_CNT_LO 1) (CUP_FTL_FAILS p) 1) p (65536 * 255)

section
variable {s : State} {p c : Nat}

@[simp] theorem ftlState_setFtl (s : State) (p n : Nat) : ftlState (setFtl s p n) p = n :=
  spGet_spPut_same _ _ _ _

/-- A test that begins puts its crucible into TESTING and notes its tick (R369). -/
theorem beginTest_effect (s : State) (p : Nat) :
    ftlState (beginTest s p) p = 3 ∧ (cruOf (beginTest s p) p).testing = some (tickNow s) :=
  ⟨ftlState_setFtl _ p 3, congrArg Crucible.testing (cruOf_setCru_same s p _)⟩

/-- A test in place is a test that has begun, counts, and writes no byte of memory (R377). -/
theorem testInPlace_effect (s : State) (p : Nat) :
    ftlState (testInPlace s p) p = 3 ∧ (cruOf (testInPlace s p) p).testing = some (tickNow s) ∧
      rd64 (testInPlace s p) CUP_FTL_INPLACE_CNT_LO = (rd64 s CUP_FTL_INPLACE_CNT_LO + 1) % 2 ^ 64 ∧
      (testInPlace s p).mem = s.mem := by
  obtain ⟨hstate, htesting⟩ := beginTest_effect (cntAdd s CUP_FTL_INPLACE_CNT_LO 1) p
  rw [tickNow_cntAdd] at htesting
  exact ⟨hstate, htesting, (rd64_congr rfl rfl).trans (rd64_cntAdd_same s CUP_FTL_INPLACE_CNT_LO 1),
    count_keeps_mem s CUP_FTL_INPLACE_CNT_LO 1⟩

/-- A withdrawal takes every move of its crucible out of the list. -/
theorem withdrawMove_moves (s : State) (p c : Nat) : ∀ m ∈ (withdrawMove s p c).tnd.moves, m.logical ≠ c :=
  fun _ hm => bne_iff_ne.mp (List.mem_filter.mp hm).2

/-- After a withdrawal the crucible is DUE, one deferral more is counted, and it is ordered again after RETRY. -/
theorem withdrawMove_record (s : State) (p c : Nat) :
    ftlState (withdrawMove s p c) p = 1 ∧
      spGet (withdrawMove s p c).integ.defers p 0 = spGet s.integ.defers p 0 + 1 ∧
      spGet (withdrawMove s p c).integ.retryAt p 0 = tickNow s + ticksPerSecond * rd s CUP_FTL_RETRY :=
  ⟨spGet_spPut_same s.integ.ftl p 1 0, spGet_spPut_same s.integ.defers p (spGet s.integ.defers p 0 + 1) 0,
    spGet_spPut_same s.integ.retryAt p (tickNow s + ticksPerSecond * rd s CUP_FTL_RETRY) 0⟩

/-- The end of a test counts its run and writes no other register. -/
theorem rd_endTest_ne (s : State) (p : Nat) {o : Nat} (ho : o ≠ CUP_FTL_RUN_CNT_LO) (ho4 : o ≠ CUP_FTL_RUN_CNT_LO + 4) :
    rd (endTest s p) o = rd s o :=
  rd_cntAdd_ne _ _ _ _ ho ho4

theorem endTest_carried (s : State) (p : Nat) : (endTest s p).integ.carried = s.integ.carried := by
  simp [endTest, clearSpad]

theorem endTest_physMap (s : State) (p : Nat) : (endTest s p).physMap = s.physMap :=
  cntAdd_physMap _ _ _

/-- After a pass the crucible is in service, and its last pass reads the tick noted (R375). -/
theorem notePass_effect (s : State) (p now : Nat) :
    ftlState (notePass s p now) p = 0 ∧ ftlLast (notePass s p now) p = now % 2 ^ 64 :=
  ⟨spGet_spPut_same s.integ.ftl p 0 0, rd64_setReg64_same _ _ _⟩

/-- Of the integrity unit a failure changes the crucible's fettle state alone. -/
theorem noteFail_integ (s : State) (p : Nat) : (noteFail s p).integ = (setFtl s p 5).integ := by
  rw [noteFail, riskAdd_integ, satAdd_integ, cntAdd_integ]

theorem noteFail_carried (s : State) (p : Nat) : (noteFail s p).integ.carried = s.integ.carried := by
  rw [noteFail_integ]
  rfl

theorem noteFail_physMap (s : State) (p : Nat) : (noteFail s p).physMap = s.physMap := by
  rw [noteFail, riskAdd_physMap, satAdd_physMap, cntAdd_physMap]
  rfl

/-- A failure adds one to the crucible's failures (R378). -/
theorem rd_fails_noteFail (s : State) (hp : p < 264) :
    rd (noteFail s p) (CUP_FTL_FAILS p) = min (rd s (CUP_FTL_FAILS p) + 1) 0xFFFFFFFF := by
  have hlow : CUP_FTL_FAIL_CNT_LO + 4 < CUP_FTL_FAILS p := lt_trans (by decide) (CUP_FTL_FAILS_bounds hp).1
  have hrisk : CUP_INT_STATUS ≤ CUP_FTL_FAILS p := le_trans (by decide) hlow.le
  rw [noteFail, rd_riskAdd_beyond _ _ hp hrisk, rd_satAdd_same, rd_cntAdd_ne _ _ _ _ (by omega) hlow.ne', setFtl,
    rd_withInteg]

/-- A fettle move that has not begun while the resident command lasts 200 ms is withdrawn, counted, weighed and recorded
(R373). -/
theorem exec_fettleDefer_due (hc : carriedBy s p = some c) (hmoving : ftlState s p = 2)
    (hage : 20000000 ≤ commandAge s c)
    (hm : s.tnd.moves.any (fun m => m.logical == c && m.endAt.isNone && m.fettle) = true) :
    ∃ u, exec (.fettleDefer p) s = .next u ∧
      recordsOnly (riskAdd (cntAdd (withdrawMove s p c) CUP_FTL_DEFER_CNT_LO 1) p 65536) u := by
  have hgo : ¬ (ftlState s p ≠ 2 ∨ commandAge s c < 20000000 ∨
      ¬ s.tnd.moves.any (fun m => m.logical == c && m.endAt.isNone && m.fettle) = true) := by
    simp [hmoving, hm, hage]
  refine ⟨_, ?_, recordsOnly_logUnit _ 0x0612 (16 + c)
    ([p, commandAge s c] ++ datum64 (tickNow s + ticksPerSecond * rd s CUP_FTL_RETRY)) (by decide)⟩
  show execFettleDefer p s = _
  simp only [execFettleDefer, hc, if_neg hgo]
  rfl

/-- Without a spare that no pending move counts on, no move is ordered (R373). -/
theorem fettleOrder_noSpare {k : Nat} (h : sparesLeft s k = 0) : fettleOrder s k = s := by
  show orderDue (65 + 1) s k = s
  rw [orderDue, if_pos h]

/-- RETRY after a withdrawal the moves of the casting are ordered (R373). -/
theorem exec_fettleRetry_due (hdue : ftlState s p = 1) (hretry : spGet s.integ.retryAt p 0 ≤ tickNow s) :
    exec (.fettleRetry p) s = .next (fettleOrder s (physCasting p)) :=
  if_pos ⟨hdue, hretry⟩

section
variable (hc : carriedBy s p = some c) (hr : s.mode = .ready) (hdead : ftlDeadline s p ≤ tickNow s)
  (h3 : ftlState s p ≠ 3) (h5 : ftlState s p ≠ 5)
  (hbegun : s.tnd.moves.any (fun m => m.logical == c && m.endAt.isSome) = false)
include hr hdead h3 h5

/-- In READY the deadline of a crucible that is neither under test nor failed acts. -/
theorem fettleDeadline_acts : (s.mode != .ready || decide (tickNow s < ftlDeadline s p) || ftlState s p == 3 ||
    ftlState s p == 5) = false := by
  simp [hr, hdead, h3, h5]

include hc hbegun

/-- Without a free spare the crucible is OVERDUE until its context can be switched out (R377, log entry 75). -/
theorem exec_fettleDeadline_overdue (hspare : freeSpare s c = none) (hsw : canSwitch s c = false) :
    exec (.fettleDeadline p) s = .next (setFtl s p 4) := by
  show execFettleDeadline p s = _
  simp only [execFettleDeadline, hc, fettleDeadline_acts hr hdead h3 h5, hbegun, hspare, hsw, Bool.not_false,
    Bool.false_eq_true, if_false, if_true]

/-- Without a free spare a crucible with no context resident is tested in place (R377). -/
theorem exec_fettleDeadline_inPlace (hspare : freeSpare s c = none) (hsw : canSwitch s c = true)
    (hres : residentOn s c = none) :
    exec (.fettleDeadline p) s = .next (testInPlace s p) := by
  show execFettleDeadline p s = _
  simp only [execFettleDeadline, hc, fettleDeadline_acts hr hdead h3 h5, hbegun, hspare, hsw, hres, Bool.not_true,
    Bool.false_eq_true, if_false]
  rfl

/-- With a free spare a move is ordered that is never withdrawn (R376). -/
theorem exec_fettleDeadline_moves {t : Nat} (hspare : freeSpare s c = some t) (h4 : ftlState s p ≠ 4)
    (hnone : s.tnd.moves.any (fun m => m.logical == c) = false) :
    ∃ u, exec (.fettleDeadline p) s = .next (arbitrate (u.withTnd { u.tnd with
      moves := s.tnd.moves ++ [⟨c, none, none, false⟩] }) c) ∧ recordsOnly (setFtl s p 4) u := by
  have hrec : recordsOnly (setFtl s p 4) (logUnit (setFtl s p 4) 0x0613 (16 + c) [p, t]) :=
    recordsOnly_logUnit _ _ _ _ (by decide)
  have hmoves : (logUnit (setFtl s p 4) 0x0613 (16 + c) [p, t]).tnd.moves = s.tnd.moves := by
    rw [recordsOnly_tnd hrec]
    rfl
  refine ⟨_, ?_, hrec⟩
  show execFettleDeadline p s = _
  simp only [execFettleDeadline, hc, fettleDeadline_acts hr hdead h3 h5, hbegun, hspare, if_neg h4, hnone, orderMove,
    hmoves, Bool.false_eq_true, if_false]

end

section
variable {t : Nat} (ht : (cruOf s p).testing = some t) (hend : t + 150000 ≤ tickNow s)
  (hplace : s.integ.inPlace.find? (fun e => e.1 == p) = none)
include ht hend hplace

/-- A test that passes is noted, and its casting is served: an unavailable crucible first, then the moves that are due
(R371, R375). -/
theorem exec_fettleTestEnd_pass (phase sig : Nat) : ∃ u, recordsOnly (endTest s p) u ∧
    exec (.fettleTestEnd p true phase sig) s =
      .next (fettleOrder (serveUnavailable (notePass u p (tickNow s)) (physCasting p)) (physCasting p)) := by
  refine ⟨_, recordsOnly_logUnit (endTest s p) 0x0610 (16 + (carriedBy s p).getD 0)
    [p, (carriedBy s p).getD 0x1FF, spGet (endTest s p).integ.defers p 0] (by decide), ?_⟩
  show execFettleTestEnd p true phase sig s = _
  simp only [execFettleTestEnd, ht, if_neg (Nat.not_lt.mpr hend), hplace, Option.map_none, if_true]
  rfl

/-- A crucible without load that fails its test is noted, and taints the device if it has carried load since its last
pass (R367, R378). -/
theorem exec_fettleTestEnd_fail (hfree : carriedBy s p = none) (phase sig : Nat) : ∃ u, recordsOnly (endTest s p) u ∧
    exec (.fettleTestEnd p false phase sig) s =
      .next (if spGet (noteFail u p).integ.carried p 0 = 1 then taint (noteFail u p) 4 0 p else noteFail u p) := by
  refine ⟨_, recordsOnly_logUnit (endTest s p) 0x0611 16
    ([p, phase] ++ datum64 sig ++ datum64 (ftlLast s p)) (by decide), ?_⟩
  show execFettleTestEnd p false phase sig s = _
  simp only [execFettleTestEnd, ht, if_neg (Nat.not_lt.mpr hend), hplace, hfree, Option.map_none, Bool.false_eq_true,
    if_false]
  rfl

end

end

/-- Settles O40: each command's lemma gives the state that it leaves beside its event, and the lemmas of that state give
the fettle record and the counters. -/
theorem fettleCourse : Obligations.FettleCourse := by
  unfold Obligations.FettleCourse
  intro p c phase sig s hp
  refine ⟨fun hc hmoving hage hm => ?withdrawn, fun hdue hretry => ⟨exec_fettleRetry_due hdue hretry, ?noSpare⟩,
    fun hc hr hdead h3 h5 hbegun => ⟨exec_fettleDeadline_overdue hc hr hdead h3 h5 hbegun, ?inPlace,
      fun t => exec_fettleDeadline_moves hc hr hdead h3 h5 hbegun⟩,
    fun t ht hend hplace => ⟨?passed, ?failed⟩⟩
  case withdrawn =>
    obtain ⟨u, hu, hrec⟩ := exec_fettleDefer_due hc hmoving hage hm
    have hinteg : u.integ = (withdrawMove s p c).integ := by
      rw [recordsOnly_integ hrec, riskAdd_integ, cntAdd_integ]
    have htnd : u.tnd = (withdrawMove s p c).tnd := by
      rw [recordsOnly_tnd hrec, riskAdd_tnd, cntAdd_tnd]
    obtain ⟨hstate, hdefers, hretry⟩ := withdrawMove_record s p c
    rw [ftlState, ← hinteg] at hstate
    rw [← hinteg] at hdefers hretry
    refine ⟨u, hu, hstate, by rw [htnd]; exact withdrawMove_moves s p c, hdefers, hretry, ?_⟩
    rw [recordsOnly_rd64 hrec (by decide) (by decide),
      rd64_congr (rd_riskAdd_beyond _ _ hp (by decide)) (rd_riskAdd_beyond _ _ hp (by decide)), rd64_cntAdd_same]
    rfl
  case noSpare =>
    intro hspare
    rw [exec_fettleRetry_due hdue hretry, fettleOrder_noSpare hspare]
  case inPlace =>
    intro hspare hsw hres
    exact ⟨_, exec_fettleDeadline_inPlace hc hr hdead h3 h5 hbegun hspare hsw hres, testInPlace_effect s p⟩
  case passed =>
    obtain ⟨u, -, hu⟩ := exec_fettleTestEnd_pass ht hend hplace phase sig
    exact ⟨_, hu, notePass_effect u p (tickNow s)⟩
  case failed =>
    intro hfree hload
    obtain ⟨u, hrec, hu⟩ := exec_fettleTestEnd_fail ht hend hplace hfree phase sig
    have hnoload : (noteFail u p).integ.carried = s.integ.carried := by
      rw [noteFail_carried, recordsOnly_integ hrec, endTest_carried]
    rw [hnoload, if_neg (by simp [hload])] at hu
    obtain ⟨hlow, hhigh⟩ := CUP_FTL_FAILS_bounds hp
    have hrun : CUP_FTL_RUN_CNT_LO + 4 < CUP_FTL_FAILS p := lt_trans (by decide) hlow
    refine ⟨_, hu, ?_, ?_, ?_⟩
    · rw [ftlState, noteFail_integ]
      exact ftlState_setFtl u p 5
    · rw [rd_fails_noteFail u hp, recordsOnly_rd hrec _ (logReg_eq_false (.inl hhigh)),
        rd_endTest_ne s p (by omega) hrun.ne']
    · rw [noteFail_physMap, ← cruTables_snd, recordsOnly_cruTables hrec, cruTables_snd, endTest_physMap]

end Sys2Proof.Machine
end

section
/-! The integrity commands: verify mode, the choices, the taint causes and the digest records of a cope/drag pair (R368,
R380, R389, R390). -/
namespace Sys2Proof.Machine
open Reg

/-- The registers of the choice counters (R390, Table 10.7). -/
def choiceRegs : List Nat :=
  [CUP_CHOICE_CNT_LO, CUP_CHOICE_CNT_LO + 4, CUP_CHOICE_FIRST, CUP_CHOICE_FIRST_STEP] ++
    (List.range 6).map CUP_CHOICE_KIND_CNT

/-- The state without the digests of a key (R389). -/
def dropDigests (s : State) (key : Nat) : State :=
  s.withInteg { s.integ with
    mine := s.integ.mine.filter (fun e => e.1 != key), theirs := s.integ.theirs.filter (fun e => e.1 != key) }

/-- The state with a record of the partner added at this tick (R389). -/
def addTheirs (s : State) (key dg : Nat) : State :=
  s.withInteg { s.integ with theirs := s.integ.theirs ++ [(key, dg, tickNow s)] }

/-- The state with a pair stopped at its first divergence: the key and both digests are shown (R389). -/
def diverge (s : State) (key own part : Nat) : State :=
  let u := setReg64 (setReg64 (setReg64 s CUP_COPE_KEY_LO key) CUP_COPE_OWN_LO own) CUP_COPE_PART_LO part
  u.withInteg { u.integ with cope := 2 }

section
variable {s : State}

/-- A READY device takes each integrity command's write. -/
theorem exec_integrity_ready (hr : s.mode = .ready) (src : Src) (on_ : Bool) (v : Word) :
    exec (.cupIntCtrlVerify src on_) s = .next (setVerify s src on_) ∧
    exec (.clrChoice src) s = .next (clearChoice s src) ∧
    exec (.cupIntTaintClear src v) s = .next (taintClear s src v.toNat) :=
  ⟨ite_ready hr _ _, ite_ready hr _ _, ite_ready hr _ _⟩

/-- A change of verify mode writes its control register and records the write (R380). -/
theorem recordsOnly_setVerify (src : Src) {on_ : Bool}
    (h : rd s CUP_INT_CTRL ≠ setBits (rd s CUP_INT_CTRL) 0 1 (b2n on_)) :
    recordsOnly (setReg s CUP_INT_CTRL (setBits (rd s CUP_INT_CTRL) 0 1 (b2n on_))) (setVerify s src on_) := by
  simp only [setVerify, if_neg h]
  exact recordsOnly_logAccIf true _ src _ _

/-- A taint clear that meets a cause clears the causes it meets, and records the write and the causes (R368). -/
theorem recordsOnly_taintClear (src : Src) {v : Nat} (h : rd s CUP_INT_TAINT &&& v % 64 ≠ 0) :
    recordsOnly (setReg s CUP_INT_TAINT (rd s CUP_INT_TAINT - (rd s CUP_INT_TAINT &&& v % 64))) (taintClear s src v) := by
  simp only [taintClear, if_neg h]
  exact recordsOnly_trans (recordsOnly_logAccepted _ src 0 _ _) (recordsOnly_logUnit _ 0x0603 0 _ (by decide))

/-- A taint clear that meets no cause changes nothing (R368). -/
theorem taintClear_none (src : Src) {v : Nat} (h : rd s CUP_INT_TAINT &&& v % 64 = 0) : taintClear s src v = s :=
  if_pos h

/-- Registers that are cleared one after another read zero, and the others as before. -/
theorem rd_foldl_clear (f : Nat → Nat) (l : List Nat) (s : State) (o : Nat) :
    rd (l.foldl (fun st k => setReg st (f k) 0) s) o = if o ∈ l.map f then 0 else rd s o := by
  induction l generalizing s with
  | nil => simp
  | cons k l ih =>
    rw [List.foldl_cons, ih, rd_setReg, List.map_cons]
    by_cases hl : o ∈ l.map f
    · rw [if_pos hl, if_pos (List.mem_cons_of_mem _ hl)]
    · rw [if_neg hl, Nat.zero_mod]
      exact if_congr (by simp [hl]) rfl rfl

/-- A clear of the choices zeroes their registers alone (R390). -/
theorem rd_zeroChoices (s : State) (o : Nat) : rd (zeroChoices s) o = if o ∈ choiceRegs then 0 else rd s o := by
  simp only [zeroChoices, rd_withInteg, rd_setReg, rd_foldl_clear, setReg64, choiceRegs, List.mem_append,
    List.mem_cons, List.not_mem_nil, or_false, Nat.zero_div, Nat.zero_mod]
  split_ifs <;> tauto

/-- After a clear of the choices each of their registers reads zero (R390). -/
theorem rd_clearChoice_choice (s : State) (src : Src) {o : Nat} (ho : o ∈ choiceRegs) :
    rd (clearChoice s src) o = 0 := by
  rw [clearChoice, rd_zeroChoices, if_pos ho]

/-- A clear of the choices leaves every other register, but for what recording the write advances (R390). -/
theorem rd_clearChoice_other (s : State) (src : Src) {o : Nat} (ho : o ∉ choiceRegs) (hlog : logReg o = false) :
    rd (clearChoice s src) o = rd s o := by
  rw [clearChoice, rd_zeroChoices, if_neg ho, recordsOnly_rd (recordsOnly_logAccIf true s src _ _) o hlog]

section
variable {key : Nat}

/-- A digest whose key this side has no record of waits (R389). -/
theorem matchDigest_waits (h : ∀ e ∈ s.integ.mine, e.1 ≠ key) : matchDigest s key = s := by
  have hmine : s.integ.mine.find? (fun e => e.1 == key) = none := by simpa using h
  simp only [matchDigest, hmine]

/-- Unequal digests of a key stop a running pair (R389). -/
theorem matchDigest_diverges {m t : Nat × Nat × Nat} (hm : s.integ.mine.find? (fun e => e.1 == key) = some m)
    (ht : s.integ.theirs.find? (fun e => e.1 == key) = some t) (hrun : s.integ.cope = 1) (hne : m.2.1 ≠ t.2.1) :
    recordsOnly (diverge (dropDigests s key) key m.2.1 t.2.1) (matchDigest s key) := by
  simp only [matchDigest, hm, ht, if_neg hne, if_pos hrun]
  exact recordsOnly_logUnit _ 0x0630 0 _ (by decide)

/-- What a pair that stopped at a divergence shows (R389). -/
theorem diverge_effect (s : State) (key own part : Nat) : (diverge s key own part).integ.cope = 2 ∧
    rd64 (diverge s key own part) CUP_COPE_KEY_LO = key % 2 ^ 64 ∧
    rd64 (diverge s key own part) CUP_COPE_OWN_LO = own % 2 ^ 64 ∧
    rd64 (diverge s key own part) CUP_COPE_PART_LO = part % 2 ^ 64 := by
  refine ⟨rfl, ?_, ?_, ?_⟩ <;> rw [diverge, rd64_withInteg]
  · rw [rd64_setReg64_beside _ _ (.inl (by decide)), rd64_setReg64_beside _ _ (.inl (by decide)), rd64_setReg64_same]
  · rw [rd64_setReg64_beside _ _ (.inl (by decide)), rd64_setReg64_same]
  · rw [rd64_setReg64_same]

/-- A record of the partner joins a running pair's records and is matched by its key (R389). -/
theorem exec_digestRecord_running (hrun : s.integ.cope = 1) (dg : Nat) :
    exec (.digestRecord key dg) s = .next (matchDigest (addTheirs s key dg) key) :=
  if_neg (by simp [hrun])

/-- The partner's first record of a key is the one that is found. -/
theorem find_addTheirs (dg : Nat) (h : ∀ e ∈ s.integ.theirs, e.1 ≠ key) :
    (addTheirs s key dg).integ.theirs.find? (fun e => e.1 == key) = some (key, dg, tickNow s) := by
  have hnone : s.integ.theirs.find? (fun e => e.1 == key) = none := by simpa using h
  simp [addTheirs, List.find?_append, hnone]

/-- A single record of this side that is left for 1 s stops the pair (R389). -/
theorem exec_copeUnmatchedTimeout_due {d t : Nat} (hrun : s.integ.cope = 1) (hmine : s.integ.mine = [(key, d, t)])
    (htheirs : s.integ.theirs = []) (hdue : t + ticksPerSecond ≤ tickNow s) :
    ∃ u, exec .copeUnmatchedTimeout s = .next u ∧ recordsOnly (s.withInteg { s.integ with cope := 3 }) u := by
  have hgo : ¬ (s.integ.cope ≠ 1 ∨ tickNow s < t + ticksPerSecond) := by simp [hrun, hdue]
  refine ⟨_, ?_, recordsOnly_logUnit _ 0x0631 0 (datum64 key) (by decide)⟩
  show execCopeUnmatchedTimeout s = _
  simp only [execCopeUnmatchedTimeout, hmine, htheirs, List.append_nil, List.foldl_cons, List.foldl_nil, if_neg hgo]

end

end

/-- Settles O41: each command's write is its effect beside what recording it leaves, and a partner's record waits or
stops the pair by the digest that it is matched with. -/
theorem integrityCommands : Obligations.IntegrityCommands := by
  unfold Obligations.IntegrityCommands
  intro src on_ v key dg s hr
  obtain ⟨hverify, hchoice, htaint⟩ := exec_integrity_ready hr src on_ v
  refine ⟨fun h => ⟨_, hverify, recordsOnly_setVerify src h⟩, ⟨_, hchoice, ?count, fun k hk => ?kinds, ?first, ?step,
      rfl, ?taint⟩, fun h => ⟨_, htaint, recordsOnly_taintClear src h⟩, fun h => by rw [htaint, taintClear_none src h],
    fun hrun htheirs => ⟨fun hmine => ?waits, fun d t hmine hne => ?diverges⟩,
    fun d t => exec_copeUnmatchedTimeout_due⟩
  case count => rw [rd64, rd_clearChoice_choice s src (by decide), rd_clearChoice_choice s src (by decide), Nat.mul_zero]
  case kinds =>
    exact rd_clearChoice_choice s src (List.mem_append_right _ (List.mem_map_of_mem (List.mem_range.mpr hk)))
  case first => exact rd_clearChoice_choice s src (by decide)
  case step => exact rd_clearChoice_choice s src (by decide)
  case taint => exact rd_clearChoice_other s src (by decide) (by decide)
  case waits =>
    rw [exec_digestRecord_running hrun, matchDigest_waits (s := addTheirs s key dg) hmine]
    rfl
  case diverges =>
    have hrec := matchDigest_diverges (s := addTheirs s key dg) hmine (find_addTheirs dg htheirs) hrun hne
    obtain ⟨hcope, hkey, hown, hpart⟩ := diverge_effect (dropDigests (addTheirs s key dg) key) key d dg
    refine ⟨_, exec_digestRecord_running hrun dg, ?_, ?_, ?_, ?_⟩
    · rw [recordsOnly_integ hrec, hcope]
    all_goals rw [recordsOnly_rd64 hrec (by decide) (by decide)]
    exacts [hkey, hown, hpart]

end Sys2Proof.Machine
end

section
/-! The ingot's requests: what a write of its control register and the cut request leave (R398, R403, R406). -/
namespace Sys2Proof.Machine
open Reg

/-- The state with the pending cut request replaced (R403). -/
def setWant (s : State) (w : Option (Nat × Nat × Nat)) : State := s.withIngot { s.ingot with want := w }

/-- The state of an ingot that has just been enabled: no copy in the map, no image, no request and no drain (R398). -/
def startIngot (s : State) : State :=
  let u := clearMap s
  u.withIngot { u.ingot with images := [], caches := [], want := none, drain := none, failed := false }

section
variable {s t : State} {kind step : Nat}

/-- Recording an event leaves the ingot. -/
theorem recordsOnly_ingot (h : recordsOnly s t) : t.ingot = s.ingot := by
  rw [h.1]

/-- Recording an event leaves the tick count. -/
theorem recordsOnly_tickNow (h : recordsOnly s t) : tickNow t = tickNow s := by
  rw [h.1]
  rfl

/-- Two states that differ by recording differ by recording alone with the same ingot put in. -/
theorem recordsOnly_withIngot_congr (h : recordsOnly s t) (i : Ingot) :
    recordsOnly (s.withIngot i) (t.withIngot i) :=
  ⟨by rw [h.1]; rfl, h.2⟩

theorem recordsOnly_setWant_congr (h : recordsOnly s t) (w : Option (Nat × Nat × Nat)) :
    recordsOnly (setWant s w) (setWant t w) := by
  rw [setWant, setWant, recordsOnly_ingot h]
  exact recordsOnly_withIngot_congr h _

/-- A cut that is requested while the device is tainted is recorded and not pending (R403). -/
theorem requestCut_tainted (ht : tainted s = true) (hon : ingOn s = true) (hw : s.ingot.want = none) :
    requestCut s kind step = logCup s 0x0702 [1] := by
  simp only [requestCut, hon, hw, ht, Bool.not_true, Option.isSome_none, Bool.or_self, Bool.false_eq_true, if_false,
    if_true]

/-- A cut that is requested of an untainted and idle device outside a window is pending, and nothing else (R403). -/
theorem requestCut_pending (ht : tainted s = false) (hon : ingOn s = true) (hw : s.ingot.want = none)
    (hb : s.ingot.busy = 0) (hf : bits (rd s FLK_CTRL) 0 2 = 0) :
    requestCut s kind step = setWant s (some (kind, step, tickNow s)) := by
  simp only [requestCut, hon, hw, ht, if_neg (not_not.mpr hb), if_pos hf, Bool.not_true, Option.isSome_none,
    Bool.or_self, Bool.false_eq_true, if_false]
  rfl

/-- Recording the write of a request leaves what the request depends on. -/
theorem recordsOnly_cutInputs (h : recordsOnly s t) : tainted t = tainted s ∧ ingOn t = ingOn s ∧
    t.ingot.want = s.ingot.want ∧ t.ingot.busy = s.ingot.busy ∧
    bits (rd t FLK_CTRL) 0 2 = bits (rd s FLK_CTRL) 0 2 := by
  simp only [tainted, ingOn, recordsOnly_ingot h, recordsOnly_rd h CUP_INT_TAINT (by decide),
    recordsOnly_rd h CUP_ING_CTRL (by decide), recordsOnly_rd h FLK_CTRL (by decide), and_self]

/-- A migration cut is dropped while the device is tainted: its write and the refusal are recorded (R403). -/
theorem cutWrite_tainted (src : Src) (ht : tainted s = true) (hon : ingOn s = true) (hw : s.ingot.want = none) :
    recordsOnly s (cutWrite s src) := by
  have hrec := recordsOnly_logAccIf true s src CUP_ING_CTRL (setBits (rd s CUP_ING_CTRL) 2 1 1)
  obtain ⟨htaint, hen, hwant, -, -⟩ := recordsOnly_cutInputs hrec
  rw [cutWrite, requestCut_tainted (htaint.trans ht) (hen.trans hon) (hwant.trans hw)]
  exact recordsOnly_trans hrec (recordsOnly_logCup _ _ _ (by decide))

/-- A migration cut is pending from the tick of its write (R403). -/
theorem cutWrite_pending (src : Src) (ht : tainted s = false) (hon : ingOn s = true) (hw : s.ingot.want = none)
    (hb : s.ingot.busy = 0) (hf : bits (rd s FLK_CTRL) 0 2 = 0) :
    recordsOnly (setWant s (some (2, 0, tickNow s))) (cutWrite s src) := by
  have hrec := recordsOnly_logAccIf true s src CUP_ING_CTRL (setBits (rd s CUP_ING_CTRL) 2 1 1)
  obtain ⟨htaint, hen, hwant, hbusy, hflk⟩ := recordsOnly_cutInputs hrec
  rw [cutWrite, requestCut_pending (htaint.trans ht) (hen.trans hon) (hwant.trans hw) (hbusy.trans hb)
    (hflk.trans hf), recordsOnly_tickNow hrec]
  exact recordsOnly_setWant_congr hrec _

/-- ABANDON withdraws a pending request, and records its write and the withdrawal (R403). -/
theorem abandonWrite_withdraws (src : Src) (hw : s.ingot.want ≠ none) :
    recordsOnly (setWant s none) (abandonWrite s src) := by
  have hsome : ¬ s.ingot.want.isNone = true := by simpa using hw
  rw [abandonWrite, if_neg hsome]
  exact recordsOnly_trans (recordsOnly_setWant_congr (recordsOnly_logAccIf true s src _ _) none)
    (recordsOnly_logCup _ _ _ (by decide))

section
variable {v : Nat} (hon : bit (ingCtrlBits v) 0 = true) (hoff : bit (rd s CUP_ING_CTRL) 0 = false)
include hon hoff

/-- An enable that meets a failing condition writes the other bits and records the condition's place (R398). -/
theorem ingEnable_refused (src : Src) {c : Nat} (hne : rd s CUP_ING_CTRL ≠ ingCtrlBits v - 1)
    (hfail : ingFails s = some c) :
    ingEnable s src v = logCup (logAccepted (setReg s CUP_ING_CTRL (ingCtrlBits v - 1)) src 0 CUP_ING_CTRL
      (ingCtrlBits v - 1)) 0x070F [c] := by
  simp only [ingEnable, hon, hoff, hfail, if_neg hne, Bool.not_false, Bool.and_self, if_true]
  rfl

/-- An enable that meets no failing condition writes its bits, and the ingot starts empty (R398). -/
theorem ingEnable_starts (src : Src) (hpass : ingFails s = none) :
    ingEnable s src v = startIngot (logAccepted (setReg s CUP_ING_CTRL (ingCtrlBits v)) src 0 CUP_ING_CTRL
      (ingCtrlBits v)) := by
  have hne : rd s CUP_ING_CTRL ≠ ingCtrlBits v := fun heq => by simp [← heq, hoff] at hon
  simp only [ingEnable, hon, hoff, hpass, if_neg hne, Bool.not_false, Bool.and_self, if_true]
  rfl

end

/-- A READY device takes each write of the ingot's control register. -/
theorem exec_ingCtrl_ready (hr : s.mode = .ready) (src : Src) (v : Word) :
    exec (.cupIngEnable src v) s = .next (ingEnable s src v.toNat) ∧
    exec (.cut src) s = .next (cutWrite s src) ∧
    exec (.abandon src) s = .next (abandonWrite s src) :=
  ⟨ite_ready hr _ _, ite_ready hr _ _, ite_ready hr _ _⟩

/-- CUT_TAKE takes a pending cut where its conditions hold, and changes nothing where one does not (R404). -/
theorem exec_cutTake_pending {since : Nat} (hw : s.ingot.want = some (kind, step, since)) (peers : List Nat) :
    exec (.cutTake peers) s =
      if cutReady s kind peers = true then .next (takeCut s kind step since) else .next s := by
  show execCutTake peers s = _
  simp only [execCutTake, hw]

/-- A READY device notes a peer's announcement, unless it has noted it (R406). -/
theorem exec_chillAnnounce_ready (hr : s.mode = .ready) (pos : Nat) :
    exec (.chillAnnounce pos) s =
      if s.ingot.chilled.contains pos = true then .next s
      else .next (s.withIngot { s.ingot with chilled := s.ingot.chilled ++ [pos] }) :=
  ite_ready hr _ _

end

/-- Settles O42: each write of the control register is its effect on the ingot beside what recording it leaves, and
CUT_TAKE and CHILL_ANNOUNCE each test the one condition that they depend on. -/
theorem ingotCuts : Obligations.IngotCuts := by
  unfold Obligations.IngotCuts
  intro src v pos peers s hr
  obtain ⟨henable, hcut, habandon⟩ := exec_ingCtrl_ready hr src v
  rw [henable, hcut, habandon, exec_chillAnnounce_ready hr]
  refine ⟨fun c hon hoff hne hfail => ?refused, fun hon hoff hpass => ?started,
    fun ht hon hw => ⟨_, rfl, cutWrite_tainted src ht hon hw⟩,
    fun ht hon hw hb hf => ⟨_, rfl, cutWrite_pending src ht hon hw hb hf⟩,
    fun hw => ⟨_, rfl, abandonWrite_withdraws src hw⟩, fun kind step since hw => ?taken,
    fun hnew => if_neg (Bool.eq_false_iff.mp hnew), fun hold => if_pos hold⟩
  case refused => rw [ingEnable_refused hon hoff src hne hfail]
  case started =>
    rw [ingEnable_starts hon hoff src hpass]
    exact ⟨_, rfl, rfl, rfl, rfl⟩
  case taken =>
    rw [exec_cutTake_pending hw]
    exact ⟨fun hwait => if_neg (Bool.eq_false_iff.mp hwait), fun hgo => if_pos hgo⟩

end Sys2Proof.Machine
end

section
/-! The drain to the buddy: the packets and the seal record at the buddy, and its answer at the ward (R408, R411). -/
namespace Sys2Proof.Machine
open Reg

/-- The state with page `n` of the ward's drain taken: its bytes stand in the half that is not sealed, and its digest is
added to those of the pages before it (R411). -/
def takePage (s : State) (n addr : Nat) (data : List Byte) : State :=
  let u := s.withMem (putBytes s.mem (rd64 s CUP_ING_BSTORE_BASE_LO +
    65536 * ((1 - s.ingot.wardHalf) * halfSlots s + n)) (data.take 65536))
  u.withIngot { u.ingot with
    wardGot := n + 1
    wardSum := ((if n = 0 then 0 else s.ingot.wardSum) + pageDigest addr data) % 2 ^ 64 }

/-- The state with the ward's drain at its start: no page taken and no digest. -/
def clearWard (s : State) : State := s.withIngot { s.ingot with wardGot := 0, wardSum := 0 }

/-- The state with the half that the drain has filled sealed for an epoch, the next drain going to the other (R411). -/
def sealHalf (s : State) (epoch : Nat) : State :=
  let u := clearWard (setReg s CUP_ING_WARD_SEALED epoch)
  u.withIngot { u.ingot with wardHalf := 1 - u.ingot.wardHalf }

section
variable {s : State} (hr : s.mode = .ready)
include hr

section
variable {src epoch n addr step pages dg : Nat} {data : List Byte}

/-- A packet of a device that is not the ward is recorded (R408). -/
theorem exec_drainPacket_stranger (hw : isWard s src = false) :
    exec (.drainPacket src epoch n addr data) s = .next (logCup s 0x0706 [src, 4]) :=
  (ite_ready hr _ _).trans (if_pos (by simp [hw]))

/-- A seal record of a device that is not the ward is recorded (R408). -/
theorem exec_sealRecord_stranger (hw : isWard s src = false) :
    exec (.sealRecord src epoch step pages dg) s = .next (logCup s 0x0706 [src, 4]) :=
  (ite_ready hr _ _).trans (if_pos (by simp [hw]))

section
variable (hw : isWard s src = true)
include hw

/-- The ward's page in turn is taken where it has a slot, and acknowledged (R408, R411). -/
theorem exec_drainPacket_turn (hn : n = if n = 0 then 0 else s.ingot.wardGot) (hslot : n < halfSlots s) :
    exec (.drainPacket src epoch n addr data) s =
      .next (sendMsg (takePage s n addr data) "ACK" src [epoch, n] 1 (drainSlice s) 0 0 0) := by
  refine (ite_ready hr _ _).trans ?_
  simp only [hw, ← hn, hslot, Bool.not_true, Bool.false_eq_true, ne_eq, not_true_eq_false, if_false, if_true]
  rfl

/-- A page of the ward that is neither the first nor in turn changes nothing (R411). -/
theorem exec_drainPacket_outOfTurn (h0 : n ≠ 0) (hn : n ≠ s.ingot.wardGot) :
    exec (.drainPacket src epoch n addr data) s = .next s := by
  refine (ite_ready hr _ _).trans ?_
  simp only [hw, if_neg h0, if_pos hn, Bool.not_true, Bool.false_eq_true, if_false]

section
variable (hfit : pages ≤ halfSlots s)
include hfit

/-- A seal record that agrees with what was taken seals the half, and is answered with 0 (R411). -/
theorem exec_sealRecord_agrees (hgot : s.ingot.wardGot = pages) (hsum : s.ingot.wardSum = dg) :
    exec (.sealRecord src epoch step pages dg) s = .next (sendMsg (logCup (sealHalf s epoch) 0x0705 [src, epoch])
      "SEALED" src [epoch, 0] 1 (drainSlice s) 0 0 0) := by
  refine (ite_ready hr _ _).trans ?_
  have hagree : ¬ (s.ingot.wardGot ≠ pages ∨ s.ingot.wardSum ≠ dg) := by simp [hgot, hsum]
  simp only [hw, if_neg (Nat.not_lt.mpr hfit), if_neg hagree, Bool.not_true, Bool.false_eq_true, if_false]
  rfl

/-- A seal record that does not agree with what was taken is answered with 1, and what was taken is dropped (R411). -/
theorem exec_sealRecord_differs (hdiff : s.ingot.wardGot ≠ pages ∨ s.ingot.wardSum ≠ dg) :
    exec (.sealRecord src epoch step pages dg) s = .next (sendMsg (logCup (clearWard s) 0x0706 [src, 1])
      "SEALED" src [epoch, 1] 1 (drainSlice s) 0 0 0) := by
  refine (ite_ready hr _ _).trans ?_
  simp only [hw, if_neg (Nat.not_lt.mpr hfit), if_pos hdiff, Bool.not_true, Bool.false_eq_true, if_false]
  rfl

end

end

end

section
variable {epoch k start d : Nat}

/-- The buddy's answer to the drain in hand seals the cut where it is 0, and sets the next attempt where it is not
(R411). -/
theorem exec_sealed_buddy {src : Nat} (hd : s.ingot.drain = some (epoch, k, start, d, none))
    (hsrc : src = bits (rd s CUP_ING_BUDDY) 0 16) (result : Nat) :
    exec (.sealed src epoch result) s =
      if result = 0 then .next (logCup (sealCut s epoch) 0x0703 [epoch, k, tickNow s - start])
      else .next (logCup (s.withIngot { s.ingot with
        drain := some (epoch, k, start, d, some (tickNow s + ticksPerSecond)) }) 0x0704 [epoch, result, k]) := by
  have hbuddy : ¬ (epoch ≠ epoch ∨ src ≠ bits (rd s CUP_ING_BUDDY) 0 16) := by simp [hsrc]
  refine (ite_ready hr _ _).trans ?_
  simp only [hd, if_neg hbuddy]

/-- A drain that failed begins again from its next attempt's tick, and not before (R411). -/
theorem exec_drainRetry_failed {t : Nat} (hd : s.ingot.drain = some (epoch, k, start, d, some t)) :
    exec .drainRetry s = if tickNow s < t then .next s else .next (startDrain s) := by
  show execDrainRetry s = _
  simp only [execDrainRetry, hd, hr, ne_eq, not_true_eq_false, or_false]

end

end

/-- Settles O43: each packet's lemma gives the state that the drain leaves beside its event and its answer. -/
theorem ingotDrain : Obligations.IngotDrain := by
  unfold Obligations.IngotDrain
  intro src epoch n addr pages dg result step data s hr
  refine ⟨fun hw => ⟨_, recordsOnly_logCup s 0x0706 [src, 4] (by decide), exec_drainPacket_stranger hr hw,
      exec_sealRecord_stranger hr hw⟩,
    fun hw hn hslot => ⟨_, exec_drainPacket_turn hr hw hn hslot, rfl, rfl, rfl⟩,
    fun hw h0 hn => exec_drainPacket_outOfTurn hr hw h0 hn,
    fun hw hfit hgot hsum => ⟨_, _, exec_sealRecord_agrees hr hw hfit hgot hsum,
      recordsOnly_logCup (sealHalf s epoch) _ _ (by decide), rd_setReg_same s CUP_ING_WARD_SEALED epoch, rfl, rfl⟩,
    fun hw hfit hdiff => ⟨_, exec_sealRecord_differs hr hw hfit hdiff,
      recordsOnly_logCup (clearWard s) _ _ (by decide)⟩,
    fun k start d hd hsrc => ⟨?sealed, fun hres => ?failed⟩,
    fun e k start d t hd => ?retry⟩
  case sealed => rw [exec_sealed_buddy hr hd hsrc, if_pos rfl]
  case failed =>
    rw [exec_sealed_buddy hr hd hsrc, if_neg hres]
    exact ⟨_, rfl, recordsOnly_logCup _ _ _ (by decide)⟩
  case retry =>
    rw [exec_drainRetry_failed hr hd]
    exact ⟨fun hdue => if_neg (Nat.not_lt.mpr hdue), fun hearly => if_pos hearly⟩

end Sys2Proof.Machine
end

section
/-! What a step keeps: the fuses once programmed, the canonical form of memory and scratchpads, and the order of the Heat
Log (R431, R465 to R468). -/
namespace Sys2Proof.Machine

section
variable {s t : State}

theorem step_of_pending_nil (hp : s.pending = []) : step s = .next (tick s) := by
  simp only [step, hp]

theorem step_of_pending_cons {c : Instr} {rest : List Instr} (hp : s.pending = c :: rest) :
    step s = exec c { s with pending := rest } := by
  simp only [step, hp]

/-- A state in order is kept with the queue and the fuses that it has. -/
theorem kept_of_inOrder (h : s.inOrder) : Kept s.pending s.fuses s := by
  obtain ⟨⟨hmem, hspad⟩, hlog⟩ := h
  exact ⟨rfl, rfl, hmem, hspad, hlog⟩

/-- A kept state is in order, and its fuses are the kept ones. -/
theorem inOrder_of_kept {p : List Instr} {z : Bool × List Byte × Bool} (h : Kept p z s) : s.inOrder ∧ s.fuses = z := by
  obtain ⟨-, hfuses, hmem, hspad, hlog⟩ := h
  exact ⟨⟨⟨hmem, hspad⟩, hlog⟩, hfuses⟩

/-- A step from a state in order leads to one in order, and changes no fuses that are programmed: a tick keeps them, and
so does the command at the front of the queue. -/
theorem step_inOrder (h : s.inOrder) (hx : step s = .next t) :
    t.inOrder ∧ (s.fuses.1 = true → t.fuses = s.fuses) := by
  have hk := kept_of_inOrder h
  cases hp : s.pending with
  | nil =>
    rw [step_of_pending_nil hp] at hx
    obtain rfl := Host.Outcome.next.inj hx
    obtain ⟨hord, hfuses⟩ := inOrder_of_kept (tick_kept s hk)
    exact ⟨hord, fun _ => hfuses⟩
  | cons c rest =>
    rw [step_of_pending_cons hp] at hx
    have hrest : Kept rest s.fuses { s with pending := rest } := ⟨rfl, hk.2⟩
    obtain ⟨z, ht, hz⟩ := exec_kept c _ t hrest hx
    obtain ⟨hord, hfuses⟩ := inOrder_of_kept ht
    exact ⟨hord, fun hburnt => hfuses.trans (hz hburnt)⟩

end

/-- Settles O5: no step changes fuses that are programmed. -/
theorem programmedFusesStay : Obligations.ProgrammedFusesStay := by
  unfold Obligations.ProgrammedFusesStay
  intro s t h hburnt hx
  exact (step_inOrder h hx).2 hburnt

/-- Settles O6: a step from a state in order leads to one in order. -/
theorem everyStepKeepsOrder : Obligations.EveryStepKeepsOrder := by
  unfold Obligations.EveryStepKeepsOrder
  intro s t h hx
  exact (step_inOrder h hx).1

end Sys2Proof.Machine
end

section
/-! The voltage and frequency loop outside safety action: the point that it chooses from one between FLOOR and CEIL
(R447). -/
namespace Sys2Proof.Machine
open Reg

section
variable {s : State} {k : Nat}

theorem mayRaise_iff : mayRaise s = true ↔
    s.cup.p10 + 50 ≤ bits (rd s CUP_POWER_LIMIT) 0 12 ∧ s.cup.tj + 2 ≤ bits (rd s CUP_T_TARGET) 0 7 := by
  simp [mayRaise]

theorem mustLower_iff : mustLower s = true ↔
    bits (rd s CUP_POWER_LIMIT) 0 12 < s.cup.p10 ∨ bits (rd s CUP_T_TARGET) 0 7 < s.cup.tj := by
  simp [mustLower]

/-- Power and temperature that leave room to raise the point are above no limit. -/
theorem not_mustLower_of_mayRaise (h : mayRaise s = true) : ¬ mustLower s = true := by
  rw [mayRaise_iff] at h
  rw [mustLower_iff]
  omega

section
variable (hdet : s.integ.det = false) (hlo : vfFloor s ≤ k) (hhi : k ≤ vfCeil s)
include hdet hlo hhi

/-- From a point within its limits the loop goes one up, one down, or nowhere (R447). -/
theorem loopPoint_within : loopPoint s k = if mayRaise s = true ∧ k < vfCeil s then k + 1
    else if mustLower s = true ∧ vfFloor s < k then k - 1 else k := by
  simp only [loopPoint, hdet, Bool.false_eq_true, if_false, if_neg (Nat.not_lt.mpr hlo), if_neg (Nat.not_lt.mpr hhi),
    decide_eq_false (Nat.not_lt.mpr hlo), Bool.and_false, Bool.and_eq_true, decide_eq_true_eq]

/-- The chosen point lies within the limits, at most one point away (R447). -/
theorem loopPoint_bounds : vfFloor s ≤ loopPoint s k ∧ loopPoint s k ≤ vfCeil s ∧ loopPoint s k ≤ k + 1 ∧
    k ≤ loopPoint s k + 1 := by
  rw [loopPoint_within hdet hlo hhi]
  split_ifs <;> omega

theorem lt_loopPoint_iff : k < loopPoint s k ↔ mayRaise s = true ∧ k < vfCeil s := by
  rw [loopPoint_within hdet hlo hhi]
  split_ifs with hraise
  · exact iff_of_true k.lt_succ_self hraise
  · exact iff_of_false (Nat.not_lt.mpr (k.sub_le 1)) hraise
  · exact iff_of_false (lt_irrefl k) hraise

theorem loopPoint_lt_iff : loopPoint s k < k ↔ mustLower s = true ∧ vfFloor s < k := by
  rw [loopPoint_within hdet hlo hhi]
  split_ifs with hraise hlower
  · exact iff_of_false (Nat.not_lt.mpr k.le_succ) fun h => not_mustLower_of_mayRaise hraise.1 h.1
  · exact iff_of_true (by omega) hlower
  · exact iff_of_false (lt_irrefl k) hlower

end

end

/-- Settles O48: the loop's choice has one lemma for its bounds, one for raising and one for lowering. -/
theorem loopStaysInLimits : Obligations.LoopStaysInLimits := by
  unfold Obligations.LoopStaysInLimits
  intro k s hdet hlo hhi
  obtain ⟨hfloor, hceil, hup, hdown⟩ := loopPoint_bounds hdet hlo hhi
  refine ⟨hfloor, hceil, hup, hdown, ?_, ?_⟩
  · rw [lt_loopPoint_iff hdet hlo hhi, mayRaise_iff, and_assoc]
  · rw [loopPoint_lt_iff hdet hlo hhi, mustLower_iff]

end Sys2Proof.Machine
end

section
/-! COLD_START: when it acts, and where it ends before the steps of Table 12.4 (R434, R482, R488). -/
namespace Sys2Proof.Machine
open Reg

/-- The state from which a cold start that takes n ticks goes on: the main domain as after reset, MOD_RST_N released, and
its time gone by (R434, R486, log entry 65). -/
def coldEntry (s : State) (n : Nat) : State :=
  advance ((mainReset s).withModule { (mainReset s).module_ with rstHeld := false, faultN := false }) n

/-- The state with the rails taken off for restarts by the given causes, and FAULT_N held until PWR_EN cycles (R482). -/
def restartStop (s : State) (causes : List Nat) : State :=
  let u := latchEvent (railsOff s 5) 0x082A causes (tickNow s)
  u.withModule { u.module_ with faultN := true, needCycle := true }

section
variable {c : ColdStart} {s : State}

/-- Outside a held device with its main rails on COLD_START changes nothing. -/
theorem exec_coldStart_idle (h : s.mode ≠ .held ∨ s.module_.rails = false) : exec (.coldStart c) s = .next s := by
  refine if_pos ?_
  obtain hmode | hrails := h
  · simp [hmode]
  · simp [hrails]

section
variable (hm : s.mode = .held) (hrails : s.module_.rails = true)
include hm hrails

/-- The third restart within 10 s takes the rails off (R482). -/
theorem exec_coldStart_restarted {causes : List Nat} (hlim : restartLimit c.restarts = some causes) :
    exec (.coldStart c) s = .next (restartStop (coldEntry s c.took) causes) := by
  show execColdStart c s = _
  simp only [execColdStart, hm, hrails, hlim, bne_self_eq_false, Bool.not_true, Bool.or_self, Bool.false_eq_true, if_false]
  rfl

/-- With fewer restarts the straps are latched, and the test strap decides whether the steps of Table 12.4 run (R488). -/
theorem exec_coldStart_straps (hlim : restartLimit c.restarts = none) :
    exec (.coldStart c) s = if bit (rd (latchStraps (coldEntry s c.took) c) CUP_MOD_STRAPS) 25 = true
      then .next ((latchStraps (coldEntry s c.took) c).withModule
        { (latchStraps (coldEntry s c.took) c).module_ with faultN := true })
      else .next (coldRun (latchStraps (coldEntry s c.took) c) c) := by
  show execColdStart c s = _
  simp only [execColdStart, hm, hrails, hlim, bne_self_eq_false, Bool.not_true, Bool.or_self, Bool.false_eq_true, if_false]
  rfl

end

end

/-- Settles O46: COLD_START has one lemma for the device that it does not reach, one for the restarts, and one for the
straps. -/
theorem coldStarts : Obligations.ColdStarts := by
  unfold Obligations.ColdStarts
  intro c s
  refine ⟨exec_coldStart_idle, ?_⟩
  rintro hm hrails _ rfl
  refine ⟨fun causes hlim => ⟨_, exec_coldStart_restarted hm hrails hlim, rfl, rfl⟩, fun hlim htest => ?strapped,
    fun hlim hrun => ?runs⟩
  case strapped => exact (exec_coldStart_straps hm hrails hlim).trans (if_pos htest)
  case runs => exact (exec_coldStart_straps hm hrails hlim).trans (if_neg (Bool.eq_false_iff.mp hrun))

end Sys2Proof.Machine
end

section
/-! Management frames: which of them reaches the device, and what it answers (R437, R439 to R441, R457, R465). -/
namespace Sys2Proof.Machine
open Reg

/-- The frames of the management interfaces with a CRC that fails, each with its command byte (R441). -/
def badFrames (src : Src) (tag space width addr v u len off first count : Nat) (data : List Byte)
    (program require : Bool) (c : ColdStart) : List (Nat × Instr) :=
  [(1, .read src false tag space width addr), (2, .write src false tag space width addr v),
    (0x10, .unitRead src false tag u), (0x11, .orderStop src false tag u), (0x11, .orderResume src false tag u),
    (0x11, .orderDisableContext src false tag u), (0x11, .orderMove src false tag u),
    (0x11, .orderDisableGroup src false tag u), (0x11, .orderRetrain src false tag u), (0x11, .orderDown src false tag u),
    (0x11, .orderUp src false tag u), (0x11, .orderCut src false tag u), (0x20, .imageBegin src false tag len program),
    (0x21, .imageData src false tag off data), (0x22, .imageEnd src false tag c), (0x23, .imageStatus src false tag),
    (0x24, .fuseKey src false tag data require), (0x30, .hlogRead src false tag first count)]

section
variable {s : State} {src : Src} {acts : Bool} {run : State → State} {tag cmd : Nat}

/-- A frame whose CRC fails is answered BAD_FRAME where it arrives, and that is all (R441). -/
theorem manage_badFrame (s : State) (src : Src) (tag cmd : Nat) (acts : Bool) (run : State → State) :
    manage s src false tag cmd acts run = if frameArrives s src = true then respond s src tag cmd 2 [] else s := by
  cases harr : frameArrives s src <;> simp [manage, harr]

/-- A command that acts now has its effect where its frame arrives (R437). -/
theorem manage_acts (harr : frameArrives s src = true) (hacts : acts = true) :
    manage s src true tag cmd acts run = run s := by
  simp [manage, harr, hacts]

/-- A command that does not act now is answered REFUSED where its frame arrives (R437). -/
theorem manage_refused (harr : frameArrives s src = true) (hacts : acts = false) :
    manage s src true tag cmd acts run = respond s src tag cmd 1 [] := by
  simp [manage, harr, hacts]

/-- A response is an output, over I3C with an in-band interrupt (R439). -/
theorem recordsOnly_respond (s : State) (src : Src) (tag cmd st : Nat) (payload : List Nat) :
    recordsOnly s (respond s src tag cmd st payload) := by
  cases src <;> exact ⟨rfl, fun _ _ => rfl⟩

/-- Every frame whose CRC fails is answered BAD_FRAME where it arrives. -/
theorem exec_badFrame (s : State) (src : Src) (tag space width addr v u len off first count : Nat) (data : List Byte)
    (program require : Bool) (c : ColdStart) :
    ∀ e ∈ badFrames src tag space width addr v u len off first count data program require c,
      exec e.2 s = .next (if frameArrives s src = true then respond s src tag e.1 2 [] else s) := by
  simp only [badFrames, List.forall_mem_cons, List.not_mem_nil, false_imp_iff, implies_true, and_true]
  and_intros
  all_goals exact congrArg Host.Outcome.next (manage_badFrame s src tag _ _ _)

section
variable (harr : frameArrives s src = true)
include harr

/-- READ of BAR0 answers the value that the register access reads (R441). -/
theorem exec_read_bar0 {width addr n : Nat} {w : State} (hacts : readActs s 0 width addr = true)
    (hread : regRead s src addr width = (w, n)) :
    exec (.read src true tag 0 width addr) s = .next (respond w src tag 1 0 [n]) := by
  refine congrArg Host.Outcome.next ((manage_acts harr hacts).trans ?_)
  simp only [manageRead, hread, if_true]

/-- READ is refused where it does not act (R437). -/
theorem exec_read_refused {space width addr : Nat} (hacts : readActs s space width addr = false) :
    exec (.read src true tag space width addr) s = .next (respond s src tag 1 1 []) :=
  congrArg Host.Outcome.next (manage_refused harr hacts)

/-- WRITE to BAR0 makes the register access, and answers REFUSED where that was discarded (R441, log entry 67). -/
theorem exec_write_bar0 {width addr v : Nat} (hacts : writeActs s 0 width addr = true) :
    exec (.write src true tag 0 width addr v) s = .next (respond (regWriteAny s src addr width v) src tag 2
      (if (regWriteAny s src addr width v).hlog.refused = s.hlog.refused then 0 else 1) []) := by
  refine congrArg Host.Outcome.next ((manage_acts harr hacts).trans ?_)
  simp [manageWrite, status, b2n]

section
variable (hserving : serving s = true)
include hserving

/-- UNIT_READ answers the unit's entry (R457). -/
theorem exec_unitRead_serving {u : Nat} (hu : u < 565) :
    exec (.unitRead src true tag u) s = .next (respond s src tag 0x10 0 [(unitEntry s u).1, (unitEntry s u).2]) :=
  congrArg Host.Outcome.next (manage_acts harr (by simp [hserving, hu]))

/-- IMAGE_STATUS answers what was received, its verdict, and what was programmed (R441). -/
theorem exec_imageStatus_serving :
    exec (.imageStatus src true tag) s =
      .next (respond s src tag 0x23 0 [s.cup.got, s.cup.verdict, rd s CUP_IMG_PROG]) :=
  congrArg Host.Outcome.next (manage_acts harr hserving)

/-- HLOG_READ within the log answers as many entries as it asks for (R441, R465). -/
theorem exec_hlogRead_serving {first count : Nat} (h1 : 1 ≤ count) (h16 : count ≤ 16)
    (hfit : first + count ≤ hlogSize) :
    exec (.hlogRead src true tag first count) s = .next (respond s src tag 0x30 0 ((List.range count).flatMap (fun i =>
      (s.hlog.entries.getD (first + i) (List.replicate 16 0)).map (·.toNat)))) := by
  have hfirst : first < hlogSize := by omega
  have hall : min count (hlogSize - first) = count := by omega
  refine congrArg Host.Outcome.next ((manage_acts harr (by simp [hserving, h1, h16, hfirst])).trans ?_)
  simp only [hall]

end

end

end

/-- Settles O49: a frame whose CRC fails has one lemma for every command, and each command that acts has its own. -/
theorem managementFrames : Obligations.ManagementFrames := by
  unfold Obligations.ManagementFrames
  intro src tag space width addr v u len off first count data program require c s
  refine ⟨fun e he => ⟨fun hdead => ?dead, fun harr => ⟨?bad, recordsOnly_respond s src tag e.1 2 []⟩⟩, fun harr =>
    ⟨fun hacts w n hread => exec_read_bar0 harr hacts hread, fun hacts => exec_read_refused harr hacts,
      fun hacts w hw => hw ▸ exec_write_bar0 harr hacts, fun hserving hu => exec_unitRead_serving harr hserving hu,
      fun hserving => exec_imageStatus_serving harr hserving,
      fun hserving h1 h16 hfit => exec_hlogRead_serving harr hserving h1 h16 hfit⟩⟩
  all_goals refine (exec_badFrame s src tag space width addr v u len off first count data program require c e he).trans ?_
  case dead => rw [if_neg (Bool.eq_false_iff.mp hdead)]
  case bad => rw [if_pos harr]

end Sys2Proof.Machine
end

section
/-! Orders: each action is refused, done at its unit's boundary, or left pending before it (R458). -/
namespace Sys2Proof.Machine

/-- The frames of an order, each with its action (Table 12.7). -/
def orderFrames (src : Src) (tag u : Nat) : List (Nat × Instr) :=
  [(1, .orderStop src true tag u), (2, .orderResume src true tag u), (3, .orderDisableContext src true tag u),
    (4, .orderMove src true tag u), (5, .orderDisableGroup src true tag u), (6, .orderRetrain src true tag u),
    (7, .orderDown src true tag u), (8, .orderUp src true tag u), (9, .orderCut src true tag u)]

section
variable {s : State} {src : Src} {tag u a : Nat}

/-- A READY device takes every order that arrives for one of its action's units. -/
theorem exec_orderFrame_ready (hr : s.mode = .ready) (harr : frameArrives s src = true) :
    ∀ e ∈ orderFrames src tag u, orderUnit e.1 u = true → exec e.2 s = .next (order s src tag e.1 u) := by
  have htaken (a : Nat) (hunit : orderUnit a u = true) :
      orderFrame s src true tag a u = .next (order s src tag a u) :=
    congrArg Host.Outcome.next (manage_acts harr (by simp [isReady, hr, hunit]))
  simp only [orderFrames, List.forall_mem_cons, List.not_mem_nil, false_imp_iff, implies_true, and_true]
  and_intros
  all_goals exact htaken _

/-- An order that does not apply to its unit is refused (log entry 68). -/
theorem order_refused (happ : orderApplies s u a = false) : order s src tag a u = respond s src tag 0x11 1 [] := by
  simp [order, status, happ]

section
variable (hnew : spGet s.cup.orders u 0 = 0) (happ : orderApplies s u a = true)
include hnew happ

/-- At its unit's boundary an order has its effect, is recorded and answered done (R458). -/
theorem order_done (hbound : orderBoundary s u a = true) :
    order s src tag a u = respond (logSrc (setUnit (orderAct s src u a) u 0 (unitState (orderAct s src u a) u)) 0x0904
      src [u, a]) src tag 0x11 0 [] := by
  simp [order, status, hnew, happ, hbound]

/-- Before its unit's boundary an order is left pending, recorded and answered so (R458). -/
theorem order_pending (hbound : orderBoundary s u a = false) :
    order s src tag a u = respond (logSrc (setUnit s u a (spGet s.cup.units u (0, 0)).1) 0x0903 src [u, a]) src tag
      0x11 3 [] := by
  simp [order, status, hnew, happ, hbound]

end

/-- A pending order that still applies acts at its unit's boundary, and not before (R458). -/
theorem exec_orderApply_pending (hr : s.mode = .ready) (ha : spGet s.cup.orders u 0 = a) (hpend : a ≠ 0)
    (happ : orderApplies s u a = true) : exec (.orderApply u) s = if orderBoundary s u a = true
    then .next (logCup (setUnit (orderAct s .cupola u a) u 0 (unitState (orderAct s .cupola u a) u)) 0x0904 [u, a])
    else .next s := by
  show execOrderApply u s = _
  cases hbound : orderBoundary s u a <;> simp [execOrderApply, hr, ha, hpend, happ, hbound]

end

/-- Settles O50: every frame is `order` of its action, and that refuses the order, does it, or leaves it pending. -/
theorem ordersActAtBoundaries : Obligations.OrdersActAtBoundaries := by
  unfold Obligations.OrdersActAtBoundaries
  intro src tag u s hr
  refine ⟨fun e he harr hunit hnew => ?_, fun a ha hpend happ => ?_⟩
  · rw [exec_orderFrame_ready hr harr e he hunit]
    refine ⟨fun happ => by rw [order_refused happ], fun happ hbound w hw => ?_, fun happ hbound => ?_⟩
    · rw [order_done hnew happ hbound, hw]
    · rw [order_pending hnew happ hbound]
  · rw [exec_orderApply_pending hr ha hpend happ]
    refine ⟨fun hbound => if_neg (Bool.eq_false_iff.mp hbound), fun hbound w hw => ?_⟩
    rw [if_pos hbound, hw]

end Sys2Proof.Machine
end

section
/-! The Cupola's loops: the comparator's hold, the change of the root point, the supervision pass, the scores and the decay
of risk, and the writes of the loops' limits (R426, R447 to R449, R453). -/
namespace Sys2Proof.Machine
open Reg

/-- The state with the hold of the fast comparator asserted, and point 0 not yet ordered for it (R449). -/
def tripHold (s : State) : State :=
  s.withCup { s.cup with trip := true, hold := true, acted := s.cup.acted / 2 * 2 }

/-- The state with root point k in force and its change counted (R448). -/
def reachPoint (s : State) (k : Nat) : State :=
  cntAdd (s.withClock { s.clock with point := k, changing := none }) CUP_VF_CHG_CNT_LO 1

/-- The state with one part's accumulator decayed (R453). -/
def decayPart (s : State) (n : Nat) : State := setReg s (CUP_RISK_ACC n) (rd s (CUP_RISK_ACC n) * 15 / 16)

section
variable {s t : State}

/-- Recording an event leaves the Cupola. -/
theorem recordsOnly_cup (h : recordsOnly s t) : t.cup = s.cup := by
  rw [h.1]

/-- A counter leaves the clock. -/
@[simp] theorem cntAdd_clock (s : State) (off n : Nat) : (cntAdd s off n).clock = s.clock := by
  rw [cntAdd_regs]
  rfl

@[simp] theorem riskAdd_cup (s : State) (p w : Nat) : (riskAdd s p w).cup = s.cup := rfl

/-- What a hold records and weighs leaves the Cupola and memory. -/
theorem holdEvent_frame (s : State) (cause : Nat) (asserted : Bool) :
    (holdEvent s cause asserted).cup = s.cup ∧ (holdEvent s cause asserted).mem = s.mem := by
  have hrec : recordsOnly s (logCup s 0x0804 [cause, s.cup.tj, s.cup.p10]) := recordsOnly_logCup _ _ _ (by decide)
  simp only [holdEvent]
  split
  · exact ⟨(riskAdd_cup _ _ _).trans (recordsOnly_cup hrec), (riskAdd_mem _ _ _).trans (recordsOnly_mem hrec)⟩
  · exact ⟨recordsOnly_cup hrec, recordsOnly_mem hrec⟩

/-- A move between root points goes at most 8 points (R448). -/
theorem stepPoint_bounds (k target : Nat) : stepPoint k target ≤ k + 8 ∧ k ≤ stepPoint k target + 8 := by
  unfold stepPoint
  split <;> omega

/-- What follows a change of point depends on the chosen one: none, or a move towards it (R448). -/
theorem beginChange_settled (h : s.clock.changing = none) : (beginChange s).clock.changing =
    if s.clock.point = s.clock.target then none
    else some (stepPoint s.clock.point s.clock.target, s.clock.now + 200) := by
  by_cases heq : s.clock.point = s.clock.target <;> simp [beginChange, h, heq]

/-- The beginning of a change leaves the point in force and every register. -/
theorem beginChange_frame (s : State) :
    (beginChange s).clock.point = s.clock.point ∧ (beginChange s).regs = s.regs := by
  simp only [beginChange]
  split <;> exact ⟨rfl, rfl⟩

/-- Before its tick a pass does nothing (R426). -/
theorem exec_supervisionPass_early {p10 tj inlet outlet : Nat} {temps : List (Nat × Bool)} {lost : List Nat}
    (hearly : tickNow s < s.cup.passAt) : exec (.supervisionPass p10 tj temps inlet outlet lost) s = .next s :=
  if_pos (by simp [hearly])

section
variable (hr : s.mode = .ready)
include hr

/-- In READY the fast comparator asserts its hold, unless it stands (R449). -/
theorem exec_inputOverLimit_ready : exec .inputOverLimit s =
    if s.cup.trip = true then .next s else .next (holdEvent (tripHold s) 1 true) := by
  show execInputOverLimit s = _
  cases htrip : s.cup.trip <;> simp [execInputOverLimit, hr, htrip, tripHold]

/-- Once its tick has come, a pass in READY ends with the heartbeat of its tick (R426). -/
theorem exec_supervisionPass_due {p10 tj inlet outlet : Nat} {temps : List (Nat × Bool)} {lost : List Nat}
    (hdue : s.cup.passAt ≤ tickNow s) : ∃ u, exec (.supervisionPass p10 tj temps inlet outlet lost) s =
      .next (setReg u CUP_WDT_HEART (tickNow s)) :=
  ⟨_, if_neg (by simp [hr, hdue])⟩

/-- The update of risk acts in READY once its tick has come (R426, log entry 79). -/
theorem exec_riskUpdate_ready (lanes : List (Nat × Nat × Nat × Nat)) : exec (.riskUpdate lanes) s =
    if tickNow s < s.cup.riskAt then .next s
    else .next (lanes.foldl (fun st e => laneLoop st (e.1 % 36) (e.2.1 % 16) e.2.2.1 e.2.2.2)
      ((List.range 300).foldl scorePart (s.withCup { s.cup with riskAt := s.cup.riskAt + ticksPerSecond }))) := by
  show execRiskUpdate lanes s = _
  simp only [execRiskUpdate, hr, beq_self_eq_true, Bool.true_or, Bool.not_true, Bool.or_false, decide_eq_true_eq]

/-- The decay of risk in READY, once its tick has come (R453). -/
theorem exec_riskDecay_due (hdue : s.cup.decayAt ≤ tickNow s) : exec .riskDecay s = .next
    ((List.range 300).foldl decayPart (s.withCup { s.cup with decayAt := s.cup.decayAt + 3600 * ticksPerSecond })) :=
  if_neg (by simp [hr, hdue])

/-- A READY device takes each write of the loops' limits, and of the accumulators that there are (R447, R453). -/
theorem exec_cupVfLimitWrite_ready (src : Src) (ceil : Bool) (v : Word) :
    exec (.cupVfLimitWrite src ceil v) s = .next (vfLimitWrite s src ceil v.toNat) :=
  ite_ready hr _ _

theorem exec_cupRiskAccWrite_ready (src : Src) (u : Nat) (v : Word) : exec (.cupRiskAccWrite src u v) s =
    if 300 ≤ u then .next (logDiscard s src (CUP_RISK_ACC u) 4 7)
    else .next (plainWrite s src (CUP_RISK_ACC u) v.toNat) :=
  ite_ready hr _ _

end

/-- The end of a change of point puts the point in force and goes on from there (R448). -/
theorem exec_rootPointChangeEnd_changing {k t0 : Nat} (h : s.clock.changing = some (k, t0)) :
    exec .rootPointChangeEnd s = .next (beginChange (reachPoint s k)) := by
  show execRootPointChangeEnd s = _
  simp only [execRootPointChangeEnd, h]
  rfl

theorem reachPoint_clock (s : State) (k : Nat) :
    (reachPoint s k).clock = { s.clock with point := k, changing := none } :=
  cntAdd_clock _ _ _

/-- A change that goes on leaves the point reached and its count. -/
theorem beginChange_reachPoint (s : State) (k : Nat) : (beginChange (reachPoint s k)).clock.point = k ∧
    rd64 (beginChange (reachPoint s k)) CUP_VF_CHG_CNT_LO = (rd64 s CUP_VF_CHG_CNT_LO + 1) % 2 ^ 64 := by
  obtain ⟨hpoint, hregs⟩ := beginChange_frame (reachPoint s k)
  have hrd (o : Nat) : rd (beginChange (reachPoint s k)) o = rd (reachPoint s k) o := by
    rw [rd, reg, hregs]
    rfl
  refine ⟨by rw [hpoint, reachPoint_clock], ?_⟩
  rw [rd64_congr (hrd _) (hrd _)]
  exact rd64_cntAdd_same _ CUP_VF_CHG_CNT_LO 1

/-- From the point reached the next change goes towards the chosen point, where that is another (R448). -/
theorem beginChange_reachPoint_changing (s : State) (k : Nat) : (beginChange (reachPoint s k)).clock.changing =
    if k = s.clock.target then none else some (stepPoint k s.clock.target, s.clock.now + 200) := by
  rw [beginChange_settled (by rw [reachPoint_clock]), reachPoint_clock]

section
variable {l : List Nat}

/-- The decay of some parts leaves every register but their accumulators. -/
theorem reg_foldl_decayPart_other {o : Nat} (h : ∀ n ∈ l, o ≠ CUP_RISK_ACC n) : reg (l.foldl decayPart s) o = reg s o := by
  induction l generalizing s with
  | nil => rfl
  | cons a l ih =>
    rw [List.foldl_cons, ih fun n hn => h n (List.mem_cons_of_mem a hn)]
    exact reg_setReg_ne _ _ _ _ (h a List.mem_cons_self)

/-- The accumulators of two parts are two registers. -/
theorem CUP_RISK_ACC_inj {m n : Nat} : CUP_RISK_ACC m = CUP_RISK_ACC n ↔ m = n := by
  unfold CUP_RISK_ACC
  omega

/-- The decay takes 15/16 of what an accumulator holds. -/
theorem rd_decayPart_same (s : State) (n : Nat) :
    rd (decayPart s n) (CUP_RISK_ACC n) = rd s (CUP_RISK_ACC n) * 15 / 16 := by
  have := rd_lt s (CUP_RISK_ACC n)
  rw [decayPart, rd_setReg_same, Nat.mod_eq_of_lt (by omega)]

/-- The decay of several parts takes 15/16 of each one's accumulator, once (R453). -/
theorem rd_foldl_decayPart (hl : l.Nodup) {n : Nat} (hn : n ∈ l) :
    rd (l.foldl decayPart s) (CUP_RISK_ACC n) = rd s (CUP_RISK_ACC n) * 15 / 16 := by
  induction l generalizing s with
  | nil => exact absurd hn List.not_mem_nil
  | cons a l ih =>
    obtain ⟨ha, hl⟩ := List.nodup_cons.mp hl
    rw [List.foldl_cons]
    by_cases heq : n = a
    · subst heq
      have hother : ∀ m ∈ l, CUP_RISK_ACC n ≠ CUP_RISK_ACC m := by
        rintro m hm hnm
        exact ha (CUP_RISK_ACC_inj.mp hnm ▸ hm)
      rw [rd, reg_foldl_decayPart_other hother]
      exact rd_decayPart_same s n
    · rw [ih hl ((List.mem_cons.mp hn).resolve_left heq), decayPart, rd_setReg_ne _ _ _ _ (mt CUP_RISK_ACC_inj.mp heq)]

end

section
variable {o v : Nat}

/-- A write that changes a plain register is recorded (R442). -/
theorem recordsOnly_plainWrite (src : Src) (hv : v < 2 ^ 32) (hne : rd s o ≠ v) :
    recordsOnly (setReg s o v) (plainWrite s src o v) := by
  rw [plainWrite, if_neg (by rwa [Nat.mod_eq_of_lt hv])]
  exact recordsOnly_logAccepted _ src 0 o _

/-- A limit above point 48, or a FLOOR above CEIL, is discarded (R447). -/
theorem recordsOnly_vfLimitWrite_discarded (src : Src) {ceil : Bool}
    (h : 48 < bits v 0 6 ∨ ceil = false ∧ vfCeil s < bits v 0 6) : recordsOnly s (vfLimitWrite s src ceil v) := by
  have hbad : (s.integ.det || decide (48 < bits v 0 6) ||
      (if ceil then decide (bits v 0 6 < vfFloor s) else decide (vfCeil s < bits v 0 6))) = true := by
    obtain hhigh | ⟨rfl, habove⟩ := h
    · simp [hhigh]
    · simp [habove]
  simp only [vfLimitWrite, hbad, if_true]
  exact recordsOnly_logDiscard s src _ 4 8

/-- A CEIL between FLOOR and point 48 is written outside deterministic mode (R447, R450). -/
theorem vfLimitWrite_ceil (src : Src) (hdet : s.integ.det = false) (hlo : vfFloor s ≤ bits v 0 6)
    (hhi : bits v 0 6 ≤ 48) : vfLimitWrite s src true v = plainWrite s src CUP_VF_CEIL (bits v 0 6) := by
  simp [vfLimitWrite, hdet, hlo, hhi]

end

end

/-- Settles O47: each command's lemma gives the state that it leaves, and the lemmas of that state give the point, the
heartbeat, the accumulators and the limits. -/
theorem cupolaLoops : Obligations.CupolaLoops := by
  unfold Obligations.CupolaLoops
  intro src v p10 tj inlet outlet u temps lost lanes ceil s hr
  have hrisk := exec_riskUpdate_ready hr
  have hfield : bits v.toNat 0 6 < 2 ^ 32 := (Nat.mod_lt _ (by decide)).trans (by decide : (2 : Nat) ^ 6 < 2 ^ 32)
  rw [exec_inputOverLimit_ready hr, exec_cupVfLimitWrite_ready hr, exec_cupVfLimitWrite_ready hr,
    exec_cupVfLimitWrite_ready hr, exec_cupRiskAccWrite_ready hr, hrisk, hrisk, List.foldl_nil]
  refine ⟨fun htrip => ?trips, fun htrip => if_pos htrip, fun k t0 hchg => ?changes, exec_supervisionPass_early,
    fun hdue => ?passes, fun hdue => if_neg (Nat.not_lt.mpr hdue),
    fun hearly => if_pos hearly, fun hdue => ⟨_, exec_riskDecay_due hr hdue, fun n hn => ?decays, fun o ho => ?others⟩,
    fun hhigh => ⟨_, rfl, recordsOnly_vfLimitWrite_discarded src (.inl hhigh)⟩,
    fun habove => ⟨_, rfl, recordsOnly_vfLimitWrite_discarded src (.inr ⟨rfl, habove⟩)⟩,
    fun hdet hlo hhi hne => ⟨_, rfl, ?limit⟩,
    fun hu hne => ⟨_, if_neg (Nat.not_le.mpr hu), recordsOnly_plainWrite src v.isLt hne⟩,
    fun hu => ⟨_, if_pos hu, recordsOnly_logDiscard s src _ 4 7⟩⟩
  case trips =>
    obtain ⟨hcup, hmem⟩ := holdEvent_frame (tripHold s) 1 true
    refine ⟨_, if_neg (Bool.eq_false_iff.mp htrip), ?_, ?_, hmem⟩ <;> rw [hcup] <;> rfl
  case changes =>
    obtain ⟨hpoint, hcount⟩ := beginChange_reachPoint s k
    refine ⟨_, exec_rootPointChangeEnd_changing hchg, hpoint, hcount, fun hdone => ?_, fun j e hnext => ?_⟩
    · rw [beginChange_reachPoint_changing, if_pos hdone]
    · rw [beginChange_reachPoint_changing, Option.ite_none_left_eq_some, Option.some.injEq, Prod.mk.injEq] at hnext
      obtain ⟨-, rfl, rfl⟩ := hnext
      exact ⟨(stepPoint_bounds _ _).1, (stepPoint_bounds _ _).2, rfl⟩
  case passes =>
    obtain ⟨w, hw⟩ := exec_supervisionPass_due hr hdue
    exact ⟨_, hw, rd_setReg_same w CUP_WDT_HEART _⟩
  case decays => exact rd_foldl_decayPart List.nodup_range (List.mem_range.mpr hn)
  case others => exact reg_foldl_decayPart_other fun n hn => ho n (List.mem_range.mp hn)
  case limit =>
    rw [vfLimitWrite_ceil src hdet hlo hhi]
    exact recordsOnly_plainWrite src hfield hne

end Sys2Proof.Machine
end

section
/-! The outcomes of the commands: what stands behind each but JTAG_INSTRUCTION is a tree of conditions and matches whose
every end is a next state (log entries 4 and 6). -/
namespace Sys2Proof.Machine

/-- An outcome that is a next state. -/
def Answers (o : Host.Outcome State Fault Refusal) : Prop := ∃ t, o = .next t

theorem answers_next (t : State) : Answers (.next t) := ⟨t, rfl⟩

theorem answers_ite {p : Prop} [Decidable p] {a b : Host.Outcome State Fault Refusal} (ha : Answers a)
    (hb : Answers b) : Answers (if p then a else b) := by
  split
  · exact ha
  · exact hb

/-- Every command but JTAG_INSTRUCTION answers a next state. The commands named below match on what they find, and are
split along their matches; the others only test conditions. -/
theorem exec_answers {c : Instr} (hport : ∀ kind, c ≠ .jtagInstruction kind) (s : State) : Answers (exec c s) := by
  cases c with
  | jtagInstruction kind => exact absurd rfl (hport kind)
  | itemComplete | nop | step | mma | turn | semSignal | semSet | semWait | semWaitSatisfied | semWaitShared
  | ssemWaitSatisfied | lendReturn | passStart | planeFill | runnerRefillRequest | runnerRefillReturn | tileDrain
  | pageMoveEnd | ladleResponse | remoteRequestTimeout | sweep | lossScaleLoop | stage | swcheck | cancel | alloyTestEnd
  | contextSwitchEnd | slotEnd | schedSwapApply | moveEnd | bringupRetry | ackSendTimer | ackTimeout | retrainEnd
  | partnerAnswerTimeout | escapeWait | creditReserve | data | ack | peekMiss | checkOk | checkFail | refused | done
  | remoteAccessArrive | snoopTimeout | fettleDefer | fettleDeadline | fettleTestEnd | copeUnmatchedTimeout | cutTake
  | sealed | drainRetry | loadComplete | shakeoutEnd | quenchComplete | coldStart | rootPointChangeEnd | nvmProgramDone
  | hlogClearEnd | overVoltageReconnect | mainRailHoldExpiry | refclkRestored | i3cLinesReleased | bar2Write =>
    dsimp only [exec, execItemComplete, execNop, execStep, execMma, execTurn, execSemSignal, execSemSet, execSemWait,
      execSemWaitSatisfied, execSemWaitShared, execSsemWaitSatisfied, execLendReturn, execPassStart, execPlaneFill,
      execRunnerRefillRequest, execRunnerRefillReturn, execTileDrain, execPageMoveEnd, execLadleResponse,
      execRemoteRequestTimeout, execSweep, execLossScaleLoop, execStage, execSwcheck, execCancel, execAlloyTestEnd,
      execContextSwitchEnd, execSlotEnd, execSchedSwapApply, execMoveEnd, execBringupRetry, execAckSendTimer,
      execAckTimeout, execRetrainEnd, execPartnerAnswerTimeout, execEscapeWait, execCreditReserve, execData, execAck,
      execPeekMiss, execCheckOk, execCheckFail, execRefused, execDone, execRemoteAccessArrive, execSnoopTimeout,
      execFettleDefer, execFettleDeadline, execFettleTestEnd, execCopeUnmatchedTimeout, execCutTake, execSealed,
      execDrainRetry, execLoadComplete, execShakeoutEnd, execQuenchComplete, execColdStart, execRootPointChangeEnd,
      execNvmProgramDone, execHlogClearEnd, execOverVoltageReconnect, execMainRailHoldExpiry, execRefclkRestored,
      execI3cLinesReleased, execBar2Write]
    repeat' split
    all_goals exact answers_next _
  | _ =>
    repeat' apply answers_ite
    all_goals exact answers_next _

/-- Settles O3: each command's tree of conditions ends in a next state. -/
theorem everyCommandCompletes : Obligations.EveryCommandCompletes := by
  unfold Obligations.EveryCommandCompletes
  exact fun c s hport => exec_answers hport s

end Sys2Proof.Machine
end

section
/-! The state after reset (R486, R519, log entries 1, 7 and 12). -/
namespace Sys2Proof.Machine

/-- The state after reset is in order: nothing is listed in memory, and the recorder is in order. -/
theorem inOrder_reset : State.reset.inOrder := ⟨⟨rfl, rfl⟩, reset_sound⟩

/-- Settles O7: no register and no byte is listed, so that each reads its unlisted value. -/
theorem resetState : Obligations.ResetState := by
  unfold Obligations.ResetState
  exact ⟨inOrder_reset, rfl, rfl, rfl, fun _ => rfl, fun _ => rfl, fun _ => rfl, rfl, rfl, rfl, rfl, rfl, rfl⟩

end Sys2Proof.Machine
end

section
/-! The test access port: which instructions it takes, and what becomes of one that it does not take (R493). -/
namespace Sys2Proof.Machine
open Reg

section
variable {kind : Nat} {s : State}

/-- BYPASS, IDCODE and SAMPLE change nothing. -/
theorem exec_jtagInstruction_open (h : kind < 3) : exec (.jtagInstruction kind) s = .next s := if_pos h

section
variable (h : 3 ≤ kind)
include h

/-- An instruction that is taken as BYPASS leaves the record of the attempt. -/
theorem exec_jtagInstruction_barred (hheld : s.module_.rstHeld = false) (hen : bit (rd s CUP_MOD_CTRL) 0 = false) :
    exec (.jtagInstruction kind) s = .next (logDiscard s .cupola 0 0 12) := by
  show execJtagInstruction kind s = _
  rw [execJtagInstruction, if_neg (Nat.not_lt.mpr h), if_pos (by simp [hheld, hen])]

/-- With MOD_RST_N asserted or JTAG_EN set, EXTEST and CLAMP change nothing, and a debug instruction stops the
model (log entry 71). -/
theorem exec_jtagInstruction_acts (hacts : s.module_.rstHeld = true ∨ bit (rd s CUP_MOD_CTRL) 0 = true) :
    exec (.jtagInstruction kind) s = if kind < 5 then .next s else .fault .privateDebug := by
  have hok : ¬ ((!s.module_.rstHeld && !bit (rd s CUP_MOD_CTRL) 0) = true) := by
    obtain hheld | hen := hacts
    · simp [hheld]
    · simp [hen]
  show execJtagInstruction kind s = _
  rw [execJtagInstruction, if_neg (Nat.not_lt.mpr h), if_neg hok]

end

end

/-- Settles O56: the port has one lemma for the instructions that it always takes, one for the others where they are
barred, and one where they act. -/
theorem jtagInstructions : Obligations.JtagInstructions := by
  unfold Obligations.JtagInstructions
  intro kind s
  refine ⟨exec_jtagInstruction_open, fun h hheld hen => ⟨_, exec_jtagInstruction_barred h hheld hen,
    recordsOnly_logDiscard s .cupola 0 0 12⟩, fun h h5 hacts => ?pins, fun h hacts => ?debug⟩
  case pins => rw [exec_jtagInstruction_acts h hacts, if_pos h5]
  case debug =>
    rw [exec_jtagInstruction_acts (le_trans (by decide) h) hacts, if_neg (Nat.not_lt.mpr h)]

end Sys2Proof.Machine
end

section
/-! The module's monitors: what its events leave, the monitor quench, holdover, and the reset and the training of the
PCIe link (R480, R481, R487, R496). -/
namespace Sys2Proof.Machine
open Reg

/-- The state with a monitor quench of a part counted, recorded, and kept with the two before it (R480, R482). -/
def noteTrip (s : State) (part measured : Nat) : State :=
  let u := logCup (cntAdd s CUP_MOD_MONQ_CNT_LO 1) 0x0820 [part, measured]
  u.withModule { u.module_ with
    trips := (u.module_.trips ++ [(u.module_.now, part)]).drop (u.module_.trips.length - 2) }

section
variable {s t : State}

/-- Recording an event leaves the module. -/
theorem recordsOnly_module (h : recordsOnly s t) : t.module_ = s.module_ := by
  rw [h.1]

/-- Recording an event leaves the mode, memory, the queues and the sprues. -/
theorem recordsOnly_frame (h : recordsOnly s t) :
    t.mode = s.mode ∧ t.mem = s.mem ∧ t.queues = s.queues ∧ t.sprues = s.sprues := by
  rw [h.1]
  exact ⟨rfl, rfl, rfl, rfl⟩

/-- An event of the module is recorded where the main domain runs, and else leaves nothing (R496). -/
theorem recordsOnly_logModule (s : State) {code : Nat} (data : List Nat) (h : code < 4096) :
    recordsOnly s (logModule s code data) := by
  unfold logModule
  split
  · exact recordsOnly_logCup s code data h
  · exact recordsOnly_refl s

/-- A counter leaves the module. -/
@[simp] theorem cntAdd_module (s : State) (off n : Nat) : (cntAdd s off n).module_ = s.module_ := by
  rw [cntAdd_regs]
  rfl

theorem serving_of_ready (hr : s.mode = .ready) : serving s = true := by
  simp [serving, hr]

/-- A monitor quench is kept with the two before it (R480). -/
theorem noteTrip_trips (s : State) (part measured : Nat) : (noteTrip s part measured).module_.trips =
    (s.module_.trips ++ [(s.module_.now, part)]).drop (s.module_.trips.length - 2) := by
  simp only [noteTrip, State.withModule_module_, recordsOnly_module (recordsOnly_logCup _ 0x0820 _ (by decide)),
    cntAdd_module]

/-- A monitor quench is counted once (R480). -/
theorem rd64_noteTrip (s : State) (part measured : Nat) :
    rd64 (noteTrip s part measured) CUP_MOD_MONQ_CNT_LO = (rd64 s CUP_MOD_MONQ_CNT_LO + 1) % 2 ^ 64 := by
  have hrec := recordsOnly_logCup (cntAdd s CUP_MOD_MONQ_CNT_LO 1) 0x0820 [part, measured] (by decide)
  exact (recordsOnly_rd64 hrec (by decide) (by decide)).trans (rd64_cntAdd_same s _ 1)

/-- In READY a monitor quench that is not the third within its limit begins a quench of cause 5 without a shakeout
(R480, R482). -/
theorem monitorQuench_begins (hr : s.mode = .ready) {part : Nat} (measured : Nat)
    (hlim : repeatedTrip ((s.module_.trips ++ [(s.module_.now, part)]).drop (s.module_.trips.length - 2)) = none) :
    monitorQuench s part measured = beginQuench (noteTrip s part measured) 5
      ((s.cup.quench.map (·.profile)).getD s.cup.profile) false .cupola := by
  rw [← noteTrip_trips s part measured] at hlim
  unfold noteTrip at hlim ⊢
  simp only [monitorQuench, serving_of_ready hr, Bool.not_true, Bool.false_eq_true, if_false, hlim, hr,
    beq_self_eq_true, Bool.true_or, if_true]

/-- A rail but VAUX outside its window is a monitor quench (R477, R480). -/
theorem exec_railFault_monitored {rail : Nat} (h : rail ≠ 9) (measured : Nat) :
    exec (.railFault rail measured) s = .next (monitorQuench s rail measured) := if_neg h

/-- Without a link PERST_N resets the MSI-X state alone (R487). -/
theorem exec_perstN_linkDown (h : s.module_.pcieUp = false) : exec .perstN s = .next { s with bar4 := [] } := by
  have hm : { s.module_ with pcieUp := false } = s.module_ := by rw [← h]
  show execPerstN s = _
  simp only [execPerstN, h, Bool.not_false, if_true, hm]

/-- With a link up PERST_N takes it down, resets the MSI-X state, and records it (R487). -/
theorem exec_perstN_linkUp (h : s.module_.pcieUp = true) : ∃ u, exec .perstN s = .next u ∧
    recordsOnly { s with bar4 := [], draws := s.draws + 1, module_ := { s.module_ with pcieUp := false } } u :=
  ⟨_, if_neg (by simp [h]), recordsOnly_logModule _ _ (by decide)⟩

/-- A serving device whose link is down takes a trained link as up, and records it (R487, R491). -/
theorem exec_pcieLinkUp_trained (width rate : Nat) (h : s.module_.pcieUp = false) (hserving : serving s = true) :
    ∃ u, exec (.pcieLinkUp width rate) s = .next u ∧
      recordsOnly { s with draws := s.draws + 1, module_ := { s.module_ with pcieUp := true } } u :=
  ⟨_, if_neg (by simp [h, hserving]), recordsOnly_logModule _ _ (by decide)⟩

/-- With the rails on, a reference clock that fails begins holdover, unless it stands (R480, R481). -/
theorem exec_refclkFault_begins (cause : Nat) (h : s.module_.holdover = none) (hrails : s.module_.rails = true) :
    ∃ u, exec (.refclkFault cause) s = .next u ∧
      recordsOnly (s.withModule { s.module_ with holdover := some (s.module_.now, cause) }) u :=
  ⟨_, if_neg (by simp [h, hrails]), recordsOnly_logModule _ _ (by decide)⟩

theorem exec_refclkFault_stands (cause : Nat) (h : s.module_.holdover ≠ none) :
    exec (.refclkFault cause) s = .next s :=
  if_pos (by simp [Option.isSome_iff_ne_none.mpr h])

/-- A restored reference clock ends holdover (R480, R481). -/
theorem exec_refclkRestored_ends {start cause : Nat} (h : s.module_.holdover = some (start, cause)) :
    ∃ u, exec .refclkRestored s = .next u ∧ recordsOnly (s.withModule { s.module_ with holdover := none }) u := by
  show ∃ u, execRefclkRestored s = .next u ∧ _
  simp only [execRefclkRestored, h]
  exact ⟨_, rfl, recordsOnly_logModule _ _ (by decide)⟩

end

/-- Settles O55: each command's lemma gives the state that it leaves beside its event. -/
theorem moduleMonitors : Obligations.ModuleMonitors := by
  unfold Obligations.ModuleMonitors
  intro rail measured width rate pll cause s
  refine ⟨fun hdown => ⟨_, exec_perstN_linkDown hdown, rfl, fun _ => rfl⟩, fun hup => ?reset,
    fun hdown hserving => ?trained,
    fun hr hrail hlim => ⟨noteTrip s rail measured, ?begins, rd64_noteTrip s rail measured⟩, rfl, rfl,
    exec_refclkFault_begins cause, exec_refclkFault_stands cause, fun _ => exec_refclkRestored_ends⟩
  case reset =>
    obtain ⟨u, hu, hrec⟩ := exec_perstN_linkUp hup
    obtain ⟨hmode, hmem, hqueues, hsprues⟩ := recordsOnly_frame hrec
    exact ⟨u, hu, congrArg Module.pcieUp (recordsOnly_module hrec), hmode, hmem, hqueues, hsprues⟩
  case trained =>
    obtain ⟨u, hu, hrec⟩ := exec_pcieLinkUp_trained width rate hdown hserving
    obtain ⟨hmode, hmem, -, -⟩ := recordsOnly_frame hrec
    exact ⟨u, hu, congrArg Module.pcieUp (recordsOnly_module hrec), hmode, hmem⟩
  case begins => rw [exec_railFault_monitored hrail, monitorQuench_begins hr measured hlim]

end Sys2Proof.Machine
end

section
/-! The requests to the BARs while READY is not shown: none of them reaches its register or its byte (R498). -/
namespace Sys2Proof.Machine

/-- The test of READY with which the host's commands begin, where it fails. -/
theorem isReady_barred {s : State} (h : s.mode ≠ .ready) : (!isReady s) = true := by
  simp [isReady, h]

/-- The test of READY with which the host's commands begin, where it holds. -/
theorem isReady_open {s : State} (h : s.mode = .ready) : ¬ (!isReady s) = true := by
  simp [isReady, h]

/-- Settles O8: each of the commands tests READY before it does anything else, and answers there. -/
theorem notReadyIsUnsupported : Obligations.NotReadyIsUnsupported := by
  unfold Obligations.NotReadyIsUnsupported
  intro s src o w v n x y z b d h
  have hbar : (!isReady s) = true := isReady_barred h
  exact ⟨if_pos hbar, if_pos hbar, if_pos hbar, if_pos hbar, if_pos hbar, if_pos hbar, if_pos hbar, if_pos hbar,
    if_pos hbar, if_pos hbar⟩

end Sys2Proof.Machine
end

section
/-! The high-half latches: one for each source, and what the reads of a counter pair give and leave of them (R501 to
R503). -/
namespace Sys2Proof.Machine

section
variable {α : Type} (l : Sparse α) (k : Nat)

/-- A table without a key has no entry at that key. -/
theorem find?_spDel_same : (spDel l k).find? (fun e => e.1 == k) = none :=
  List.find?_eq_none.mpr fun e he => by simpa using spDel_key_ne l k e he

/-- A table without a key has its entries at every other key. -/
theorem find?_spDel_ne {j : Nat} (h : j ≠ k) :
    (spDel l k).find? (fun e => e.1 == j) = l.find? (fun e => e.1 == j) := by
  rw [spDel, List.find?_filter]
  refine List.find?_congr fun e _ => ?_
  by_cases he : e.1 = j
  · simp [he, h]
  · simp [he]

/-- A pair put into a table without its key is the entry at that key. -/
theorem find?_spIns_same (v : α) (h : ∀ e ∈ l, e.1 ≠ k) : (spIns l k v).find? (fun e => e.1 == k) = some (k, v) := by
  induction l with
  | nil => simp [spIns]
  | cons e t ih =>
    obtain ⟨j, w⟩ := e
    have hj : (j == k) = false := by simpa using h (j, w) (by simp)
    unfold spIns
    split
    · simp
    · simpa [hj] using ih fun e he => h e (by simp [he])

/-- A pair put into a table leaves the entries at every other key. -/
theorem find?_spIns_ne (v : α) {j : Nat} (h : j ≠ k) :
    (spIns l k v).find? (fun e => e.1 == j) = l.find? (fun e => e.1 == j) := by
  have hk : (k == j) = false := by simpa using h.symm
  induction l with
  | nil => simp [spIns, hk]
  | cons e t ih =>
    unfold spIns
    split
    · simp [hk]
    · simp only [List.find?_cons, ih]

end

/-- The source that a latch's key names. -/
def latchSrc (key : Nat) : Src :=
  match key % 8 with
  | 0 => .unit (key / 8)
  | 1 => .pcie
  | 2 => .mctp (key / 8)
  | 3 => .i3c (key / 8)
  | _ => .cupola

theorem latchSrc_latchKey (src : Src) : latchSrc (latchKey src) = src := by
  cases src with
  | pcie | cupola => rfl
  | mctp e | i3c e | unit e => simp [latchSrc, latchKey, srcKind, Nat.add_mul_div_left]

/-- Each source has a latch of its own (R503). -/
theorem latchKey_injective : Function.Injective latchKey :=
  Function.LeftInverse.injective latchSrc_latchKey

/-- The latches with the high half of the pair at `lo` in the source's (R503). -/
def latchesWith (s : State) (src : Src) (lo : Nat) : Sparse (Nat × Word) :=
  spIns (spDel s.latches (latchKey src)) (latchKey src) (lo, BitVec.ofNat 32 (regValue s (lo + 4)))

/-- What a source's 4-byte read of the high half at `hi` of the pair at `lo` gives: the latched half if the latch
holds this pair, otherwise the current one (Table 14.3). -/
def highHalf (s : State) (src : Src) (lo hi : Nat) : Nat :=
  match s.latches.find? (fun e => e.1 == latchKey src) with
  | some e => if e.2.1 = lo then e.2.2.toNat else regValue s hi
  | none => regValue s hi

section
variable {s : State} {off lo : Nat} (src : Src)

/-- A half of a counter pair is a register of a block. -/
theorem exists_row_of_pairOf (h : pairOf off = some lo) :
    ∃ rows row, blockRows off = some rows ∧ regRow off = some row := by
  cases hrow : regRow off with
  | none => simp [pairOf, hrow] at h
  | some row =>
    obtain ⟨rows, hrows, -⟩ := Option.bind_eq_some_iff.mp hrow
    exact ⟨rows, row, hrows, rfl⟩

/-- A half of a counter pair lies in a block. -/
theorem blockRows_of_pairOf (h : pairOf off = some lo) : ¬ (blockRows off).isNone = true := by
  obtain ⟨rows, -, hrows, -⟩ := exists_row_of_pairOf h
  simp [hrows]

/-- A low half that is read stores the high half in the source's latch (R503). -/
theorem regRead4_counterLo (h : pairOf lo = some lo) : regRead4 s src lo =
    ({ s with latches := latchesWith s src lo }, regValue s lo) := by
  obtain ⟨rows, row, hrows, hrow⟩ := exists_row_of_pairOf h
  simp [regRead4, hrows, hrow, h, latchesWith]

/-- A high half that is read clears the source's latch, whichever pair it holds (R503). -/
theorem regRead4_counterHi (h : pairOf off = some lo) (hne : off ≠ lo) : regRead4 s src off =
    ({ s with latches := spDel s.latches (latchKey src) }, highHalf s src lo off) := by
  obtain ⟨rows, row, hrows, hrow⟩ := exists_row_of_pairOf h
  simp only [regRead4, hrows, hrow, h, if_neg hne]
  rfl

/-- An aligned 4-byte access to a half of a counter pair is one read of 4 bytes. -/
theorem regRead_word (h : pairOf off = some lo) (hal : off % 4 = 0) : regRead s src off 4 = regRead4 s src off := by
  simp [regRead, blockRows_of_pairOf h, accessAlign, hal]

/-- An aligned 8-byte read of a counter pair gives both halves and leaves every latch (R502). -/
theorem regRead_counterPair (h : pairOf lo = some lo) (hal : lo % 8 = 0) :
    regRead s src lo 8 = (s, regValue s lo + 2 ^ 32 * regValue s (lo + 4)) := by
  simp [regRead, blockRows_of_pairOf h, accessAlign, hal, h]

variable (hr : s.mode = .ready)
include hr

/-- In READY a read of a counter's low half answers its value, with the high half in the latch. -/
theorem exec_counterLoRead_ready (h : pairOf lo = some lo) (hal : lo % 8 = 0) : exec (.counterLoRead src lo) s =
    .next (emit { s with latches := latchesWith s src lo } (.readData src (regValue s lo) 4 false)) := by
  have hread := (regRead_word (s := s) src h (by omega)).trans (regRead4_counterLo src h)
  refine (if_neg (isReady_open hr)).trans ?_
  simp only [hread]

/-- In READY a read of a counter's high half answers it from the latch, which it clears. -/
theorem exec_counterHiRead_ready (h : pairOf off = some lo) (hne : off ≠ lo) (hal : off % 4 = 0) :
    exec (.counterHiRead src off) s = .next (emit { s with latches := spDel s.latches (latchKey src) }
      (.readData src (highHalf s src lo off) 4 false)) := by
  have hread := (regRead_word (s := s) src h hal).trans (regRead4_counterHi src h hne)
  refine (if_neg (isReady_open hr)).trans ?_
  simp only [hread]

/-- In READY an 8-byte read of a counter pair answers both halves, and does nothing else. -/
theorem exec_counterPairRead_ready (h : pairOf lo = some lo) (hal : lo % 8 = 0) : exec (.counterPairRead src lo) s =
    .next (emit s (.readData src (regValue s lo + 2 ^ 32 * regValue s (lo + 4)) 8 false)) := by
  refine (if_neg (isReady_open hr)).trans ?_
  simp only [regRead_counterPair src h hal]

end

/-- Settles O57: the three reads leave the latches with the source's entry put, deleted and as it was, and a table's
entry at one key says nothing of another's. -/
theorem counterLatches : Obligations.CounterLatches := by
  unfold Obligations.CounterLatches
  refine ⟨fun _ _ h => latchKey_injective h, fun src lo hi s hr hlo hhi hplo hphi => ⟨?low, ?high, ?pair⟩⟩
  case low =>
    refine ⟨_, exec_counterLoRead_ready src hr hplo hlo, rfl, ?_, fun k hk => ?_⟩
    · exact find?_spIns_same _ _ _ (spDel_key_ne s.latches (latchKey src))
    · exact (find?_spIns_ne _ _ _ hk).trans (find?_spDel_ne _ _ hk)
  case high =>
    exact ⟨_, exec_counterHiRead_ready src hr hphi (by omega) (by omega), rfl, find?_spDel_same _ _,
      fun k hk => find?_spDel_ne _ _ hk⟩
  case pair => exact exec_counterPairRead_ready src hr hplo hlo

end Sys2Proof.Machine
end

section
/-! The queue of commands: a step takes its front, runs it on the state with the queue's rest, and leaves that rest. -/
namespace Sys2Proof.Machine

section
variable {s t : State} {c : Instr}

/-- A tick leaves the queue as it is. -/
theorem tick_pending (h : s.inOrder) : (tick s).pending = s.pending := by
  obtain ⟨hpending, -⟩ := tick_kept s (kept_of_inOrder h)
  exact hpending

/-- A command leaves the queue behind it as it is. -/
theorem exec_pending (h : s.inOrder) (hx : exec c s = .next t) : t.pending = s.pending := by
  obtain ⟨-, ⟨hpending, -⟩, -⟩ := exec_kept c s t (kept_of_inOrder h) hx
  exact hpending

/-- The order of memory, scratchpads and Heat Log does not speak of the queue. -/
theorem inOrder_withPending (h : s.inOrder) (rest : List Instr) : State.inOrder { s with pending := rest } := h

end

/-- Settles O1: this is the step of a queue that is not empty. -/
theorem stepRunsFrontCommand : Obligations.StepRunsFrontCommand := by
  unfold Obligations.StepRunsFrontCommand
  intro c rest s hp
  exact step_of_pending_cons hp

/-- Settles O4: on an empty queue the step is a tick, which leaves it empty; else it is the front command, which starts
with the rest in the queue and leaves it there. -/
theorem queueIsFirstInFirstOut : Obligations.QueueIsFirstInFirstOut := by
  unfold Obligations.QueueIsFirstInFirstOut
  intro s t h hx
  cases hp : s.pending with
  | nil =>
    rw [step_of_pending_nil hp] at hx
    obtain rfl := Host.Outcome.next.inj hx
    exact (tick_pending h).trans hp
  | cons c rest =>
    rw [step_of_pending_cons hp] at hx
    exact exec_pending (inOrder_withPending h rest) hx

end Sys2Proof.Machine
end
